-- ==== Sys2Proof/Word.lean ====
section
/-! DEFINITION. The word types of the Kaxia W1 Revex and their plainest arithmetic (R4). -/

namespace Sys2Proof

abbrev Byte := BitVec 8
abbrev Half := BitVec 16
abbrev Word := BitVec 32
abbrev DWord := BitVec 64

/-- A logical field (R15: 92). -/
abbrev FieldNo := Fin 92
/-- A logical tile of a field (R15: 70 x 70). -/
abbrev TileNo := Fin 4900
/-- A physical field (R29). -/
abbrev PField := Fin 96
/-- A tenant (R211). -/
abbrev Tenant := Fin 16
/-- A host port H0 to H3 (R236). -/
abbrev Port := Fin 4
/-- An HBM stack M0 to M15 (R163). -/
abbrev Stack := Fin 16
/-- A Tchimel link T0 to T15 (R261). -/
abbrev LinkNo := Fin 16
/-- A power domain PD000 to PD147 (R16). -/
abbrev Domain := Fin 148

/-- The source of a BAR0 access (R9 LAST_SRC, R230). -/
inductive Source where
  | sloe
  | host (p : Port)
  | hub
  deriving DecidableEq, Repr

/-- The LAST_SRC code of a source (Table 0.2); its order is the precedence of R230. -/
def Source.code : Source → Nat
  | .sloe => 0
  | .host p => p.val + 1
  | .hub => 5

/-- The core that executes a tile instruction: a tile of a field, or the Sloe core in the service profile (R95). -/
inductive Site where
  | tile (f : FieldNo) (t : TileNo)
  | sloe
  deriving DecidableEq, Repr

/-- An access width in bits: 8, 16, 32 or 64. -/
inductive AccW where
  | w8 | w16 | w32 | w64
  deriving DecidableEq, Repr

/-- The bytes of an access width. -/
def AccW.bytes : AccW → Nat
  | .w8 => 1
  | .w16 => 2
  | .w32 => 4
  | .w64 => 8

/-- The width that a two-bit width code names (R76). -/
def AccW.ofCode (c : BitVec 2) : AccW :=
  if c = 0 then .w8 else if c = 1 then .w16 else if c = 2 then .w32 else .w64

end Sys2Proof
end

