-- ==== Sys2Proof/Syntax.lean ====
section
/-! DEFINITION. The commands of the block: one constructor of `Instr` for each row of spec/opcode_table.json,
with the operands that say which agent acts and what comes from outside the block. -/

namespace Sys2Proof

/-- One BAR0 write of a source (R8, R230). -/
structure BusWrite where
  src : Source
  off : BitVec 26
  width : AccW
  value : DWord
  deriving DecidableEq, Repr

/-- What a read of host memory returns: bytes, or UR, CA, poison or a timeout (R248). -/
inductive HostRead where
  | data (bytes : List Byte)
  | failed
  deriving DecidableEq, Repr

/-- A host port whose partner is present at link-up, and what the link negotiates (R238, R326). -/
structure LinkPartner where
  port : Port
  flit : Bool
  cxl : Bool
  rate : BitVec 3
  width : BitVec 5
  deriving DecidableEq, Repr

/-- The path of a host access: to HBM over BAR4 or CXL.mem (R241, R242), an AtomicOp, which is refused (Table 11.7 WHY 5); to the
pages of BAR2 (R239, R240); or to the configuration space (R236, R238). -/
inductive HostPath where
  | bar4 | cxl | atomicOp | bar2 | config
  deriving DecidableEq, Repr

/-- The port-only resets of Table 15.1 and R238. -/
inductive PortResetKind where
  | perst | hotReset | flr | d3hot
  deriving DecidableEq, Repr

/-- A two-operand tile form: C2 or T2 (Table 4.2). -/
inductive Form2 where
  | c2 (d a : BitVec 5)
  | t2 (w : BitVec 2) (a d : Byte)
  deriving DecidableEq, Repr

/-- A form of ADD, SUB, AND, OR and XOR: C2 or T3 (Table 4.2). -/
inductive Form3 where
  | c2 (d a : BitVec 5)
  | t3 (w : BitVec 2) (a b d : Byte)
  deriving DecidableEq, Repr

/-- The fields of a T2 instruction (Table 4.2). -/
structure T2Form where
  w : BitVec 2
  a : Byte
  d : Byte
  deriving DecidableEq, Repr

/-- The fields of a TQ instruction (Table 4.2). -/
structure TQForm where
  w : BitVec 2
  qsel : BitVec 3
  a : Byte
  d : Byte
  deriving DecidableEq, Repr

/-- The fields of a DX instruction (Table 4.2). -/
structure DXForm where
  rnd : BitVec 3
  sc : BitVec 7
  a : Byte
  d : Byte
  deriving DecidableEq, Repr

/-- The fields of a REP instruction (Table 4.2). -/
structure RepForm where
  w : BitVec 2
  k : Fin 8
  i : Fin 8
  j : Fin 8
  step : BitVec 10
  deriving DecidableEq, Repr

/-- The fields of a GL instruction; `zero` is G[12:8], which must be 0 (Table 4.2). -/
structure GLForm where
  w : BitVec 2
  k : Fin 8
  j : Fin 8
  zero : BitVec 5
  l : Byte
  deriving DecidableEq, Repr

/-- The fields of an SY instruction (Table 4.2). -/
structure SYForm where
  arg : BitVec 4
  imm : Half
  deriving DecidableEq, Repr

/-- One sequencer operand: its specifier byte OS and the bits of its extension (Table 5.2). -/
structure SeqOperand where
  os : Byte
  ext : DWord
  deriving DecidableEq, Repr

/-- A decoded sequencer instruction (R106): its prefixes, mode word, branch offset, operands and length in bytes. -/
structure SeqInstr where
  tenant : Option Tenant := none
  atomic : Bool := false
  rep : Bool := false
  width : AccW := .w64
  wpre : Bool := false
  far : Bool := false
  mode : Half := 0
  rel : Half := 0
  d : Option SeqOperand := none
  a : Option SeqOperand := none
  b : Option SeqOperand := none
  len : Nat := 1
  deriving DecidableEq, Repr

/-- A direction of a neighbour queue (Table 3.4). -/
inductive Dir where
  | n | e | s | w
  deriving DecidableEq, Repr

/-- A bank of a table (R171). -/
inductive Bank where
  | a | b
  deriving DecidableEq, Repr

/-- The four configuration registers of a tenant (R213). -/
inductive TenCfgReg where
  | cfg | fields0 | fields1 | img
  deriving DecidableEq, Repr

/-- The table registers that R178 guards. -/
inductive TblCfgReg where
  | geom | baseA | baseB
  deriving DecidableEq, Repr

/-- A barrier group: of a field, or of the wafer (R195). -/
inductive BarGroup where
  | field (f : FieldNo) (g : Fin 256)
  | wafer (g : Fin 64)
  deriving DecidableEq, Repr

/-- Who waits or arrives in a field: a tile, or the sequencer. -/
inductive Waiter where
  | tile (t : TileNo)
  | seq
  deriving DecidableEq, Repr

/-- What a CTRL flit carries (R265); `credits` those of VC and DL at VC * 2 + DL. -/
structure CtrlFlit where
  groupId : Word
  unit : Byte
  topo : BitVec 2
  xm1 : BitVec 4
  ym1 : BitVec 4
  gsize : BitVec 5
  link : LinkNo
  width : BitVec 2
  credits : List Nat
  deriving DecidableEq, Repr

/-- Atomic operations performed at their home (R90, R106). -/
inductive Atom where
  | tas
  | lr (pri : Bool)
  | sc (v : DWord)
  | rmw (op : Byte) (v : DWord)
  | xchg (v : DWord)
  | cas (a v : DWord)
  deriving DecidableEq, Repr

/-- How a response ended. -/
inductive RespErr where
  | ok | poison | protection
  deriving DecidableEq, Repr

/-- What a packet on a link is (Table 6.4 OPC; other OPC values by number). -/
inductive LinkOp where
  | read | write | posted | atomic (a : Atom) | readData | writeAck | maintRead | other (opc : BitVec 4)
  deriving DecidableEq, Repr

/-- A packet on a link (R268): its routing prefix (Table 12.3) and its header and payload (Table 6.4). `src` is the source
node; `addr` the address of a request, the destination node of a response. `len` is the bytes a read or atomic asks for;
`err`, `ok` and `contend` are what a response carries of its outcome. -/
structure LinkPkt where
  dstUnit : Byte
  srcUnit : Byte
  kind : BitVec 2 := 0
  hops : BitVec 6 := 0
  op : LinkOp
  err : RespErr := .ok
  sys : Bool := false
  tenant : Tenant := 0
  src : BitVec 24
  tag : Half
  addr : BitVec 48
  len : Nat := 0
  data : List Byte := []
  ok : Bool := true
  contend : Bool := false
  deriving DecidableEq, Repr

/-- One DATA flit (Table 12.4): its TYPE, 1, or 3 for one that is to be treated as a CRC failure; the other header fields, the body, and
the packets that the body completes. -/
structure DataFlit where
  vc : Fin 4
  dl : Fin 2
  seq : BitVec 11
  ack : BitVec 11
  nak : Bool
  fpo : BitVec 5
  crVc : Fin 4
  crDl : Fin 2
  crCount : Fin 16
  packets : List LinkPkt
  body : List Byte
  typ : BitVec 2 := 1
  deriving DecidableEq, Repr

/-- What the line did to a flit: which of the 272 codeword bytes arrive changed; and the CRC that the flit was encoded with (R262,
R270, R278). -/
structure LineErrors where
  bytes : List (Fin 272)
  crc : BitVec 24
  deriving DecidableEq, Repr

/-- What a replay on a tile does (R283, R284): the addresses of its fetches and reads in order, and its output sequence. -/
structure Replay where
  asked : List Nat
  outs : List Nat
  deriving DecidableEq, Repr

/-- What a self-test of a physical field found: failing physical tiles, and whether another part failed. -/
structure TestResult where
  tiles : List (Fin 5184)
  part : Bool
  deriving DecidableEq, Repr

/-- How a unit reset is asked for (R322, R364, R367). -/
inductive ResetBy where
  | register (src : Source) (key : Half) (go : Bool)
  | menu
  | smbus
  deriving DecidableEq, Repr

/-- How the power stage is asked on or off (R345, R364, R367, Table 16.10). -/
inductive PowerBy where
  | smbus | menu | register
  deriving DecidableEq, Repr

/-- A key of the service menus (R364). -/
inductive MenuKey where
  | menu | up | down | ok | esc
  deriving DecidableEq, Repr

/-- Which way an alarm is acknowledged (R358). -/
inductive AckBy where
  | smbus (mask : Byte)
  | page (k : Fin 5)
  | register (mask : BitVec 5)
  deriving DecidableEq, Repr

/-- The transfer facts of an SMBus command: whether a PEC came, and whether it was right (R366). -/
structure Pec where
  present : Bool
  good : Bool
  deriving DecidableEq, Repr

/-- The commands of the block, in the order of spec/opcode_table.json. -/
inductive Instr where
  | registerWrite (ws : List BusWrite)
  | rsvdWriteClear (src : Source)
  | lastWriterClear (src : Source)
  | counterLatchRead (src : Source) (off : BitVec 26)
  | doorbell (p : Port) (t : Tenant) (off : BitVec 12) (w : AccW) (v : DWord)
  | descriptorFetch (p : Port) (t : Tenant) (n : Fin 17) (r : HostRead)
  | dispatch (fields : List FieldNo)
  | descriptorDelivery (f : FieldNo)
  | projectionExchange (f : FieldNo)
  | rejectWord (p : Port) (t : Tenant)
  | candidateFetch (slot : BitVec 24) (cands : HostRead) (ctx : HostRead)
  | resultPage (p : Port) (t : Tenant)
  | postedCreditReturn (p : Port) (n : Nat)
  | rsHeadWrite (p : Port) (t : Tenant) (w : AccW) (v : DWord)
  | ringEnable (src : Source) (p : Port) (t : Tenant) (v : DWord)
  | flush (src : Source) (p : Port) (t : Tenant)
  | ringConfigWrite (src : Source) (p : Port) (t : Tenant) (rs : Bool) (v : DWord)
  | farSegmentWrite (src : Source) (p : Port) (v : DWord)
  | prtErrClear (src : Source) (p : Port)
  | portStall (p : Port) (t : Tenant)
  | ringInterrupt (p : Port) (t : Tenant)
  | hostMemoryRead (p : Port) (path : HostPath) (addr : BitVec 40) (len : Nat)
  | hostMemoryWrite (p : Port) (path : HostPath) (addr : BitVec 40) (data : List Byte)
  | portReset (p : Port) (kind : PortResetKind)
  | linkDown (p : Port)
  | farTierAccess (p : Port) (r : HostRead)
  | claim (src : Source) (t : Tenant) (arg : BitVec 3)
  | activate (src : Source) (t : Tenant)
  | stop (src : Source) (t : Tenant)
  | tenantStopComplete (t : Tenant)
  | reassign (src : Source) (t : Tenant) (arg : BitVec 3)
  | tenantConfigWrite (src : Source) (t : Tenant) (r : TenCfgReg) (v : DWord)
  | sliceExpiry (f : FieldNo)
  | contextSwitch (f : FieldNo)
  | residencyChange (f : FieldNo)
  | windowCommit (src : Source) (v : DWord)
  | windowInstall (t : Tenant) (w : Fin 32)
  | windowDrain (t : Tenant)
  | tableRegister (src : Source)
  | tableRetire (src : Source)
  | ready (src : Source) (bk : Bank)
  | readyTakeEffect (t : Tenant) (n : Byte) (bk : Bank)
  | unready (src : Source) (bk : Bank)
  | tableConfigWrite (src : Source) (r : TblCfgReg) (v : DWord)
  | epochFlip (src : Source) (t : Tenant)
  | epochPauseEnd (t : Tenant)
  | bankDrained (t : Tenant) (n : Byte)
  | copyForward (t : Tenant)
  | hbmAccess (m : Stack)
  | patrolScrub (m : Stack)
  | hbmRefresh (m : Stack) (bank : Nat)
  | hbmErrClear (src : Source) (m : Stack)
  | packetHop (id : Nat)
  | routerCreditReturn (id : Nat)
  | accessTimeout (id : Nat)
  | fldBrErrClear (src : Source) (f : FieldNo)
  | hubBrTrunkClear (src : Source) (p : PField)
  | kernelFire (f : FieldNo) (t : TileNo)
  | queueEntryArrival (f : FieldNo) (t : TileNo) (d : Dir)
  | qstallResume (f : FieldNo) (t : TileNo)
  | contextSwitchEvent (f : FieldNo) (t : TileNo)
  | freeze (f : FieldNo) (t : TileNo)
  | debugHalt (f : FieldNo) (t : TileNo)
  | faultClear (src : Source) (f : FieldNo) (t : TileNo)
  | tileOutsideWrite (f : FieldNo) (t : TileNo) (off : BitVec 12) (v : DWord) (seq : Bool)
  | tileWindowRead (src : Source) (f : FieldNo) (off : BitVec 12) (w : AccW)
  | tileWindowWrite (src : Source) (f : FieldNo) (off : BitVec 12) (w : AccW) (v : DWord)
  | remoteSramAccess (f : FieldNo) (t : TileNo)
  | postedStoreAck (f : FieldNo) (t : TileNo)
  | globalResponse (f : FieldNo) (t : TileNo)
  | gatherElementReturn (f : FieldNo) (t : TileNo)
  | tMov (x : Site) (o : Form2)
  | tAdd (x : Site) (o : Form3)
  | tSub (x : Site) (o : Form3)
  | tAnd (x : Site) (o : Form3)
  | tOr (x : Site) (o : Form3)
  | tXor (x : Site) (o : Form3)
  | tCmp (x : Site) (o : Form2)
  | tTst (x : Site) (o : Form2)
  | tMac8 (x : Site) (acc : Bool) (d a : BitVec 5)
  | tMacq (x : Site) (acc : Bool) (d a : BitVec 5)
  | tLi (x : Site) (k : Fin 8) (imm : Byte)
  | tLsh (x : Site) (k : Fin 8) (imm : Byte)
  | tAddi (x : Site) (k : Fin 8) (imm : Byte)
  | tCmpi (x : Site) (k : Fin 8) (imm : Byte)
  | tShli (x : Site) (k : Fin 8) (imm : Byte)
  | tShri (x : Site) (k : Fin 8) (imm : Byte)
  | tRr (x : Site) (k : Fin 8) (imm : Byte)
  | tLdb (x : Site) (k : Fin 8) (slot : BitVec 7)
  | tStb (x : Site) (k : Fin 8) (slot : BitVec 7)
  | tNop (x : Site) (imm : Byte)
  | tDone (x : Site) (imm : Byte)
  | tSset (x : Site) (imm : Byte)
  | tSclr (x : Site) (imm : Byte)
  | tSwait (x : Site) (imm : Byte)
  | signalWake (f : FieldNo) (t : TileNo)
  | tBarf (x : Site) (imm : Byte)
  | tBarw (x : Site) (imm : Byte)
  | tAclr (x : Site) (imm : Byte)
  | tArm (x : Site) (imm : Byte)
  | tDisarm (x : Site) (imm : Byte)
  | tJr (x : Site) (imm : Byte)
  | tSetrnd (x : Site) (imm : Byte)
  | tSetsat (x : Site) (imm : Byte)
  | tJ16 (x : Site) (cond : BitVec 4) (off : BitVec 9)
  | tMul (x : Site) (w : BitVec 2) (a b d : Byte)
  | tNeg (x : Site) (o : T2Form)
  | tNot (x : Site) (o : T2Form)
  | tAbs (x : Site) (o : T2Form)
  | tMin (x : Site) (o : T2Form)
  | tMax (x : Site) (o : T2Form)
  | tMinu (x : Site) (o : T2Form)
  | tMaxu (x : Site) (o : T2Form)
  | tShl (x : Site) (o : T2Form)
  | tShr (x : Site) (o : T2Form)
  | tSar (x : Site) (o : T2Form)
  | tPopc (x : Site) (o : T2Form)
  | tClz (x : Site) (o : T2Form)
  | tMulq (x : Site) (o : TQForm)
  | tNarrow (x : Site) (o : TQForm)
  | tWiden (x : Site) (o : TQForm)
  | tRdacc (x : Site) (acc : Bool) (o : TQForm)
  | tWracc (x : Site) (acc : Bool) (o : TQForm)
  | tMac (x : Site) (acc fmt clr : Bool) (zero : BitVec 5) (a b : Byte)
  | tRepMove (x : Site) (o : RepForm)
  | tRepFill (x : Site) (o : RepForm)
  | tRepCmp (x : Site) (o : RepForm)
  | tRepScan (x : Site) (o : RepForm)
  | tRgath (x : Site) (o : RepForm)
  | repeatElement (x : Site) (rop : BitVec 3) (o : RepForm)
  | tBr (x : Site) (cond : BitVec 4) (l : Bool) (k : Fin 8) (off : Half)
  | tFire (x : Site) (o : SYForm)
  | tCset (x : Site) (o : SYForm)
  | tCclr (x : Site) (o : SYForm)
  | tCwait (x : Site) (o : SYForm)
  | tCtst (x : Site) (o : SYForm)
  | tGld (x : Site) (o : GLForm)
  | tGst (x : Site) (o : GLForm)
  | tTas (x : Site) (o : GLForm)
  | tLr (x : Site) (o : GLForm)
  | tSc (x : Site) (o : GLForm)
  | priorityHoldEnd (granule : BitVec 42)
  | tMovx (x : Site) (xa xd : BitVec 4) (a d : Byte)
  | tDadd (x : Site) (o : DXForm)
  | tDsub (x : Site) (o : DXForm)
  | tDmul (x : Site) (o : DXForm)
  | tDcmp (x : Site) (o : DXForm)
  | tDrsc (x : Site) (o : DXForm)
  | tDcin (x : Site) (o : DXForm)
  | tDcout (x : Site) (o : DXForm)
  | seqNop (f : FieldNo) (i : SeqInstr)
  | seqMov (f : FieldNo) (i : SeqInstr)
  | seqAdd (f : FieldNo) (i : SeqInstr)
  | seqSub (f : FieldNo) (i : SeqInstr)
  | seqAnd (f : FieldNo) (i : SeqInstr)
  | seqOr (f : FieldNo) (i : SeqInstr)
  | seqXor (f : FieldNo) (i : SeqInstr)
  | seqShl (f : FieldNo) (i : SeqInstr)
  | seqShr (f : FieldNo) (i : SeqInstr)
  | seqSar (f : FieldNo) (i : SeqInstr)
  | seqMul (f : FieldNo) (i : SeqInstr)
  | seqMin (f : FieldNo) (i : SeqInstr)
  | seqMax (f : FieldNo) (i : SeqInstr)
  | seqMinu (f : FieldNo) (i : SeqInstr)
  | seqMaxu (f : FieldNo) (i : SeqInstr)
  | seqCmp (f : FieldNo) (i : SeqInstr)
  | seqTst (f : FieldNo) (i : SeqInstr)
  | seqXchg (f : FieldNo) (i : SeqInstr)
  | seqCas (f : FieldNo) (i : SeqInstr)
  | seqDivu (f : FieldNo) (i : SeqInstr)
  | seqRemu (f : FieldNo) (i : SeqInstr)
  | seqDadd (f : FieldNo) (i : SeqInstr)
  | seqDsub (f : FieldNo) (i : SeqInstr)
  | seqDmul (f : FieldNo) (i : SeqInstr)
  | seqDdiv (f : FieldNo) (i : SeqInstr)
  | seqDcmp (f : FieldNo) (i : SeqInstr)
  | seqDrsc (f : FieldNo) (i : SeqInstr)
  | seqBr (f : FieldNo) (cond : BitVec 4) (i : SeqInstr)
  | seqCall (f : FieldNo) (i : SeqInstr)
  | seqJmp (f : FieldNo) (i : SeqInstr)
  | seqRet (f : FieldNo) (i : SeqInstr)
  | seqTret (f : FieldNo) (i : SeqInstr)
  | seqScset (f : FieldNo) (i : SeqInstr)
  | seqScclr (f : FieldNo) (i : SeqInstr)
  | seqScwait (f : FieldNo) (i : SeqInstr)
  | seqBarf (f : FieldNo) (i : SeqInstr)
  | seqBarw (f : FieldNo) (i : SeqInstr)
  | seqGstage (f : FieldNo) (i : SeqInstr)
  | gstageDone (f : FieldNo)
  | gstageFault (f : FieldNo)
  | seqWload (f : FieldNo) (i : SeqInstr)
  | wloadComplete (f : FieldNo)
  | seqDpass (f : FieldNo) (i : SeqInstr)
  | seqDwait (f : FieldNo) (i : SeqInstr)
  | seqEvwait (f : FieldNo) (i : SeqInstr)
  | seqRqtake (f : FieldNo) (i : SeqInstr)
  | seqProj (f : FieldNo) (i : SeqInstr)
  | seqAdmit (f : FieldNo) (i : SeqInstr)
  | seqRqend (f : FieldNo) (i : SeqInstr)
  | seqCallt (f : FieldNo) (i : SeqInstr)
  | seqTrst (f : FieldNo) (i : SeqInstr)
  | seqCtxsave (f : FieldNo) (i : SeqInstr)
  | seqCtxload (f : FieldNo) (i : SeqInstr)
  | seqRepElement (f : FieldNo) (op : Byte) (i : SeqInstr)
  | seqPreempt (f : FieldNo)
  | microcodeReload (f : FieldNo)
  | feedEntryArrival (f : FieldNo) (lane : Fin 70)
  | drainEntryArrival (f : FieldNo) (lane : Fin 70)
  | planeLoadDone (f : FieldNo)
  | passStreamStart (f : FieldNo)
  | vectorEntry (f : FieldNo)
  | vectorConvert (f : FieldNo)
  | conversionDone (f : FieldNo)
  | dnsErrClear (src : Source) (f : FieldNo)
  | cellOperation (f : FieldNo)
  | cellAck (f : FieldNo) (w : Waiter)
  | cellWake (f : FieldNo) (w : Waiter)
  | barrierArrival (g : BarGroup)
  | barrierRelease (g : BarGroup)
  | deadlockDetectorFire (f : FieldNo)
  | thaw (src : Source) (f : FieldNo)
  | deadlockReset (src : Source) (f : FieldNo)
  | dlFire (src : Source) (f : FieldNo)
  | cellCorrInject (src : Source) (f : FieldNo)
  | cellUncorrInject (src : Source) (f : FieldNo)
  | treeParityInject (src : Source) (f : FieldNo)
  | waferTreeInject (src : Source)
  | syncErrClear (src : Source) (f : FieldNo)
  | wbarErrClear (src : Source)
  | lend (f : FieldNo)
  | recall (f : FieldNo)
  | recallComplete (f : FieldNo)
  | lendThresholdWrite (src : Source) (v : DWord)
  | witnessRecordSend (f : FieldNo)
  | witnessReplay (f : FieldNo) (t : TileNo) (r : Replay)
  | witnessRecordTimeout (f : FieldNo)
  | refereeReplay (f : FieldNo) (t : TileNo) (r : Replay)
  | suspectExpiry (i : Fin 128)
  | tileSelfTest (f : FieldNo) (t : TileNo) (pass : Bool)
  | fence (src : Source) (f : FieldNo) (t : BitVec 13) (hold : Half)
  | unfence (src : Source) (f : FieldNo) (t : BitVec 13)
  | retire (src : Source) (f : FieldNo)
  | fenceQuiesce (f : FieldNo) (r : TestResult)
  | fenceResume (f : FieldNo)
  | retirementQuiesce (f : FieldNo) (spareFails : List PField)
  | retirementResume (f : FieldNo)
  | commandedSelfTest (src : Source) (kind : BitVec 2) (num : BitVec 7)
  | stDone (r : TestResult)
  | rasInject (src : Source) (v : DWord)
  | hardenedScrub (off : BitVec 26)
  | rasHardClear (src : Source)
  | rasNotify (p : Port)
  | linkEnable (src : Source) (k : LinkNo) (allowX8 : Bool)
  | linkDisable (src : Source) (k : LinkNo)
  | retrain (src : Source) (k : LinkNo)
  | detect (k : LinkNo) (lanes : BitVec 16)
  | equaliseDone (k : LinkNo)
  | alignDone (k : LinkNo) (lanes : BitVec 16)
  | ctrlFlit (k : LinkNo) (c : CtrlFlit)
  | trainingTimeout (k : LinkNo)
  | dataFlit (k : LinkNo) (fl : DataFlit) (err : LineErrors)
  | idleFlit (k : LinkNo) (ack : BitVec 11) (nak : Bool) (seq : BitVec 11) (err : LineErrors)
  | nak (k : LinkNo) (ack : BitVec 11)
  | replayTimeout (k : LinkNo)
  | timePacket (k : LinkNo) (stamp : DWord)
  | peerRegisterRead (k : LinkNo) (v : DWord)
  | remoteRequest (k : LinkNo) (r : LinkPkt)
  | linkLostPoison (k : LinkNo)
  | bundleReassign (k : LinkNo)
  | tchUnitWrite (src : Source) (v : DWord)
  | apertureWrite (src : Source) (j : Fin 16) (v : DWord)
  | exportWindowWrite (src : Source) (j : Fin 16) (v : DWord)
  | tchStatClear (src : Source)
  | linkErrClear (src : Source) (k : LinkNo)
  | injSym (src : Source) (k : LinkNo)
  | injUncorr (src : Source) (k : LinkNo)
  | injCrc (src : Source) (k : LinkNo)
  | injLane (src : Source) (k : LinkNo)
  | domainOffReq (src : Source) (d : Domain) (off : Bool)
  | domainFault (d : Domain)
  | opReevaluation
  | opTransition (f : FieldNo)
  | junctionSense (f : FieldNo) (s0 s1 s2 s3 : Byte)
  | thermalCeilingStep (f : FieldNo)
  | hbmThermalCeiling (m : Stack) (temp : Byte)
  | currentCeiling (f : FieldNo) (amps : Nat)
  | envelopeCeiling (watts : Nat)
  | fieldReqWrite (src : Source) (f : FieldNo) (v : DWord)
  | freezeCounters (src : Source) (on : Bool)
  | zeroCounters (src : Source)
  | powerOnReset
  | unitReset (by_ : ResetBy)
  | watchdogReset
  | sloeAlive
  | powerUp
  | hubRom (ok : Bool)
  | otpCheck
  | imageVerification
  | defectRecordVerify
  | bootMapBuild
  | quickSelfTest (p : PField) (r : TestResult) (last : Bool)
  | hbmTraining (failed : List Stack)
  | fieldRelease
  | hostLinkUp (partners : List LinkPartner)
  | bootStepTimeout
  | stage (src : Source) (kind : BitVec 3) (r : HostRead)
  | stageComplete (readbackOk : Bool)
  | svnCommit (src : Source) (kind : BitVec 3)
  | returnAuth (src : Source) (r : HostRead)
  | signatureVerify
  | lcGo (src : Source) (target : BitVec 2)
  | armExpiry
  | lifecycleBurn
  | mainPowerGoodRise
  | mainPowerGoodDrop
  | standbyRailFall
  | standbyRailStable
  | cellStop
  | autoOn
  | powerOn (by_ : PowerBy)
  | powerOff (by_ : PowerBy)
  | sloeWatchdogRestart
  | keyScan (closed : BitVec 30)
  | keyPop
  | keypadLock
  | chordTimeout
  | frameStart
  | displayCommit (crc : Half)
  | vlcdUpdate (temp : BitVec 8) (cellMv : Nat)
  | leakSample (wet : Bool)
  | leakShut
  | outletTempSample (temp : BitVec 8)
  | lidOpen
  | cellMeasure (mv : Nat)
  | alarmAck (by_ : AckBy)
  | ringCopy
  | ringClear
  | calcDigit (d : Fin 10)
  | calcPoint
  | calcAdd
  | calcSubtract
  | calcMultiply
  | calcDivide
  | calcEquals
  | calcPercent
  | calcSqrt
  | calcSquare
  | calcReciprocal
  | calcSign
  | calcDelete
  | calcC
  | calcAc
  | calcMc
  | calcMr
  | calcMPlus
  | calcMMinus
  | menu (k : MenuKey)
  | pinEntry (digits : List (Fin 10))
  | pinSessionTimeout
  | pinLockoutEnd
  | pinChange (digits : List (Fin 10))
  | acknowledgeAllAlarms
  | ringCopyNow
  | smbStatus (pec : Pec)
  | smbBootStat (pec : Pec)
  | smbRtcRead (pec : Pec)
  | rtcWrite (smbus : Bool) (pec : Pec) (secs : Word)
  | smbRegAddr (pec : Pec) (a : Word)
  | smbRegRead (pec : Pec)
  | smbRegWrite (pec : Pec) (v : DWord)
  | smbRegResult (pec : Pec)
  | smbRingSel (pec : Pec) (n : Byte)
  | smbRingRead (pec : Pec)
  | smbImgData (pec : Pec) (off : Word) (data : List Byte)
  | smbImgEnd (pec : Pec)
  | smbImgStat (pec : Pec)
  | alertResponse
  | relayRead
  | relayWrite
  | relayComplete
  | flProgram (key : Half)
  | flErase (key : Half)
  | flOptProgram (key : Half)
  | flOptErase (key : Half)
  | flUnlock
  | flLock
  | flOptLoad
  | flSuspend
  | flResume
  | flashPulseComplete
  | flashOperationComplete
  | flashWindowReadStall (addr : BitVec 16)
  | wpClear (hi : Bool) (v : DWord) (fromRom : Bool)
  | sloeStart
  | linkUp (p : Port) (flit cxl : Bool) (rate : BitVec 3) (width : BitVec 5)
  | busMasterEnable (p : Port) (on : Bool)
  | hdmDecoderCommit (p : Port)
  | passEnd (f : FieldNo)
  | domainRampDone (d : Domain)
  deriving DecidableEq, Repr

end Sys2Proof
end

