-- ==== Sys2Proof/Decode.lean ====
section
/-! DEFINITION. The words that spell commands: none for the host's table, and the instruction encodings that the tiles
(R74 to R77, Tables 4.2 to 4.15) and the field sequencers (R104, R106, R107, Tables 5.2, 5.3, 5.6) fetch from memory. -/

namespace Sys2Proof

/-- No row of the table gives bits, so no word spells a command. -/
def decodeTableWord (_nbits _w : Nat) : Option Instr := none

/-- `w` bits of a number from bit `lo`. -/
def bitsAt (v lo w : Nat) : Nat := v / 2 ^ lo % 2 ^ w

/-- A tile instruction is 32 bits long when F[15:14] = 0b11 (R74). -/
def tileLong (f : Nat) : Bool := bitsAt f 14 2 == 3

/-- A register number of three bits. -/
def reg3 (v : Nat) : Fin 8 := ⟨v % 8, Nat.mod_lt _ (by decide)⟩

/-- Form C2 (Table 4.6). -/
def decodeC2 (x : Site) (f : Nat) : Option Instr :=
  let op := bitsAt f 10 4
  let d := BitVec.ofNat 5 (bitsAt f 5 5)
  let a := BitVec.ofNat 5 (bitsAt f 0 5)
  if op = 0 then some (.tMov x (.c2 d a)) else if op = 1 then some (.tAdd x (.c2 d a))
  else if op = 2 then some (.tSub x (.c2 d a)) else if op = 3 then some (.tAnd x (.c2 d a))
  else if op = 4 then some (.tOr x (.c2 d a)) else if op = 5 then some (.tXor x (.c2 d a))
  else if op = 6 then some (.tCmp x (.c2 d a)) else if op = 7 then some (.tTst x (.c2 d a))
  else if op = 8 then some (.tMac8 x false d a) else if op = 9 then some (.tMac8 x true d a)
  else if op = 10 then some (.tMacq x false d a) else if op = 11 then some (.tMacq x true d a)
  else none

/-- Form B16 (Table 4.7). -/
def decodeB16 (x : Site) (f : Nat) : Option Instr :=
  let op := bitsAt f 11 3
  let k := reg3 (bitsAt f 8 3)
  let imm := BitVec.ofNat 8 f
  if op = 0 then some (.tLi x k imm) else if op = 1 then some (.tLsh x k imm)
  else if op = 2 then some (.tAddi x k imm) else if op = 3 then some (.tCmpi x k imm)
  else if op = 4 then some (.tShli x k imm) else if op = 5 then some (.tShri x k imm)
  else if op = 6 then some (.tRr x k imm)
  else if bitsAt f 7 1 = 0 then some (.tLdb x k (BitVec.ofNat 7 f)) else some (.tStb x k (BitVec.ofNat 7 f))

/-- Form K16 (Table 4.8). -/
def decodeK16 (x : Site) (f : Nat) : Option Instr :=
  let op := bitsAt f 8 5
  let imm := BitVec.ofNat 8 f
  if op = 0 then some (.tNop x imm) else if op = 1 then some (.tDone x imm)
  else if op = 2 then some (.tSset x imm) else if op = 3 then some (.tSclr x imm)
  else if op = 4 then some (.tSwait x imm) else if op = 5 then some (.tBarf x imm)
  else if op = 6 then some (.tBarw x imm) else if op = 7 then some (.tAclr x imm)
  else if op = 8 then some (.tArm x imm) else if op = 9 then some (.tDisarm x imm)
  else if op = 10 then some (.tJr x imm) else if op = 11 then some (.tSetrnd x imm)
  else if op = 12 then some (.tSetsat x imm) else none

/-- Form DX (Table 4.12). -/
def decodeDX (x : Site) (f g : Nat) : Option Instr :=
  let op := bitsAt f 10 3
  let o : DXForm := ⟨BitVec.ofNat 3 (bitsAt f 7 3), BitVec.ofNat 7 f, BitVec.ofNat 8 (bitsAt g 8 8), BitVec.ofNat 8 g⟩
  if op = 0 then some (.tDadd x o) else if op = 1 then some (.tDsub x o) else if op = 2 then some (.tDmul x o)
  else if op = 3 then some (.tDcmp x o) else if op = 4 then some (.tDrsc x o) else if op = 5 then some (.tDcin x o)
  else if op = 6 then some (.tDcout x o) else none

/-- Form T3 (Table 4.9): major = op × 4 + W. -/
def decodeT3 (x : Site) (f g : Nat) : Option Instr :=
  let op := bitsAt f 10 3
  let w := BitVec.ofNat 2 (bitsAt f 8 2)
  let a := BitVec.ofNat 8 f
  let b := BitVec.ofNat 8 (bitsAt g 8 8)
  let d := BitVec.ofNat 8 g
  if op = 0 then some (.tAdd x (.t3 w a b d)) else if op = 1 then some (.tSub x (.t3 w a b d))
  else if op = 2 then some (.tAnd x (.t3 w a b d)) else if op = 3 then some (.tOr x (.t3 w a b d))
  else if op = 4 then some (.tXor x (.t3 w a b d)) else if op = 5 then some (.tMul x w a b d) else none

/-- Form T2 (Table 4.10). -/
def decodeT2 (x : Site) (f g : Nat) : Option Instr :=
  let op := bitsAt f 0 6
  let w := BitVec.ofNat 2 (bitsAt f 6 2)
  let a := BitVec.ofNat 8 (bitsAt g 8 8)
  let d := BitVec.ofNat 8 g
  let o : T2Form := ⟨w, a, d⟩
  if op = 0 then some (.tMov x (.t2 w a d)) else if op = 1 then some (.tNeg x o) else if op = 2 then some (.tNot x o)
  else if op = 3 then some (.tAbs x o) else if op = 4 then some (.tCmp x (.t2 w a d))
  else if op = 5 then some (.tTst x (.t2 w a d)) else if op = 6 then some (.tMin x o) else if op = 7 then some (.tMax x o)
  else if op = 8 then some (.tMinu x o) else if op = 9 then some (.tMaxu x o) else if op = 10 then some (.tShl x o)
  else if op = 11 then some (.tShr x o) else if op = 12 then some (.tSar x o) else if op = 13 then some (.tPopc x o)
  else if op = 14 then some (.tClz x o) else none

/-- Form TQ (Table 4.11). -/
def decodeTQ (x : Site) (f g : Nat) : Option Instr :=
  let op := bitsAt f 0 3
  let o : TQForm := ⟨BitVec.ofNat 2 (bitsAt f 6 2), BitVec.ofNat 3 (bitsAt f 3 3), BitVec.ofNat 8 (bitsAt g 8 8), BitVec.ofNat 8 g⟩
  if op = 0 then some (.tMulq x o) else if op = 1 then some (.tNarrow x o) else if op = 2 then some (.tWiden x o)
  else if op = 3 then some (.tRdacc x false o) else if op = 4 then some (.tRdacc x true o)
  else if op = 5 then some (.tWracc x false o) else if op = 6 then some (.tWracc x true o) else none

/-- Form REP (R88). -/
def decodeREP (x : Site) (f g : Nat) : Option Instr :=
  let op := bitsAt f 3 3
  let o : RepForm := ⟨BitVec.ofNat 2 (bitsAt f 6 2), reg3 f, reg3 (bitsAt g 13 3), reg3 (bitsAt g 10 3), BitVec.ofNat 10 g⟩
  if op = 0 then some (.tRepMove x o) else if op = 1 then some (.tRepFill x o) else if op = 2 then some (.tRepCmp x o)
  else if op = 3 then some (.tRepScan x o) else if op = 4 then some (.tRgath x o) else none

/-- Form SY (Table 4.15). -/
def decodeSY (x : Site) (f g : Nat) : Option Instr :=
  let op := bitsAt f 4 4
  let o : SYForm := ⟨BitVec.ofNat 4 f, BitVec.ofNat 16 g⟩
  if op = 0 then some (.tFire x o) else if op = 1 then some (.tCset x o) else if op = 2 then some (.tCclr x o)
  else if op = 3 then some (.tCwait x o) else if op = 4 then some (.tCtst x o) else none

/-- Form GL (Table 4.14). -/
def decodeGL (x : Site) (f g : Nat) : Option Instr :=
  let op := bitsAt f 5 3
  let o : GLForm := ⟨BitVec.ofNat 2 (bitsAt f 3 2), reg3 f, reg3 (bitsAt g 13 3), BitVec.ofNat 5 (bitsAt g 8 5), BitVec.ofNat 8 g⟩
  if op = 0 then some (.tGld x o) else if op = 1 then some (.tGst x o) else if op = 2 then some (.tTas x o)
  else if op = 3 then some (.tLr x o) else if op = 4 then some (.tSc x o) else none

/-- A tile instruction from its halfwords (Table 4.2); none is ILLEGAL_INSTR (R76). -/
def decodeTile (x : Site) (f g : Nat) : Option Instr :=
  let top := bitsAt f 14 2
  let major := bitsAt f 8 5
  if top = 0 then decodeC2 x f
  else if top = 1 then decodeB16 x f
  else if top = 2 then
    if bitsAt f 13 1 = 0 then some (.tJ16 x (BitVec.ofNat 4 (bitsAt f 9 4)) (BitVec.ofNat 9 f)) else decodeK16 x f
  else if bitsAt f 13 1 = 1 then decodeDX x f g
  else if major < 0x18 then decodeT3 x f g
  else if major = 0x18 then decodeT2 x f g
  else if major = 0x19 then decodeTQ x f g
  else if major = 0x1A then
    some (.tMac x (bitsAt f 7 1 == 1) (bitsAt f 6 1 == 1) (bitsAt f 5 1 == 1) (BitVec.ofNat 5 f)
      (BitVec.ofNat 8 (bitsAt g 8 8)) (BitVec.ofNat 8 g))
  else if major = 0x1B then decodeREP x f g
  else if major = 0x1C then
    some (.tBr x (BitVec.ofNat 4 (bitsAt f 4 4)) (bitsAt f 3 1 == 1) (reg3 f) (BitVec.ofNat 16 g))
  else if major = 0x1D then decodeSY x f g
  else if major = 0x1E then decodeGL x f g
  else some (.tMovx x (BitVec.ofNat 4 (bitsAt f 4 4)) (BitVec.ofNat 4 f) (BitVec.ofNat 8 (bitsAt g 8 8)) (BitVec.ofNat 8 g))

/-! ### Sequencer instructions -/

/-- The number that little-endian bytes spell. -/
def leNat : List Byte → Nat
  | [] => 0
  | b :: bs => b.toNat + 256 * leNat bs

/-- Read prefixes (Table 5.3): the instruction so far, whether they are in order and legal, and the bytes after them. -/
def decodePrefixes : Nat → Nat → SeqInstr → List Byte → Option (SeqInstr × List Byte)
  | 0, _, _, _ => none
  | n + 1, last, i, bs =>
    match bs with
    | [] => none
    | b :: r =>
      let v := b.toNat
      if v < 0xA0 ∨ v > 0xBF then some (i, bs)
      else if v ≤ last then none
      else if h : v < 0xB0 then
        if last ≥ 0xA0 then none
        else decodePrefixes n v { i with tenant := some ⟨v - 0xA0, by omega⟩, len := i.len + 1 } r
      else if v = 0xB0 then decodePrefixes n v { i with atomic := true, len := i.len + 1 } r
      else if v = 0xB1 then decodePrefixes n v { i with rep := true, len := i.len + 1 } r
      else if v ≤ 0xB4 then
        if i.wpre then none
        else
          let w : AccW := if v = 0xB2 then .w8 else if v = 0xB3 then .w16 else .w32
          decodePrefixes n v { i with wpre := true, width := w, len := i.len + 1 } r
      else if v = 0xB5 then decodePrefixes n v { i with far := true, len := i.len + 1 } r
      else none

/-- The bytes of an operand's extension (Table 5.2). -/
def extLen (w : AccW) (os : Nat) : Nat :=
  let m := bitsAt os 5 3
  if m = 2 then 1 else if m = 3 then 4 else if m = 5 then 3
  else if m = 6 then (if w = .w64 then 4 else w.bytes)
  else if m = 7 then 2 else 0

/-- Read `n` operand specifiers and then their extensions, in the order D, A, B. -/
def decodeOperands (w : AccW) (n : Nat) (bs : List Byte) : Option (List SeqOperand × Nat) :=
  if bs.length < n then none
  else
    let oss := bs.take n
    let total := (oss.map fun o => extLen w o.toNat).foldl (· + ·) 0
    if bs.length < n + total then none
    else
      let r := oss.foldl (fun (acc : List SeqOperand × List Byte) o =>
        let k := extLen w o.toNat
        (acc.1 ++ [⟨o, BitVec.ofNat 64 (leNat (acc.2.take k))⟩], acc.2.drop k)) ([], bs.drop n)
      some (r.1, n + total)

/-- What follows an opcode: a mode or table word, rel16, and which of D, A, B. -/
structure SeqShape where
  word : Bool := false
  rel : Bool := false
  d : Bool := false
  a : Bool := false
  b : Bool := false
  deriving DecidableEq, Repr

/-- Complete an instruction after its opcode of `oplen` bytes. -/
def decodeTail (i : SeqInstr) (sh : SeqShape) (oplen : Nat) (bs : List Byte) : Option SeqInstr :=
  let k := if sh.word || sh.rel then 2 else 0
  if bs.length < k then none
  else
    let h := BitVec.ofNat 16 (leNat (bs.take k))
    let n := (if sh.d then 1 else 0) + (if sh.a then 1 else 0) + (if sh.b then 1 else 0)
    match decodeOperands i.width n (bs.drop k) with
    | none => none
    | some (ops, m) =>
      let ai := if sh.d then 1 else 0
      let bi := ai + (if sh.a then 1 else 0)
      some { i with
        mode := if sh.word then h else 0, rel := if sh.rel then h else 0
        d := if sh.d then ops[0]? else none
        a := if sh.a then ops[ai]? else none
        b := if sh.b then ops[bi]? else none
        len := i.len - 1 + oplen + k + m }

/-- The shapes of Table 5.6. -/
def shDA : SeqShape := { d := true, a := true }
def shDAB : SeqShape := { d := true, a := true, b := true }
def shAB : SeqShape := { a := true, b := true }
def shA : SeqShape := { a := true }
def shD : SeqShape := { d := true }

/-- The instruction of a one-byte opcode, and what follows it. -/
def seqOpcode (f : FieldNo) (op : Nat) : Option (SeqShape × (SeqInstr → Instr)) :=
  if op = 0x00 then some ({}, .seqNop f) else if op = 0x01 then some (shDA, .seqMov f)
  else if op = 0x02 then some (shDAB, .seqAdd f) else if op = 0x03 then some (shDAB, .seqSub f)
  else if op = 0x04 then some (shDAB, .seqAnd f) else if op = 0x05 then some (shDAB, .seqOr f)
  else if op = 0x06 then some (shDAB, .seqXor f) else if op = 0x07 then some (shDAB, .seqShl f)
  else if op = 0x08 then some (shDAB, .seqShr f) else if op = 0x09 then some (shDAB, .seqSar f)
  else if op = 0x0A then some (shDAB, .seqMul f) else if op = 0x0B then some (shDAB, .seqMin f)
  else if op = 0x0C then some (shDAB, .seqMax f) else if op = 0x0D then some (shDAB, .seqMinu f)
  else if op = 0x0E then some (shDAB, .seqMaxu f) else if op = 0x0F then some (shAB, .seqCmp f)
  else if op = 0x10 then some (shAB, .seqTst f) else if op = 0x11 then some (shDA, .seqXchg f)
  else if op = 0x12 then some (shDAB, .seqCas f) else if op = 0x13 then some (shDAB, .seqDivu f)
  else if op = 0x14 then some (shDAB, .seqRemu f)
  else if op = 0x20 then some ({ shDAB with word := true }, .seqDadd f)
  else if op = 0x21 then some ({ shDAB with word := true }, .seqDsub f)
  else if op = 0x22 then some ({ shDAB with word := true }, .seqDmul f)
  else if op = 0x23 then some ({ shDAB with word := true }, .seqDdiv f)
  else if op = 0x24 then some ({ shAB with word := true }, .seqDcmp f)
  else if op = 0x25 then some ({ shDA with word := true }, .seqDrsc f)
  else if 0x30 ≤ op ∧ op < 0x40 then some ({ rel := true }, .seqBr f (BitVec.ofNat 4 op))
  else if op = 0x40 then some ({ rel := true }, .seqCall f) else if op = 0x41 then some (shA, .seqJmp f)
  else if op = 0x42 then some ({}, .seqRet f) else if op = 0x44 then some ({}, .seqTret f)
  else if op = 0x50 then some (shA, .seqScset f) else if op = 0x51 then some (shA, .seqScclr f)
  else if op = 0x52 then some (shA, .seqScwait f) else if op = 0x53 then some (shA, .seqBarf f)
  else if op = 0x54 then some (shA, .seqBarw f)
  else if op = 0x60 then some ({ shDAB with word := true }, .seqGstage f)
  else if op = 0x61 then some (shDAB, .seqWload f) else if op = 0x62 then some (shAB, .seqDpass f)
  else if op = 0x63 then some ({}, .seqDwait f) else none

/-- The instruction of a pair 0xC0, op. -/
def seqOpcode2 (f : FieldNo) (op : Nat) : Option (SeqShape × (SeqInstr → Instr)) :=
  if op = 1 then some (shD, .seqEvwait f) else if op = 2 then some (shD, .seqRqtake f)
  else if op = 3 then some (shDAB, .seqProj f) else if op = 4 then some (shAB, .seqAdmit f)
  else if op = 5 then some (shAB, .seqRqend f) else if op = 6 then some (shA, .seqCallt f)
  else if op = 8 then some (shA, .seqTrst f) else if op = 9 then some (shA, .seqCtxsave f)
  else if op = 10 then some (shA, .seqCtxload f) else none

/-- What the bytes at pc spell: an instruction and its length, an illegal one, or bytes that ran out (R106, R107). -/
inductive SeqDecode where
  | instr (i : Instr) (len : Nat)
  | illegal
  | short
  deriving DecidableEq, Repr

/-- Decode a sequencer instruction from the bytes at pc; `bs` ends where the store ends, or after 24 bytes. -/
def decodeSeq (f : FieldNo) (bs : List Byte) : SeqDecode :=
  match decodePrefixes 7 0 { len := 1 } bs with
  | none => if bs.all (fun b => decide (0xA0 ≤ b.toNat ∧ b.toNat ≤ 0xBF)) && bs.length < 6 then .short else .illegal
  | some (i, r) =>
    match r with
    | [] => .short
    | op :: r1 =>
      if op = 0xC0 then
        match r1 with
        | [] => .short
        | op2 :: r2 =>
          match seqOpcode2 f op2.toNat with
          | none => .illegal
          | some (sh, mk) =>
            match decodeTail i sh 2 r2 with
            | none => .short
            | some j => .instr (mk j) j.len
      else
        match seqOpcode f op.toNat with
        | none => .illegal
        | some (sh, mk) =>
          match decodeTail i sh 1 r1 with
          | none => .short
          | some j => .instr (mk j) j.len

end Sys2Proof
end

