-- ==== Sys2Proof/Machine/Tab.lean ====
section
/-! DEFINITION. Sparse tables: lists of (key, value) pairs in one canonical form, keys strictly rising and no entry equal to
what an unlisted key reads as. Byte memories (R4, R10, R46, R101, R163, R370) and arrays of blocks are held so. -/

namespace Sys2Proof.Machine

/-- A sparse table. -/
abbrev Tab (α : Type) := List (Nat × α)

/-- The value at key `k`; `d k` where nothing is listed. -/
def Tab.get {α : Type} (d : Nat → α) : Tab α → Nat → α
  | [], k => d k
  | (k', v) :: m, k => if k' = k then v else Tab.get d m k

/-- List `v` at key `k`, in its place. -/
def Tab.insert {α : Type} : Tab α → Nat → α → Tab α
  | [], k, v => [(k, v)]
  | (k', v') :: m, k, v =>
    if k' < k then (k', v') :: Tab.insert m k v
    else if k' = k then (k, v) :: m
    else (k, v) :: (k', v') :: m

/-- Unlist key `k`. -/
def Tab.erase {α : Type} : Tab α → Nat → Tab α
  | [], _ => []
  | (k', v') :: m, k => if k' = k then Tab.erase m k else (k', v') :: Tab.erase m k

/-- Make key `k` read as `v`. -/
def Tab.set {α : Type} [DecidableEq α] (d : Nat → α) (m : Tab α) (k : Nat) (v : α) : Tab α :=
  if v = d k then Tab.erase m k else Tab.insert m k v

/-- Every key of the table is above `b`. -/
def Tab.above {α : Type} (b : Nat) : Tab α → Bool
  | [] => true
  | (k, _) :: _ => decide (b < k)

/-- The canonical form. -/
def Tab.wf {α : Type} [DecidableEq α] (d : Nat → α) : Tab α → Bool
  | [] => true
  | (k, v) :: m => decide (v ≠ d k) && Tab.above k m && Tab.wf d m

/-- `n` bytes from address `a`, the lowest address in the lowest bits (R4). -/
def Tab.readLE (d : Nat → Byte) (m : Tab Byte) (a : Nat) : Nat → Nat
  | 0 => 0
  | n + 1 => (Tab.get d m a).toNat + 256 * Tab.readLE d m (a + 1) n

/-- Store `n` bytes of `v` from address `a`, the lowest bits at the lowest address (R4). -/
def Tab.writeLE (d : Nat → Byte) (m : Tab Byte) (a : Nat) : Nat → Nat → Tab Byte
  | 0, _ => m
  | n + 1, v => Tab.writeLE d (Tab.set d m a (BitVec.ofNat 8 v)) (a + 1) n (v / 256)

/-- `n` bytes from address `a`, as a list. -/
def Tab.readBytes (d : Nat → Byte) (m : Tab Byte) (a : Nat) : Nat → List Byte
  | 0 => []
  | n + 1 => Tab.get d m a :: Tab.readBytes d m (a + 1) n

/-- Store a list of bytes from address `a`. -/
def Tab.writeBytes (d : Nat → Byte) (m : Tab Byte) (a : Nat) : List Byte → Tab Byte
  | [] => m
  | b :: bs => Tab.writeBytes d (Tab.set d m a b) (a + 1) bs

/-- What an unwritten byte of a RAM reads as (assumption 5). -/
def zeroByte : Nat → Byte := fun _ => 0
/-- What an unprogrammed byte of the flash or option area reads as (R372: erased bytes read 0xFF). -/
def erasedByte : Nat → Byte := fun _ => 0xFF

/-- The bytes of a number, little-endian. -/
def bytesLE : Nat → Nat → List Byte
  | 0, _ => []
  | n + 1, v => BitVec.ofNat 8 v :: bytesLE n (v / 256)

/-- The number that bytes spell, little-endian. -/
def natLE : List Byte → Nat
  | [] => 0
  | b :: bs => b.toNat + 256 * natLE bs

/-- `w` bits of `v` from bit `lo`. -/
def bitsOf (v : Nat) (lo w : Nat) : Nat := v / 2 ^ lo % 2 ^ w

/-- `v` with `w` bits from `lo` replaced. -/
def putBits (v : Nat) (lo w x : Nat) : Nat :=
  v - bitsOf v lo w * 2 ^ lo + (x % 2 ^ w) * 2 ^ lo

/-- A count that saturates at `m`. -/
def satAdd (m a b : Nat) : Nat := if a + b > m then m else a + b

/-- 1 for true, 0 for false. -/
def bit (b : Bool) : Nat := if b then 1 else 0

end Sys2Proof.Machine
end

