-- ==== Sys2Proof/Machine/Flags.lean ====
section
/-! DEFINITION. Widths, exact arithmetic, rounding, saturation and the flag classes (R62, R63, R79, R80, Table 4.4). -/

namespace Sys2Proof.Machine

open Sys2Proof

/-- The bits of a width. -/
def AccW.bits (w : AccW) : Nat := 8 * w.bytes

/-- The low W bits of a value. -/
def lowW (w : AccW) (v : Nat) : Nat := v % 2 ^ (AccW.bits w)

/-- The signed value of the low `n` bits. -/
def signedOf (n : Nat) (v : Nat) : Int :=
  if v % 2 ^ n < 2 ^ (n - 1) then (v % 2 ^ n : Nat) else ((v % 2 ^ n : Nat) : Int) - 2 ^ n

/-- The signed value of a W-bit operand. -/
def sx (w : AccW) (v : Nat) : Int := signedOf (AccW.bits w) v

/-- The low `n` bits of an integer. -/
def wrapN (n : Nat) (x : Int) : Nat := (x % (2 ^ n : Int)).toNat

/-- An integer outside the signed range of `n` bits. -/
def outOfRange (n : Nat) (x : Int) : Bool := decide (x < -(2 ^ (n - 1) : Int)) || decide ((2 ^ (n - 1) : Int) ≤ x)

/-- Clamp to the signed range of `n` bits. -/
def clampN (n : Nat) (x : Int) : Int :=
  if x < -(2 ^ (n - 1) : Int) then -(2 ^ (n - 1) : Int)
  else if (2 ^ (n - 1) : Int) ≤ x then (2 ^ (n - 1) : Int) - 1 else x

/-- Narrow an exact result under R63: the value written, and whether it was out of range. -/
def narrowN (n : Nat) (sat : Bool) (x : Int) : Nat × Bool :=
  (if sat then wrapN n (clampN n x) else wrapN n x, outOfRange n x)

/-- Round the quotient x ÷ 2^k under FXRND (R63): 0 toward −∞, 1 half toward +∞, 2 half to even, 3 toward zero. -/
def fxRound (mode : Nat) (x : Int) (k : Nat) : Int :=
  let q := x / (2 ^ k : Int)
  let r := x % (2 ^ k : Int)
  if k = 0 then x
  else if mode = 0 then q
  else if mode = 1 then (if 2 * r ≥ (2 ^ k : Int) then q + 1 else q)
  else if mode = 2 then
    (if 2 * r > (2 ^ k : Int) then q + 1 else if 2 * r = (2 ^ k : Int) then (if q % 2 = 0 then q else q + 1) else q)
  else (if x < 0 ∧ r ≠ 0 then q + 1 else q)

/-- The four flags. -/
structure Flg where
  z : Bool
  n : Bool
  c : Bool
  v : Bool
  deriving DecidableEq, Repr

/-- The flags as bits [3:0] of TS and `SEQ_STAT`: Z, N, C, V (Table 3.8, Table 5.9). -/
def Flg.bits (g : Flg) : Nat := bit g.z + 2 * bit g.n + 4 * bit g.c + 8 * bit g.v

/-- The flags that bits [3:0] hold. -/
def Flg.of (v : Nat) : Flg := ⟨bitsOf v 0 1 == 1, bitsOf v 1 1 == 1, bitsOf v 2 1 == 1, bitsOf v 3 1 == 1⟩

/-- Z and N of a written value of `n` bits, with C and V given (Table 4.4). -/
def flagsOf (n : Nat) (res : Nat) (c v : Bool) : Flg :=
  ⟨res % 2 ^ n == 0, bitsOf res (n - 1) 1 == 1, c, v⟩

/-- Class A of an addition of `n` bits: the value written is `res` (R79). -/
def flagsAdd (n a b res : Nat) : Flg :=
  flagsOf n res (decide (2 ^ n ≤ a % 2 ^ n + b % 2 ^ n)) (outOfRange n (signedOf n a + signedOf n b))

/-- Class A of a subtraction x − y of `n` bits. -/
def flagsSub (n x y res : Nat) : Flg :=
  flagsOf n res (decide (x % 2 ^ n < y % 2 ^ n)) (outOfRange n (signedOf n x - signedOf n y))

/-- Class L. -/
def flagsL (n res : Nat) : Flg := flagsOf n res false false

/-- Class M. -/
def flagsM (n res : Nat) (out : Bool) : Flg := flagsOf n res false out

/-- Conditions (Table 4.5); none for 0xF. -/
def condHolds (g : Flg) (cond : Nat) : Option Bool :=
  if cond = 0 then some g.z else if cond = 1 then some (!g.z)
  else if cond = 2 then some (g.n != g.v) else if cond = 3 then some (g.n == g.v)
  else if cond = 4 then some (g.z || g.n != g.v) else if cond = 5 then some (!g.z && g.n == g.v)
  else if cond = 6 then some g.c else if cond = 7 then some (!g.c)
  else if cond = 8 then some (g.c || g.z) else if cond = 9 then some (!g.c && !g.z)
  else if cond = 10 then some g.n else if cond = 11 then some (!g.n)
  else if cond = 12 then some g.v else if cond = 13 then some (!g.v)
  else if cond = 14 then some true else none

/-- Shift results with the last bit shifted out (class S); `k` is already mod W. -/
def shiftOp (kind n : Nat) (d k : Nat) : Nat × Bool :=
  let d := d % 2 ^ n
  if k = 0 then (d, false)
  else if kind = 0 then ((d * 2 ^ k) % 2 ^ n, bitsOf d (n - k) 1 == 1)
  else if kind = 1 then (d / 2 ^ k, bitsOf d (k - 1) 1 == 1)
  else (wrapN n (signedOf n d / (2 ^ k : Int)), bitsOf d (k - 1) 1 == 1)

/-- The number of 1 bits among the low `n`. -/
def popc : Nat → Nat → Nat
  | 0, _ => 0
  | n + 1, v => v % 2 + popc n (v / 2)

/-- Leading zeros of the low `n` bits. -/
def clz : Nat → Nat → Nat
  | 0, _ => 0
  | n + 1, v => if bitsOf v n 1 = 1 then 0 else 1 + clz n v

/-- Bitwise operations on naturals: 0 AND, 1 OR, 2 XOR. -/
def logic (op a b : Nat) : Nat := if op = 0 then a &&& b else if op = 1 then a ||| b else a ^^^ b

end Sys2Proof.Machine
end

