-- ==== Sys2Proof/Config.lean ====
section
/-! DEFINITION. What the spec leaves to an implementation, and the free values: values the spec leaves open. -/

namespace Sys2Proof

/-- The free values, in the order they are drawn (the counter is `State.freeCtr`): torn flash bits (R380),
`SEC_NONCE` (R340), open register bits. Nothing constrains them. -/
opaque Config.freeValue : Nat → DWord

/-- The bytes of a torn flash byte, by address and draw (R380): nothing constrains them. -/
opaque Config.freeByte : Nat → Byte

/-- The pc of the microcode event entry (R114); the spec gives no address (assumption 17). -/
opaque Config.eventEntry : BitVec 24

/-- Word 2 of a LINK_FAILED event, from the link and its REASON (Table 13.3); the spec gives no layout (assumption 18). -/
opaque Config.linkEvent : Nat → Nat → DWord

/-- The bytes of the Sloe ROM (R347); the spec does not give them. -/
opaque Config.romByte : Nat → Byte

/-- The Vendor ID that PCI-SIG has assigned to Volord (R236), and its JEDEC manufacturer code (R411); the spec does not give them. -/
opaque Config.vendorId : Half
opaque Config.jedecCode : BitVec 11

/-- What seeds the scrambler of a link's lane in ALIGN: link, lane (assumption 136). -/
opaque Config.laneSeed : Nat → Nat → BitVec 31

/-- The sampling LFSR of a tile (R279): its seed, from the physical field and tile, and the state that follows a state; the spec gives
neither (assumption 109). -/
opaque Config.lfsrSeed : Nat → Nat → BitVec 32
opaque Config.lfsrNext : BitVec 32 → BitVec 32

/-- Where the ROM enters a Sloe firmware slot: the flash bank of the window and the pc (R338); the spec gives neither (assumption 90). -/
opaque Config.slotEntry : Nat → BitVec 4 × BitVec 16

/-- The SMBus address strap is high (R366). -/
opaque Config.strapHigh : Bool

end Sys2Proof
end

