-- ==== Sys2Proof/Machine/RegMap.lean ====
section
/-! DEFINITION. The register map: every register of BAR0 (R12, R17) and of the Sloe's own map (R369, R390), its place,
and its fields with access code and reset value, as the register tables of the chapters give them. -/

namespace Sys2Proof.Machine

/-- The access codes of Table 0.1 (R6). -/
inductive Acc where
  | ro | rw | w1c | w1s | wo | rwl
  deriving DecidableEq, Repr

/-- The registers of the unit. -/
inductive Reg where
  | hubRsvdWrite | hubLastWriter | hubCntCtrl | fldUnitId | fldUnitHealth | fldPmap | fldId | fldMapRows
  | fldMapStatus | fldXlate | fldColskip | tilSel | seqStat | seqPc | seqTpc | seqRpt | seqFaultInfo | seqTstore
  | seqHwin | seqCnt | fldBrStat | fldBrErr | hubBrTrunk | dnsStat | dnsErr | dnsCntPass | dnsCntStream
  | hubTblSel | hubTblBaseA | hubTblBaseB | hubTblGeom | hubTblCtrl | hubTblState | hubEpochFlip
  | hubEpochStatus | hubEpochOldest | hubEpochStamp | hubEpochCopyRate | hubSpill | fldEpochDrain | hbmStat
  | hbmErr | hbmCntRd | hbmCntWr | hbmScrub | fldBarSel | fldBar | fldCellSel | fldCell | fldCellAllot
  | fldDlWindow | fldDlStat | fldDlCtrl | fldDlSnap | fldDlSnapTime | fldDlSnapTile | fldSyncErr | fldSyncInject
  | hubWbar | hubWbarErr | hubTenCtrl | hubTenCfg | hubTenFields0 | hubTenFields1 | hubTenStat | hubTenImg
  | hubWinSel | hubWinBase | hubWinLimit | hubWinPerm | hubWinEpoch | hubWinDrain | hubWinCtrl | prtLink
  | prtCfg | prtStat | prtRefuse | prtErr | prtFar | prtRqCfg | prtRsCfg | prtRingCtrl | prtRingStat | tchUnit
  | tchStat | tchRap | tchExp | tchLinkCtrl | tchLinkStat | tchLinkErr | tchLinkPeer | tchLinkCnt
  | tchLinkInject | rasCtrl | rasHard | rasLogTail | rasInject | rasWitErr | rasWitSamples | rasFenceCmd
  | rasFenceStat | rasStCmd | rasStStat | rasStFail0 | rasStFail1 | rasStRun0 | rasStRun1 | rasWitRate
  | rasFencePend | rasSuspect | rasFldErr | rasLog | pwrCfg | pwrLendThreshold | pwrEnvelope | pwrStat
  | pwrEnergy | pwrCntLend | pwrFldReq | pwrFldStat | pwrClampStatus | pwrDom | secCtrl | secBootStat | secReset
  | secUpdAddr | secUpdCmd | secUpdStat | secNonce | secImg | otpStat | otpLcCmd | otpRdSel | otpRdData
  | otpDefect | sloMode | sloPwrCfg | sloKey | sloKeyState | sloChord | sloDispFrame | sloDispCrc | sloDispBlink
  | sloLcd | sloAlarm | sloAlarmCfg | sloRing | sloEvtMask | sloRtc | sloSmb | sloPin | sloHubAddr | sloHubData
  | sloHubStat | sloFbank | fshCtrl | fshAddr | fshSrc | fshStat | fshWp | fshWpClr | fshNvlock | fshPassword
  | fshPageSel | fshPageState | fshInfoSel | fshInfoData
  deriving DecidableEq, Repr

/-- One field of a register: lowest bit, width, access code, reset value. -/
structure FieldDesc where
  lsb : Nat
  width : Nat
  acc : Acc
  reset : Nat
  deriving DecidableEq, Repr

/-- A register (array): the offset of element (i, j) is base + i * s1 + j * s2, with i below n1 and j below n2;
`perSrc` when it exists once per source (R45). -/
structure RegDesc where
  base : Nat
  s1 : Nat
  n1 : Nat
  s2 : Nat
  n2 : Nat
  perSrc : Bool
  fields : List FieldDesc
  deriving DecidableEq, Repr

/-- Offsets of the Sloe's own registers lie above BAR0's 26 bits. -/
def sloeBase : Nat := 0x40000000

/-- Every register's place and fields. -/
def Reg.desc : Reg → RegDesc
  | .hubRsvdWrite => ⟨0xF00, 0x0, 1, 0x0, 1, false, [⟨0, 26, .ro, 0⟩, ⟨32, 3, .ro, 0⟩, ⟨35, 1, .wo, 0⟩, ⟨36, 1, .ro, 0⟩,
      ⟨48, 16, .ro, 0⟩]⟩
  | .hubLastWriter => ⟨0xF10, 0x0, 1, 0x0, 1, true, [⟨0, 26, .ro, 0⟩, ⟨26, 3, .ro, 0⟩, ⟨29, 3, .ro, 0⟩, ⟨32, 3, .ro, 0⟩,
      ⟨35, 1, .wo, 0⟩, ⟨48, 16, .ro, 0⟩]⟩
  | .hubCntCtrl => ⟨0xF20, 0x0, 1, 0x0, 1, false, [⟨0, 1, .rw, 0⟩, ⟨1, 1, .wo, 0⟩]⟩
  | .fldUnitId => ⟨0x1000, 0x0, 1, 0x0, 1, false, [⟨0, 8, .ro, 0⟩, ⟨8, 8, .ro, 0⟩, ⟨16, 16, .ro, 0⟩, ⟨32, 32, .ro, 0⟩]⟩
  | .fldUnitHealth => ⟨0x1008, 0x0, 1, 0x0, 1, false, [⟨0, 2, .ro, 0⟩, ⟨2, 3, .ro, 0⟩, ⟨5, 7, .ro, 0⟩, ⟨12, 1, .ro, 0⟩,
      ⟨13, 1, .ro, 0⟩, ⟨16, 16, .ro, 0⟩, ⟨32, 16, .ro, 0⟩, ⟨48, 1, .w1c, 0⟩]⟩
  | .fldPmap => ⟨0x1100, 0x8, 96, 0x0, 1, false, [⟨0, 7, .ro, 127⟩, ⟨8, 2, .ro, 3⟩, ⟨12, 4, .ro, 0⟩]⟩
  | .fldId => ⟨0x1000000, 0x40000, 92, 0x0, 1, false, [⟨0, 7, .ro, 0⟩, ⟨7, 1, .ro, 0⟩, ⟨8, 7, .ro, 0⟩, ⟨16, 3, .ro, 0⟩,
      ⟨20, 4, .ro, 0⟩, ⟨24, 4, .ro, 0⟩, ⟨32, 16, .ro, 0⟩]⟩
  | .fldMapRows => ⟨0x1000008, 0x40000, 92, 0x0, 1, false, [⟨0, 7, .ro, 0⟩, ⟨7, 1, .ro, 0⟩, ⟨8, 7, .ro, 0⟩,
      ⟨15, 1, .ro, 0⟩, ⟨16, 7, .ro, 0⟩, ⟨24, 7, .ro, 0⟩]⟩
  | .fldMapStatus => ⟨0x1000010, 0x40000, 92, 0x0, 1, false, [⟨0, 13, .ro, 0⟩, ⟨16, 2, .ro, 0⟩, ⟨18, 7, .ro, 0⟩,
      ⟨25, 1, .ro, 0⟩]⟩
  | .fldXlate => ⟨0x1000018, 0x40000, 92, 0x0, 1, true, [⟨0, 13, .rw, 0⟩, ⟨16, 7, .ro, 0⟩, ⟨24, 7, .ro, 0⟩,
      ⟨31, 1, .ro, 0⟩, ⟨32, 13, .ro, 0⟩, ⟨48, 16, .ro, 0⟩]⟩
  | .fldColskip => ⟨0x1000200, 0x40000, 92, 0x8, 72, false, [⟨0, 7, .ro, 0⟩, ⟨7, 1, .ro, 0⟩, ⟨8, 7, .ro, 0⟩,
      ⟨15, 1, .ro, 0⟩, ⟨16, 7, .ro, 0⟩, ⟨23, 1, .ro, 0⟩]⟩
  | .tilSel => ⟨0x1003000, 0x40000, 92, 0x0, 1, true, [⟨0, 13, .rw, 0⟩]⟩
  | .seqStat => ⟨0x1001000, 0x40000, 92, 0x0, 1, false, [⟨0, 1, .rw, 0⟩, ⟨1, 1, .rw, 0⟩, ⟨2, 1, .rw, 0⟩, ⟨3, 1, .rw, 0⟩,
      ⟨4, 1, .w1c, 0⟩, ⟨8, 1, .ro, 0⟩, ⟨9, 1, .ro, 0⟩, ⟨10, 1, .ro, 1⟩, ⟨12, 4, .ro, 0⟩]⟩
  | .seqPc => ⟨0x1001008, 0x40000, 92, 0x0, 1, false, [⟨0, 24, .rw, 0⟩]⟩
  | .seqTpc => ⟨0x1001010, 0x40000, 92, 0x0, 1, false, [⟨0, 24, .rw, 0⟩]⟩
  | .seqRpt => ⟨0x1001018, 0x40000, 92, 0x0, 1, false, [⟨0, 32, .rw, 0⟩]⟩
  | .seqFaultInfo => ⟨0x1001020, 0x40000, 92, 0x0, 1, false, [⟨0, 8, .ro, 0⟩, ⟨8, 1, .ro, 0⟩, ⟨9, 1, .ro, 0⟩,
      ⟨10, 1, .ro, 0⟩, ⟨16, 48, .ro, 0⟩]⟩
  | .seqTstore => ⟨0x1001028, 0x40000, 92, 0x0, 1, false, [⟨0, 6, .rw, 0⟩, ⟨8, 7, .rw, 0⟩]⟩
  | .seqHwin => ⟨0x1001040, 0x40000, 92, 0x8, 8, false, [⟨0, 24, .rw, 0⟩, ⟨24, 1, .rw, 0⟩]⟩
  | .seqCnt => ⟨0x1001100, 0x40000, 92, 0x8, 4, false, [⟨0, 48, .ro, 0⟩, ⟨63, 1, .w1c, 0⟩]⟩
  | .fldBrStat => ⟨0x1000800, 0x40000, 92, 0x0, 1, false, [⟨0, 1, .ro, 0⟩, ⟨16, 16, .ro, 0⟩, ⟨32, 3, .ro, 0⟩]⟩
  | .fldBrErr => ⟨0x1000808, 0x40000, 92, 0x0, 1, false, [⟨0, 16, .ro, 0⟩, ⟨16, 16, .ro, 0⟩, ⟨32, 16, .ro, 0⟩,
      ⟨48, 1, .wo, 0⟩]⟩
  | .hubBrTrunk => ⟨0x2000, 0x8, 96, 0x0, 1, false, [⟨0, 4, .ro, 0⟩, ⟨4, 4, .ro, 0⟩, ⟨16, 16, .ro, 0⟩, ⟨32, 16, .ro, 0⟩,
      ⟨48, 1, .wo, 0⟩]⟩
  | .dnsStat => ⟨0x1002000, 0x40000, 92, 0x0, 1, false, [⟨0, 3, .ro, 0⟩, ⟨3, 1, .ro, 0⟩, ⟨4, 1, .ro, 0⟩, ⟨5, 1, .ro, 0⟩,
      ⟨6, 1, .ro, 0⟩, ⟨7, 1, .ro, 0⟩, ⟨8, 1, .ro, 0⟩, ⟨9, 1, .ro, 0⟩, ⟨10, 1, .ro, 0⟩, ⟨11, 1, .ro, 0⟩, ⟨12, 4, .ro, 0⟩,
      ⟨16, 10, .ro, 0⟩, ⟨32, 32, .ro, 0⟩]⟩
  | .dnsErr => ⟨0x1002008, 0x40000, 92, 0x0, 1, false, [⟨0, 1, .w1c, 0⟩, ⟨1, 1, .w1c, 0⟩, ⟨2, 1, .w1c, 0⟩,
      ⟨3, 1, .w1c, 0⟩, ⟨4, 1, .w1c, 0⟩, ⟨5, 1, .w1c, 0⟩, ⟨6, 1, .w1c, 0⟩, ⟨16, 16, .ro, 0⟩, ⟨32, 16, .ro, 0⟩,
      ⟨48, 1, .wo, 0⟩]⟩
  | .dnsCntPass => ⟨0x1002010, 0x40000, 92, 0x0, 1, false, [⟨0, 48, .ro, 0⟩, ⟨63, 1, .w1c, 0⟩]⟩
  | .dnsCntStream => ⟨0x1002018, 0x40000, 92, 0x0, 1, false, [⟨0, 48, .ro, 0⟩, ⟨63, 1, .w1c, 0⟩]⟩
  | .hubTblSel => ⟨0x4000, 0x0, 1, 0x0, 1, true, [⟨0, 4, .rw, 0⟩, ⟨8, 8, .rw, 0⟩]⟩
  | .hubTblBaseA => ⟨0x4008, 0x0, 1, 0x0, 1, false, [⟨0, 44, .rw, 0⟩, ⟨44, 2, .rw, 0⟩, ⟨48, 8, .rw, 0⟩]⟩
  | .hubTblBaseB => ⟨0x4010, 0x0, 1, 0x0, 1, false, [⟨0, 44, .rw, 0⟩, ⟨44, 2, .rw, 0⟩, ⟨48, 8, .rw, 0⟩]⟩
  | .hubTblGeom => ⟨0x4018, 0x0, 1, 0x0, 1, false, [⟨0, 9, .rw, 0⟩, ⟨32, 32, .rw, 0⟩]⟩
  | .hubTblCtrl => ⟨0x4020, 0x0, 1, 0x0, 1, false, [⟨0, 1, .wo, 0⟩, ⟨1, 1, .wo, 0⟩, ⟨2, 1, .wo, 0⟩, ⟨3, 1, .wo, 0⟩,
      ⟨4, 1, .wo, 0⟩, ⟨5, 1, .wo, 0⟩, ⟨6, 1, .rw, 0⟩]⟩
  | .hubTblState => ⟨0x4028, 0x0, 1, 0x0, 1, false, [⟨0, 3, .ro, 0⟩, ⟨3, 3, .ro, 0⟩, ⟨6, 1, .ro, 0⟩, ⟨7, 1, .ro, 0⟩,
      ⟨8, 1, .w1c, 0⟩, ⟨16, 32, .ro, 0⟩, ⟨48, 16, .ro, 0⟩]⟩
  | .hubEpochFlip => ⟨0x4100, 0x8, 16, 0x0, 1, false, [⟨0, 1, .wo, 0⟩]⟩
  | .hubEpochStatus => ⟨0x4180, 0x8, 16, 0x0, 1, false, [⟨0, 32, .ro, 0⟩, ⟨32, 3, .ro, 0⟩, ⟨35, 1, .ro, 0⟩,
      ⟨36, 4, .ro, 0⟩, ⟨40, 1, .w1c, 0⟩, ⟨48, 9, .ro, 0⟩]⟩
  | .hubEpochOldest => ⟨0x4200, 0x8, 16, 0x0, 1, false, [⟨0, 32, .ro, 0⟩, ⟨32, 1, .ro, 1⟩]⟩
  | .hubEpochStamp => ⟨0x4280, 0x8, 16, 0x0, 1, false, [⟨0, 64, .ro, 0⟩]⟩
  | .hubEpochCopyRate => ⟨0x4300, 0x0, 1, 0x0, 1, false, [⟨0, 8, .rw, 40⟩]⟩
  | .hubSpill => ⟨0x4800, 0x20, 16, 0x8, 4, false, [⟨0, 48, .ro, 0⟩, ⟨63, 1, .w1c, 0⟩]⟩
  | .fldEpochDrain => ⟨0x1000900, 0x40000, 92, 0x8, 16, false, [⟨0, 32, .ro, 0⟩, ⟨32, 16, .ro, 0⟩, ⟨48, 1, .ro, 1⟩]⟩
  | .hbmStat => ⟨0x600000, 0x100, 16, 0x0, 1, false, [⟨0, 1, .ro, 0⟩, ⟨1, 1, .ro, 0⟩, ⟨2, 1, .ro, 0⟩, ⟨8, 8, .ro, 0⟩]⟩
  | .hbmErr => ⟨0x600008, 0x100, 16, 0x0, 1, false, [⟨0, 16, .ro, 0⟩, ⟨16, 16, .ro, 0⟩, ⟨32, 16, .ro, 0⟩,
      ⟨48, 1, .wo, 0⟩]⟩
  | .hbmCntRd => ⟨0x600010, 0x100, 16, 0x0, 1, false, [⟨0, 48, .ro, 0⟩, ⟨63, 1, .w1c, 0⟩]⟩
  | .hbmCntWr => ⟨0x600018, 0x100, 16, 0x0, 1, false, [⟨0, 48, .ro, 0⟩, ⟨63, 1, .w1c, 0⟩]⟩
  | .hbmScrub => ⟨0x601000, 0x0, 1, 0x0, 1, false, [⟨0, 8, .rw, 24⟩, ⟨8, 1, .wo, 0⟩]⟩
  | .fldBarSel => ⟨0x1000A00, 0x40000, 92, 0x0, 1, true, [⟨0, 8, .rw, 0⟩]⟩
  | .fldBar => ⟨0x1000A08, 0x40000, 92, 0x0, 1, false, [⟨0, 13, .ro, 0⟩, ⟨16, 13, .ro, 0⟩, ⟨32, 1, .ro, 0⟩]⟩
  | .fldCellSel => ⟨0x1000A18, 0x40000, 92, 0x0, 1, true, [⟨0, 12, .rw, 0⟩]⟩
  | .fldCell => ⟨0x1000A20, 0x40000, 92, 0x0, 1, false, [⟨0, 1, .ro, 0⟩, ⟨1, 1, .ro, 0⟩, ⟨2, 5, .ro, 0⟩, ⟨8, 13, .ro, 0⟩,
      ⟨24, 4, .ro, 0⟩, ⟨28, 1, .ro, 0⟩, ⟨32, 13, .ro, 0⟩]⟩
  | .fldCellAllot => ⟨0x1000A40, 0x40000, 92, 0x8, 16, false, [⟨0, 6, .ro, 0⟩, ⟨8, 7, .ro, 0⟩]⟩
  | .fldDlWindow => ⟨0x1000B00, 0x40000, 92, 0x0, 1, false, [⟨0, 32, .rw, 1048576⟩]⟩
  | .fldDlStat => ⟨0x1000B08, 0x40000, 92, 0x0, 1, false, [⟨0, 1, .ro, 0⟩, ⟨1, 1, .ro, 0⟩, ⟨2, 1, .w1c, 0⟩,
      ⟨3, 1, .w1c, 0⟩, ⟨4, 4, .ro, 0⟩, ⟨16, 16, .ro, 0⟩, ⟨32, 32, .ro, 0⟩]⟩
  | .fldDlCtrl => ⟨0x1000B10, 0x40000, 92, 0x0, 1, false, [⟨0, 2, .wo, 0⟩]⟩
  | .fldDlSnap => ⟨0x1000B18, 0x40000, 92, 0x0, 1, false, [⟨0, 4, .ro, 0⟩, ⟨4, 13, .ro, 0⟩, ⟨17, 13, .ro, 0⟩,
      ⟨30, 13, .ro, 0⟩, ⟨43, 3, .ro, 0⟩, ⟨46, 2, .ro, 0⟩]⟩
  | .fldDlSnapTime => ⟨0x1000B20, 0x40000, 92, 0x0, 1, false, [⟨0, 64, .ro, 0⟩]⟩
  | .fldDlSnapTile => ⟨0x1000B40, 0x40000, 92, 0x8, 16, false, [⟨0, 13, .ro, 0⟩, ⟨13, 3, .ro, 7⟩, ⟨16, 16, .ro, 0⟩,
      ⟨32, 12, .ro, 0⟩, ⟨44, 3, .ro, 0⟩]⟩
  | .fldSyncErr => ⟨0x1000C00, 0x40000, 92, 0x0, 1, false, [⟨0, 16, .ro, 0⟩, ⟨16, 16, .ro, 0⟩, ⟨32, 16, .ro, 0⟩,
      ⟨48, 1, .w1c, 0⟩, ⟨49, 8, .ro, 0⟩, ⟨57, 1, .wo, 0⟩]⟩
  | .fldSyncInject => ⟨0x1000C08, 0x40000, 92, 0x0, 1, false, [⟨0, 1, .wo, 0⟩, ⟨1, 1, .wo, 0⟩, ⟨2, 1, .wo, 0⟩,
      ⟨3, 1, .wo, 0⟩]⟩
  | .hubWbar => ⟨0x5000, 0x8, 64, 0x0, 1, false, [⟨0, 19, .ro, 0⟩, ⟨19, 1, .ro, 0⟩, ⟨20, 4, .ro, 0⟩, ⟨24, 1, .ro, 0⟩,
      ⟨32, 19, .ro, 0⟩]⟩
  | .hubWbarErr => ⟨0x5200, 0x0, 1, 0x0, 1, false, [⟨0, 16, .ro, 0⟩, ⟨16, 1, .w1c, 0⟩, ⟨17, 6, .ro, 0⟩, ⟨23, 1, .wo, 0⟩,
      ⟨24, 1, .wo, 0⟩]⟩
  | .hubTenCtrl => ⟨0x6000, 0x40, 16, 0x0, 1, false, [⟨0, 1, .wo, 0⟩, ⟨1, 1, .wo, 0⟩, ⟨2, 1, .wo, 0⟩, ⟨3, 1, .wo, 0⟩,
      ⟨4, 3, .wo, 0⟩]⟩
  | .hubTenCfg => ⟨0x6008, 0x40, 16, 0x0, 1, false, [⟨0, 7, .rw, 0⟩, ⟨7, 1, .rw, 0⟩, ⟨8, 7, .rw, 0⟩, ⟨16, 8, .rw, 2⟩]⟩
  | .hubTenFields0 => ⟨0x6010, 0x40, 16, 0x0, 1, false, [⟨0, 64, .rw, 0⟩]⟩
  | .hubTenFields1 => ⟨0x6018, 0x40, 16, 0x0, 1, false, [⟨0, 28, .rw, 0⟩, ⟨28, 36, .rw, 0⟩]⟩
  | .hubTenStat => ⟨0x6020, 0x40, 16, 0x0, 1, false, [⟨0, 2, .ro, 0⟩, ⟨2, 2, .ro, 0⟩, ⟨4, 1, .ro, 0⟩, ⟨5, 1, .w1c, 0⟩,
      ⟨6, 3, .ro, 0⟩, ⟨16, 7, .ro, 0⟩, ⟨24, 7, .ro, 0⟩]⟩
  | .hubTenImg => ⟨0x6028, 0x40, 16, 0x0, 1, false, [⟨0, 40, .rw, 0⟩]⟩
  | .hubWinSel => ⟨0x7000, 0x0, 1, 0x0, 1, true, [⟨0, 4, .rw, 0⟩, ⟨8, 5, .rw, 0⟩]⟩
  | .hubWinBase => ⟨0x7008, 0x0, 1, 0x0, 1, true, [⟨12, 36, .rw, 0⟩]⟩
  | .hubWinLimit => ⟨0x7010, 0x0, 1, 0x0, 1, true, [⟨12, 36, .rw, 0⟩]⟩
  | .hubWinPerm => ⟨0x7018, 0x0, 1, 0x0, 1, true, [⟨0, 1, .rw, 0⟩, ⟨1, 1, .rw, 0⟩, ⟨2, 1, .rw, 0⟩, ⟨3, 1, .rw, 0⟩,
      ⟨4, 1, .rw, 0⟩, ⟨5, 1, .rw, 0⟩, ⟨8, 1, .wo, 0⟩]⟩
  | .hubWinEpoch => ⟨0x7100, 0x8, 16, 0x0, 1, false, [⟨0, 32, .ro, 0⟩]⟩
  | .hubWinDrain => ⟨0x7180, 0x8, 16, 0x0, 1, false, [⟨0, 1, .ro, 1⟩, ⟨1, 1, .ro, 0⟩, ⟨2, 1, .w1c, 0⟩]⟩
  | .hubWinCtrl => ⟨0x7200, 0x8, 16, 0x0, 1, false, [⟨0, 1, .rw, 0⟩]⟩
  | .prtLink => ⟨0x100000, 0x40000, 4, 0x0, 1, false, [⟨0, 1, .ro, 0⟩, ⟨1, 1, .ro, 0⟩, ⟨2, 1, .ro, 0⟩, ⟨3, 1, .ro, 0⟩,
      ⟨4, 3, .ro, 0⟩, ⟨7, 5, .ro, 0⟩, ⟨12, 2, .ro, 0⟩, ⟨16, 16, .ro, 0⟩]⟩
  | .prtCfg => ⟨0x100008, 0x40000, 4, 0x0, 1, false, [⟨0, 1, .rw, 1⟩, ⟨1, 6, .rw, 0⟩]⟩
  | .prtStat => ⟨0x100010, 0x40000, 4, 0x0, 1, false, [⟨0, 1, .w1c, 0⟩, ⟨1, 1, .w1c, 0⟩, ⟨2, 1, .w1c, 0⟩, ⟨3, 1, .w1c, 0⟩,
      ⟨4, 1, .w1c, 0⟩, ⟨5, 1, .w1c, 0⟩, ⟨6, 1, .w1c, 0⟩, ⟨16, 16, .ro, 0⟩, ⟨32, 1, .ro, 0⟩]⟩
  | .prtRefuse => ⟨0x100018, 0x40000, 4, 0x0, 1, false, [⟨0, 40, .ro, 0⟩, ⟨40, 3, .ro, 0⟩, ⟨43, 1, .ro, 0⟩,
      ⟨48, 16, .ro, 0⟩]⟩
  | .prtErr => ⟨0x100020, 0x40000, 4, 0x0, 1, false, [⟨0, 16, .ro, 0⟩, ⟨16, 16, .ro, 0⟩, ⟨32, 16, .ro, 0⟩,
      ⟨48, 1, .wo, 0⟩]⟩
  | .prtFar => ⟨0x100028, 0x40000, 4, 0x0, 1, false, [⟨0, 1, .rw, 0⟩, ⟨1, 13, .rw, 0⟩, ⟨14, 13, .ro, 0⟩,
      ⟨30, 34, .rw, 0⟩]⟩
  | .prtRqCfg => ⟨0x101000, 0x40000, 4, 0x40, 16, false, [⟨0, 5, .rw, 0⟩, ⟨12, 52, .rw, 0⟩]⟩
  | .prtRsCfg => ⟨0x101008, 0x40000, 4, 0x40, 16, false, [⟨0, 5, .rw, 0⟩, ⟨12, 52, .rw, 0⟩]⟩
  | .prtRingCtrl => ⟨0x101010, 0x40000, 4, 0x40, 16, false, [⟨0, 1, .rw, 0⟩, ⟨1, 1, .wo, 0⟩, ⟨2, 6, .rw, 0⟩,
      ⟨16, 16, .rw, 0⟩]⟩
  | .prtRingStat => ⟨0x101018, 0x40000, 4, 0x40, 16, false, [⟨0, 1, .ro, 0⟩, ⟨1, 1, .w1c, 0⟩, ⟨2, 1, .ro, 0⟩,
      ⟨3, 1, .ro, 0⟩, ⟨4, 1, .ro, 0⟩, ⟨16, 32, .ro, 0⟩, ⟨48, 16, .ro, 0⟩]⟩
  | .tchUnit => ⟨0x500000, 0x0, 1, 0x0, 1, false, [⟨0, 8, .rw, 0⟩, ⟨8, 2, .rw, 0⟩, ⟨10, 4, .rw, 0⟩, ⟨14, 4, .rw, 0⟩,
      ⟨18, 5, .rw, 0⟩, ⟨24, 2, .rw, 0⟩, ⟨32, 32, .rw, 0⟩]⟩
  | .tchStat => ⟨0x500008, 0x0, 1, 0x0, 1, false, [⟨0, 1, .w1c, 0⟩, ⟨16, 16, .ro, 0⟩, ⟨32, 16, .ro, 0⟩,
      ⟨48, 1, .wo, 0⟩]⟩
  | .tchRap => ⟨0x500100, 0x8, 16, 0x0, 1, false, [⟨0, 1, .rw, 0⟩, ⟨8, 8, .rw, 0⟩, ⟨16, 10, .rw, 0⟩, ⟨26, 10, .rw, 0⟩,
      ⟨36, 10, .rw, 0⟩]⟩
  | .tchExp => ⟨0x500200, 0x8, 16, 0x0, 1, false, [⟨0, 1, .rw, 0⟩, ⟨1, 1, .rw, 0⟩, ⟨2, 1, .rw, 0⟩, ⟨3, 1, .rw, 0⟩,
      ⟨4, 1, .rw, 0⟩, ⟨8, 8, .rw, 0⟩, ⟨16, 10, .rw, 0⟩, ⟨26, 10, .rw, 0⟩]⟩
  | .tchLinkCtrl => ⟨0x501000, 0x40, 16, 0x0, 1, false, [⟨0, 1, .rw, 0⟩, ⟨1, 1, .wo, 0⟩, ⟨2, 1, .rw, 1⟩,
      ⟨3, 1, .wo, 0⟩]⟩
  | .tchLinkStat => ⟨0x501008, 0x40, 16, 0x0, 1, false, [⟨0, 3, .ro, 0⟩, ⟨4, 2, .ro, 0⟩, ⟨8, 3, .ro, 0⟩, ⟨16, 8, .ro, 0⟩,
      ⟨24, 4, .ro, 0⟩, ⟨32, 16, .ro, 0⟩]⟩
  | .tchLinkErr => ⟨0x501010, 0x40, 16, 0x0, 1, false, [⟨0, 16, .ro, 0⟩, ⟨16, 16, .ro, 0⟩, ⟨32, 16, .ro, 0⟩,
      ⟨48, 8, .ro, 0⟩, ⟨56, 8, .ro, 0⟩]⟩
  | .tchLinkPeer => ⟨0x501018, 0x40, 16, 0x0, 1, false, [⟨0, 64, .ro, 0⟩]⟩
  | .tchLinkCnt => ⟨0x501020, 0x40, 16, 0x0, 1, false, [⟨0, 48, .ro, 0⟩, ⟨63, 1, .w1c, 0⟩]⟩
  | .tchLinkInject => ⟨0x501028, 0x40, 16, 0x0, 1, false, [⟨0, 1, .wo, 0⟩, ⟨1, 1, .wo, 0⟩, ⟨2, 1, .wo, 0⟩,
      ⟨3, 1, .wo, 0⟩]⟩
  | .rasCtrl => ⟨0x300000, 0x0, 1, 0x0, 1, false, [⟨0, 2, .rw, 0⟩, ⟨4, 4, .rw, 1⟩, ⟨8, 1, .w1c, 0⟩]⟩
  | .rasHard => ⟨0x300008, 0x0, 1, 0x0, 1, false, [⟨0, 16, .ro, 0⟩, ⟨16, 16, .ro, 0⟩, ⟨32, 26, .ro, 0⟩,
      ⟨58, 1, .wo, 0⟩]⟩
  | .rasLogTail => ⟨0x300010, 0x0, 1, 0x0, 1, false, [⟨0, 32, .ro, 0⟩]⟩
  | .rasInject => ⟨0x300018, 0x0, 1, 0x0, 1, false, [⟨0, 8, .wo, 0⟩, ⟨8, 7, .wo, 0⟩, ⟨15, 13, .wo, 0⟩,
      ⟨32, 32, .wo, 0⟩]⟩
  | .rasWitErr => ⟨0x300020, 0x0, 1, 0x0, 1, false, [⟨0, 16, .ro, 0⟩, ⟨16, 16, .ro, 0⟩, ⟨32, 16, .ro, 0⟩,
      ⟨48, 16, .ro, 0⟩]⟩
  | .rasWitSamples => ⟨0x300028, 0x0, 1, 0x0, 1, false, [⟨0, 48, .ro, 0⟩, ⟨48, 8, .ro, 0⟩, ⟨63, 1, .w1c, 0⟩]⟩
  | .rasFenceCmd => ⟨0x300030, 0x0, 1, 0x0, 1, false, [⟨0, 2, .wo, 0⟩, ⟨2, 7, .wo, 0⟩, ⟨9, 13, .wo, 0⟩,
      ⟨32, 16, .wo, 0⟩]⟩
  | .rasFenceStat => ⟨0x300038, 0x0, 1, 0x0, 1, false, [⟨0, 5, .ro, 0⟩, ⟨5, 1, .ro, 0⟩]⟩
  | .rasStCmd => ⟨0x300040, 0x0, 1, 0x0, 1, false, [⟨0, 2, .wo, 0⟩, ⟨2, 7, .wo, 0⟩]⟩
  | .rasStStat => ⟨0x300048, 0x0, 1, 0x0, 1, false, [⟨0, 1, .ro, 0⟩, ⟨1, 2, .ro, 0⟩, ⟨3, 2, .ro, 0⟩, ⟨5, 7, .ro, 0⟩,
      ⟨16, 13, .ro, 0⟩, ⟨32, 16, .ro, 0⟩]⟩
  | .rasStFail0 => ⟨0x300050, 0x0, 1, 0x0, 1, false, [⟨0, 64, .ro, 0⟩]⟩
  | .rasStFail1 => ⟨0x300058, 0x0, 1, 0x0, 1, false, [⟨0, 28, .ro, 0⟩, ⟨32, 16, .ro, 0⟩]⟩
  | .rasStRun0 => ⟨0x300060, 0x0, 1, 0x0, 1, false, [⟨0, 64, .ro, 0⟩]⟩
  | .rasStRun1 => ⟨0x300068, 0x0, 1, 0x0, 1, false, [⟨0, 28, .ro, 0⟩, ⟨32, 16, .ro, 0⟩]⟩
  | .rasWitRate => ⟨0x300100, 0x8, 16, 0x0, 1, false, [⟨0, 5, .rw, 12⟩]⟩
  | .rasFencePend => ⟨0x300200, 0x8, 16, 0x0, 1, false, [⟨0, 1, .ro, 0⟩, ⟨1, 7, .ro, 0⟩, ⟨8, 13, .ro, 0⟩, ⟨21, 1, .ro, 0⟩,
      ⟨32, 16, .ro, 0⟩]⟩
  | .rasSuspect => ⟨0x300400, 0x8, 128, 0x0, 1, false, [⟨0, 1, .ro, 0⟩, ⟨1, 7, .ro, 0⟩, ⟨8, 13, .ro, 0⟩, ⟨21, 1, .ro, 0⟩,
      ⟨32, 16, .ro, 0⟩, ⟨48, 16, .ro, 0⟩]⟩
  | .rasFldErr => ⟨0x301000, 0x8, 92, 0x0, 1, false, [⟨0, 16, .ro, 0⟩, ⟨16, 16, .ro, 0⟩, ⟨32, 16, .ro, 0⟩,
      ⟨48, 16, .ro, 0⟩]⟩
  | .rasLog => ⟨0x308000, 0x20, 256, 0x8, 4, false, [⟨0, 64, .ro, 0⟩]⟩
  | .pwrCfg => ⟨0x200000, 0x0, 1, 0x0, 1, false, [⟨0, 1, .rw, 0⟩, ⟨1, 3, .rw, 6⟩, ⟨4, 2, .rw, 0⟩]⟩
  | .pwrLendThreshold => ⟨0x200008, 0x0, 1, 0x0, 1, false, [⟨0, 16, .rw, 20⟩]⟩
  | .pwrEnvelope => ⟨0x200010, 0x0, 1, 0x0, 1, false, [⟨0, 14, .rwl, 11500⟩, ⟨16, 16, .ro, 420⟩]⟩
  | .pwrStat => ⟨0x200018, 0x0, 1, 0x0, 1, false, [⟨0, 16, .ro, 0⟩, ⟨16, 7, .ro, 0⟩, ⟨23, 7, .ro, 0⟩, ⟨32, 16, .ro, 0⟩,
      ⟨48, 16, .ro, 0⟩]⟩
  | .pwrEnergy => ⟨0x200020, 0x0, 1, 0x0, 1, false, [⟨0, 48, .ro, 0⟩, ⟨63, 1, .w1c, 0⟩]⟩
  | .pwrCntLend => ⟨0x200028, 0x0, 1, 0x0, 1, false, [⟨0, 48, .ro, 0⟩, ⟨63, 1, .w1c, 0⟩]⟩
  | .pwrFldReq => ⟨0x200800, 0x8, 92, 0x0, 1, false, [⟨0, 3, .rw, 0⟩, ⟨4, 3, .rw, 7⟩, ⟨8, 1, .rw, 0⟩, ⟨9, 3, .rw, 3⟩]⟩
  | .pwrFldStat => ⟨0x201000, 0x8, 92, 0x0, 1, false, [⟨0, 3, .ro, 7⟩, ⟨4, 3, .ro, 7⟩, ⟨7, 1, .ro, 0⟩, ⟨8, 1, .ro, 0⟩,
      ⟨9, 1, .ro, 0⟩, ⟨10, 1, .w1c, 0⟩, ⟨16, 8, .ro, 0⟩, ⟨24, 16, .ro, 0⟩, ⟨40, 16, .ro, 0⟩, ⟨56, 8, .ro, 0⟩]⟩
  | .pwrClampStatus => ⟨0x201800, 0x8, 92, 0x0, 1, false, [⟨0, 5, .w1c, 0⟩, ⟨8, 5, .ro, 0⟩, ⟨16, 16, .ro, 0⟩,
      ⟨32, 16, .ro, 0⟩]⟩
  | .pwrDom => ⟨0x202000, 0x8, 148, 0x0, 1, false, [⟨0, 2, .ro, 0⟩, ⟨2, 1, .rw, 0⟩, ⟨3, 1, .w1c, 0⟩, ⟨16, 16, .ro, 0⟩]⟩
  | .secCtrl => ⟨0x400000, 0x0, 1, 0x0, 1, false, [⟨0, 2, .rw, 0⟩, ⟨8, 1, .w1c, 0⟩]⟩
  | .secBootStat => ⟨0x400008, 0x0, 1, 0x0, 1, false, [⟨0, 4, .ro, 0⟩, ⟨4, 1, .ro, 0⟩, ⟨5, 1, .ro, 0⟩, ⟨6, 2, .ro, 0⟩,
      ⟨8, 8, .ro, 0⟩, ⟨16, 2, .ro, 0⟩, ⟨18, 1, .ro, 0⟩, ⟨32, 16, .ro, 0⟩, ⟨48, 16, .ro, 0⟩]⟩
  | .secReset => ⟨0x400010, 0x0, 1, 0x0, 1, false, [⟨0, 16, .wo, 0⟩, ⟨16, 1, .wo, 0⟩]⟩
  | .secUpdAddr => ⟨0x400018, 0x0, 1, 0x0, 1, false, [⟨8, 56, .rw, 0⟩]⟩
  | .secUpdCmd => ⟨0x400020, 0x0, 1, 0x0, 1, false, [⟨0, 2, .wo, 0⟩, ⟨2, 3, .wo, 0⟩]⟩
  | .secUpdStat => ⟨0x400028, 0x0, 1, 0x0, 1, false, [⟨0, 1, .ro, 0⟩, ⟨1, 1, .w1c, 0⟩, ⟨2, 1, .w1c, 0⟩, ⟨3, 4, .ro, 0⟩,
      ⟨8, 1, .ro, 0⟩, ⟨32, 32, .ro, 0⟩]⟩
  | .secNonce => ⟨0x400030, 0x0, 1, 0x0, 1, false, [⟨0, 64, .ro, 0⟩]⟩
  | .secImg => ⟨0x400040, 0x8, 6, 0x0, 1, false, [⟨0, 1, .ro, 0⟩, ⟨1, 1, .ro, 0⟩, ⟨2, 4, .ro, 0⟩, ⟨6, 8, .ro, 0⟩,
      ⟨32, 32, .ro, 0⟩]⟩
  | .otpStat => ⟨0x400100, 0x0, 1, 0x0, 1, false, [⟨0, 1, .ro, 0⟩, ⟨1, 5, .ro, 0⟩, ⟨6, 5, .ro, 0⟩, ⟨11, 2, .ro, 0⟩,
      ⟨13, 8, .ro, 0⟩, ⟨21, 8, .ro, 0⟩, ⟨29, 8, .ro, 0⟩]⟩
  | .otpLcCmd => ⟨0x400108, 0x0, 1, 0x0, 1, false, [⟨0, 2, .wo, 0⟩, ⟨2, 1, .wo, 0⟩, ⟨3, 1, .wo, 0⟩]⟩
  | .otpRdSel => ⟨0x400110, 0x0, 1, 0x0, 1, true, [⟨0, 8, .rw, 0⟩]⟩
  | .otpRdData => ⟨0x400118, 0x0, 1, 0x0, 1, false, [⟨0, 64, .ro, 0⟩]⟩
  | .otpDefect => ⟨0x400120, 0x0, 1, 0x0, 1, false, [⟨0, 12, .ro, 0⟩, ⟨16, 12, .ro, 0⟩, ⟨32, 16, .ro, 0⟩]⟩
  | .sloMode => ⟨0x4000C000, 0x0, 1, 0x0, 1, false, [⟨0, 2, .ro, 2⟩, ⟨2, 1, .ro, 0⟩, ⟨3, 1, .ro, 0⟩, ⟨4, 1, .ro, 0⟩,
      ⟨16, 12, .ro, 0⟩, ⟨32, 8, .ro, 0⟩]⟩
  | .sloPwrCfg => ⟨0x4000C008, 0x0, 1, 0x0, 1, false, [⟨0, 1, .rw, 1⟩, ⟨1, 1, .wo, 0⟩, ⟨2, 1, .wo, 0⟩]⟩
  | .sloKey => ⟨0x4000C010, 0x0, 1, 0x0, 1, false, [⟨0, 5, .ro, 0⟩, ⟨5, 1, .ro, 0⟩, ⟨6, 1, .ro, 1⟩, ⟨7, 1, .w1c, 0⟩]⟩
  | .sloKeyState => ⟨0x4000C018, 0x0, 1, 0x0, 1, false, [⟨0, 30, .ro, 0⟩]⟩
  | .sloChord => ⟨0x4000C020, 0x0, 1, 0x0, 1, false, [⟨0, 1, .ro, 1⟩, ⟨1, 1, .ro, 0⟩, ⟨2, 1, .w1c, 0⟩, ⟨16, 11, .ro, 0⟩,
      ⟨32, 16, .rw, 60⟩]⟩
  | .sloDispFrame => ⟨0x4000C040, 0x8, 4, 0x0, 1, false, [⟨0, 64, .rw, 0⟩]⟩
  | .sloDispCrc => ⟨0x4000C060, 0x0, 1, 0x0, 1, false, [⟨0, 16, .rw, 0⟩, ⟨16, 1, .wo, 0⟩, ⟨17, 1, .w1c, 0⟩,
      ⟨18, 1, .ro, 0⟩, ⟨19, 1, .ro, 0⟩, ⟨32, 16, .ro, 0⟩, ⟨48, 16, .ro, 0⟩]⟩
  | .sloDispBlink => ⟨0x4000C068, 0x0, 1, 0x0, 1, false, [⟨0, 16, .rw, 0⟩, ⟨16, 24, .rw, 0⟩, ⟨40, 1, .rw, 0⟩]⟩
  | .sloLcd => ⟨0x4000C070, 0x0, 1, 0x0, 1, false, [⟨0, 12, .ro, 3000⟩, ⟨12, 12, .ro, 0⟩, ⟨24, 1, .ro, 0⟩,
      ⟨25, 1, .ro, 0⟩, ⟨32, 8, .ro, 0⟩]⟩
  | .sloAlarm => ⟨0x4000C080, 0x0, 1, 0x0, 1, false, [⟨0, 5, .ro, 0⟩, ⟨8, 5, .w1c, 0⟩, ⟨16, 8, .ro, 0⟩]⟩
  | .sloAlarmCfg => ⟨0x4000C088, 0x0, 1, 0x0, 1, false, [⟨0, 8, .rw, 10⟩, ⟨8, 8, .rw, 70⟩]⟩
  | .sloRing => ⟨0x4000C090, 0x0, 1, 0x0, 1, false, [⟨0, 6, .ro, 0⟩, ⟨6, 7, .ro, 0⟩, ⟨13, 8, .ro, 0⟩, ⟨21, 1, .wo, 0⟩]⟩
  | .sloEvtMask => ⟨0x4000C098, 0x0, 1, 0x0, 1, false, [⟨0, 17, .rw, 77688⟩]⟩
  | .sloRtc => ⟨0x4000C0A0, 0x0, 1, 0x0, 1, false, [⟨0, 32, .rw, 0⟩, ⟨32, 1, .ro, 0⟩]⟩
  | .sloSmb => ⟨0x4000C0A8, 0x0, 1, 0x0, 1, false, [⟨0, 7, .ro, 0⟩, ⟨7, 1, .rw, 0⟩, ⟨8, 1, .ro, 0⟩, ⟨16, 16, .ro, 0⟩]⟩
  | .sloPin => ⟨0x4000C0B0, 0x0, 1, 0x0, 1, false, [⟨0, 1, .ro, 0⟩, ⟨1, 3, .ro, 0⟩, ⟨8, 10, .ro, 0⟩]⟩
  | .sloHubAddr => ⟨0x4000C0C0, 0x0, 1, 0x0, 1, false, [⟨0, 26, .rw, 0⟩, ⟨32, 1, .wo, 0⟩, ⟨33, 1, .wo, 0⟩]⟩
  | .sloHubData => ⟨0x4000C0C8, 0x0, 1, 0x0, 1, false, [⟨0, 64, .rw, 0⟩]⟩
  | .sloHubStat => ⟨0x4000C0D0, 0x0, 1, 0x0, 1, false, [⟨0, 1, .ro, 0⟩, ⟨1, 2, .ro, 0⟩]⟩
  | .sloFbank => ⟨0x4000C0E0, 0x0, 1, 0x0, 1, false, [⟨0, 4, .rw, 0⟩, ⟨4, 1, .rw, 1⟩]⟩
  | .fshCtrl => ⟨0x4000C800, 0x0, 1, 0x0, 1, false, [⟨0, 3, .wo, 0⟩, ⟨3, 1, .wo, 0⟩, ⟨4, 1, .wo, 0⟩, ⟨5, 1, .rw, 0⟩,
      ⟨16, 16, .wo, 0⟩]⟩
  | .fshAddr => ⟨0x4000C808, 0x0, 1, 0x0, 1, false, [⟨0, 19, .rw, 0⟩]⟩
  | .fshSrc => ⟨0x4000C810, 0x0, 1, 0x0, 1, false, [⟨0, 14, .rw, 0⟩, ⟨16, 9, .rw, 0⟩]⟩
  | .fshStat => ⟨0x4000C818, 0x0, 1, 0x0, 1, false, [⟨0, 1, .ro, 0⟩, ⟨1, 1, .ro, 0⟩, ⟨2, 3, .ro, 0⟩, ⟨5, 1, .ro, 0⟩,
      ⟨6, 1, .w1c, 0⟩, ⟨7, 1, .w1c, 0⟩, ⟨8, 4, .ro, 0⟩, ⟨12, 1, .ro, 0⟩, ⟨13, 1, .ro, 0⟩, ⟨14, 1, .ro, 0⟩,
      ⟨15, 1, .ro, 0⟩, ⟨16, 1, .ro, 0⟩, ⟨18, 6, .ro, 0⟩, ⟨24, 4, .ro, 0⟩, ⟨32, 16, .ro, 0⟩]⟩
  | .fshWp => ⟨0x4000C820, 0x8, 2, 0x0, 1, false, [⟨0, 64, .w1s, 0⟩]⟩
  | .fshWpClr => ⟨0x4000C830, 0x8, 2, 0x0, 1, false, [⟨0, 64, .wo, 0⟩]⟩
  | .fshNvlock => ⟨0x4000C840, 0x8, 2, 0x0, 1, false, [⟨0, 64, .ro, 0⟩]⟩
  | .fshPassword => ⟨0x4000C850, 0x0, 1, 0x0, 1, false, [⟨0, 64, .wo, 0⟩]⟩
  | .fshPageSel => ⟨0x4000C858, 0x0, 1, 0x0, 1, false, [⟨0, 11, .rw, 0⟩]⟩
  | .fshPageState => ⟨0x4000C860, 0x0, 1, 0x0, 1, false, [⟨0, 2, .ro, 0⟩, ⟨2, 5, .ro, 0⟩, ⟨8, 2, .ro, 0⟩]⟩
  | .fshInfoSel => ⟨0x4000C868, 0x0, 1, 0x0, 1, false, [⟨0, 6, .rw, 0⟩]⟩
  | .fshInfoData => ⟨0x4000C870, 0x0, 1, 0x0, 1, false, [⟨0, 64, .ro, 0⟩]⟩

def Reg.all0 : List Reg :=
  [.hubRsvdWrite, .hubLastWriter, .hubCntCtrl, .fldUnitId, .fldUnitHealth, .fldPmap, .fldId, .fldMapRows,
   .fldMapStatus, .fldXlate, .fldColskip, .tilSel, .seqStat, .seqPc, .seqTpc, .seqRpt, .seqFaultInfo, .seqTstore,
   .seqHwin, .seqCnt, .fldBrStat, .fldBrErr, .hubBrTrunk, .dnsStat]
def Reg.all1 : List Reg :=
  [.dnsErr, .dnsCntPass, .dnsCntStream, .hubTblSel, .hubTblBaseA, .hubTblBaseB, .hubTblGeom, .hubTblCtrl,
   .hubTblState, .hubEpochFlip, .hubEpochStatus, .hubEpochOldest, .hubEpochStamp, .hubEpochCopyRate, .hubSpill,
   .fldEpochDrain, .hbmStat, .hbmErr, .hbmCntRd, .hbmCntWr, .hbmScrub, .fldBarSel, .fldBar, .fldCellSel]
def Reg.all2 : List Reg :=
  [.fldCell, .fldCellAllot, .fldDlWindow, .fldDlStat, .fldDlCtrl, .fldDlSnap, .fldDlSnapTime, .fldDlSnapTile,
   .fldSyncErr, .fldSyncInject, .hubWbar, .hubWbarErr, .hubTenCtrl, .hubTenCfg, .hubTenFields0, .hubTenFields1,
   .hubTenStat, .hubTenImg, .hubWinSel, .hubWinBase, .hubWinLimit, .hubWinPerm, .hubWinEpoch, .hubWinDrain]
def Reg.all3 : List Reg :=
  [.hubWinCtrl, .prtLink, .prtCfg, .prtStat, .prtRefuse, .prtErr, .prtFar, .prtRqCfg, .prtRsCfg, .prtRingCtrl,
   .prtRingStat, .tchUnit, .tchStat, .tchRap, .tchExp, .tchLinkCtrl, .tchLinkStat, .tchLinkErr, .tchLinkPeer,
   .tchLinkCnt, .tchLinkInject, .rasCtrl, .rasHard, .rasLogTail]
def Reg.all4 : List Reg :=
  [.rasInject, .rasWitErr, .rasWitSamples, .rasFenceCmd, .rasFenceStat, .rasStCmd, .rasStStat, .rasStFail0,
   .rasStFail1, .rasStRun0, .rasStRun1, .rasWitRate, .rasFencePend, .rasSuspect, .rasFldErr, .rasLog, .pwrCfg,
   .pwrLendThreshold, .pwrEnvelope, .pwrStat, .pwrEnergy, .pwrCntLend, .pwrFldReq, .pwrFldStat]
def Reg.all5 : List Reg :=
  [.pwrClampStatus, .pwrDom, .secCtrl, .secBootStat, .secReset, .secUpdAddr, .secUpdCmd, .secUpdStat, .secNonce,
   .secImg, .otpStat, .otpLcCmd, .otpRdSel, .otpRdData, .otpDefect, .sloMode, .sloPwrCfg, .sloKey, .sloKeyState,
   .sloChord, .sloDispFrame, .sloDispCrc, .sloDispBlink, .sloLcd]
def Reg.all6 : List Reg :=
  [.sloAlarm, .sloAlarmCfg, .sloRing, .sloEvtMask, .sloRtc, .sloSmb, .sloPin, .sloHubAddr, .sloHubData,
   .sloHubStat, .sloFbank, .fshCtrl, .fshAddr, .fshSrc, .fshStat, .fshWp, .fshWpClr, .fshNvlock, .fshPassword,
   .fshPageSel, .fshPageState, .fshInfoSel, .fshInfoData]

/-- Every register, in a fixed order. -/
def Reg.all : List Reg := Reg.all0 ++ Reg.all1 ++ Reg.all2 ++ Reg.all3 ++ Reg.all4 ++ Reg.all5 ++ Reg.all6

/-- A named field of a register. -/
structure Fld where
  reg : Reg
  lsb : Nat
  width : Nat
  deriving DecidableEq, Repr

namespace F

abbrev hubRsvdWrite_LAST_OFFSET : Fld := ⟨.hubRsvdWrite, 0, 26⟩
abbrev hubRsvdWrite_LAST_SRC : Fld := ⟨.hubRsvdWrite, 32, 3⟩
abbrev hubRsvdWrite_CLEAR : Fld := ⟨.hubRsvdWrite, 35, 1⟩
abbrev hubRsvdWrite_LOCKED : Fld := ⟨.hubRsvdWrite, 36, 1⟩
abbrev hubRsvdWrite_COUNT : Fld := ⟨.hubRsvdWrite, 48, 16⟩
abbrev hubLastWriter_OFFSET : Fld := ⟨.hubLastWriter, 0, 26⟩
abbrev hubLastWriter_WINNER : Fld := ⟨.hubLastWriter, 26, 3⟩
abbrev hubLastWriter_OUTCOME : Fld := ⟨.hubLastWriter, 29, 3⟩
abbrev hubLastWriter_SAME_CYCLE : Fld := ⟨.hubLastWriter, 32, 3⟩
abbrev hubLastWriter_CLEAR : Fld := ⟨.hubLastWriter, 35, 1⟩
abbrev hubLastWriter_CONFLICTS : Fld := ⟨.hubLastWriter, 48, 16⟩
abbrev hubCntCtrl_FREEZE : Fld := ⟨.hubCntCtrl, 0, 1⟩
abbrev hubCntCtrl_ZERO : Fld := ⟨.hubCntCtrl, 1, 1⟩
abbrev fldUnitId_STEP_LETTER : Fld := ⟨.fldUnitId, 0, 8⟩
abbrev fldUnitId_STEP_DIGIT : Fld := ⟨.fldUnitId, 8, 8⟩
abbrev fldUnitId_PART : Fld := ⟨.fldUnitId, 16, 16⟩
abbrev fldUnitId_WAFER_SERIAL : Fld := ⟨.fldUnitId, 32, 32⟩
abbrev fldUnitHealth_STATE : Fld := ⟨.fldUnitHealth, 0, 2⟩
abbrev fldUnitHealth_SPARE_FIELDS : Fld := ⟨.fldUnitHealth, 2, 3⟩
abbrev fldUnitHealth_OFFLINE : Fld := ⟨.fldUnitHealth, 5, 7⟩
abbrev fldUnitHealth_STORE_LOW : Fld := ⟨.fldUnitHealth, 12, 1⟩
abbrev fldUnitHealth_STORE_FULL : Fld := ⟨.fldUnitHealth, 13, 1⟩
abbrev fldUnitHealth_RETIRED : Fld := ⟨.fldUnitHealth, 16, 16⟩
abbrev fldUnitHealth_FENCED : Fld := ⟨.fldUnitHealth, 32, 16⟩
abbrev fldUnitHealth_STATE_EVT : Fld := ⟨.fldUnitHealth, 48, 1⟩
abbrev fldPmap_LFIELD : Fld := ⟨.fldPmap, 0, 7⟩
abbrev fldPmap_ROLE : Fld := ⟨.fldPmap, 8, 2⟩
abbrev fldPmap_HOME_STACK : Fld := ⟨.fldPmap, 12, 4⟩
abbrev fldId_LFIELD : Fld := ⟨.fldId, 0, 7⟩
abbrev fldId_OFFLINE : Fld := ⟨.fldId, 7, 1⟩
abbrev fldId_PFIELD : Fld := ⟨.fldId, 8, 7⟩
abbrev fldId_PROW : Fld := ⟨.fldId, 16, 3⟩
abbrev fldId_PCOL : Fld := ⟨.fldId, 20, 4⟩
abbrev fldId_HOME_STACK : Fld := ⟨.fldId, 24, 4⟩
abbrev fldId_MAP_GEN : Fld := ⟨.fldId, 32, 16⟩
abbrev fldMapRows_SKIP_ROW0 : Fld := ⟨.fldMapRows, 0, 7⟩
abbrev fldMapRows_FORCED0 : Fld := ⟨.fldMapRows, 7, 1⟩
abbrev fldMapRows_SKIP_ROW1 : Fld := ⟨.fldMapRows, 8, 7⟩
abbrev fldMapRows_FORCED1 : Fld := ⟨.fldMapRows, 15, 1⟩
abbrev fldMapRows_FEED_PROW : Fld := ⟨.fldMapRows, 16, 7⟩
abbrev fldMapRows_DRAIN_PROW : Fld := ⟨.fldMapRows, 24, 7⟩
abbrev fldMapStatus_BAD_TILES : Fld := ⟨.fldMapStatus, 0, 13⟩
abbrev fldMapStatus_ROW_SPARES_FREE : Fld := ⟨.fldMapStatus, 16, 2⟩
abbrev fldMapStatus_ROWS_FULL : Fld := ⟨.fldMapStatus, 18, 7⟩
abbrev fldMapStatus_AT_RISK : Fld := ⟨.fldMapStatus, 25, 1⟩
abbrev fldXlate_LTILE : Fld := ⟨.fldXlate, 0, 13⟩
abbrev fldXlate_PX : Fld := ⟨.fldXlate, 16, 7⟩
abbrev fldXlate_PY : Fld := ⟨.fldXlate, 24, 7⟩
abbrev fldXlate_ERR : Fld := ⟨.fldXlate, 31, 1⟩
abbrev fldXlate_PTILE : Fld := ⟨.fldXlate, 32, 13⟩
abbrev fldXlate_MAP_GEN : Fld := ⟨.fldXlate, 48, 16⟩
abbrev fldColskip_SKIP_COL0 : Fld := ⟨.fldColskip, 0, 7⟩
abbrev fldColskip_BAD0 : Fld := ⟨.fldColskip, 7, 1⟩
abbrev fldColskip_SKIP_COL1 : Fld := ⟨.fldColskip, 8, 7⟩
abbrev fldColskip_BAD1 : Fld := ⟨.fldColskip, 15, 1⟩
abbrev fldColskip_LROW : Fld := ⟨.fldColskip, 16, 7⟩
abbrev fldColskip_SKIPPED : Fld := ⟨.fldColskip, 23, 1⟩
abbrev tilSel_LTILE : Fld := ⟨.tilSel, 0, 13⟩
abbrev seqStat_Z : Fld := ⟨.seqStat, 0, 1⟩
abbrev seqStat_N : Fld := ⟨.seqStat, 1, 1⟩
abbrev seqStat_C : Fld := ⟨.seqStat, 2, 1⟩
abbrev seqStat_V : Fld := ⟨.seqStat, 3, 1⟩
abbrev seqStat_DECIMAL_FAULT : Fld := ⟨.seqStat, 4, 1⟩
abbrev seqStat_MODE : Fld := ⟨.seqStat, 8, 1⟩
abbrev seqStat_REPEAT : Fld := ⟨.seqStat, 9, 1⟩
abbrev seqStat_HALTED : Fld := ⟨.seqStat, 10, 1⟩
abbrev seqStat_TENANT : Fld := ⟨.seqStat, 12, 4⟩
abbrev seqPc_PC : Fld := ⟨.seqPc, 0, 24⟩
abbrev seqTpc_PC : Fld := ⟨.seqTpc, 0, 24⟩
abbrev seqRpt_RPT : Fld := ⟨.seqRpt, 0, 32⟩
abbrev seqFaultInfo_CAUSE : Fld := ⟨.seqFaultInfo, 0, 8⟩
abbrev seqFaultInfo_MODE : Fld := ⟨.seqFaultInfo, 8, 1⟩
abbrev seqFaultInfo_GLOBAL : Fld := ⟨.seqFaultInfo, 9, 1⟩
abbrev seqFaultInfo_WRITE : Fld := ⟨.seqFaultInfo, 10, 1⟩
abbrev seqFaultInfo_ADDR : Fld := ⟨.seqFaultInfo, 16, 48⟩
abbrev seqTstore_BASE : Fld := ⟨.seqTstore, 0, 6⟩
abbrev seqTstore_SIZE : Fld := ⟨.seqTstore, 8, 7⟩
abbrev seqHwin_PAGE : Fld := ⟨.seqHwin, 0, 24⟩
abbrev seqHwin_VALID : Fld := ⟨.seqHwin, 24, 1⟩
abbrev seqCnt_COUNT : Fld := ⟨.seqCnt, 0, 48⟩
abbrev seqCnt_OVF : Fld := ⟨.seqCnt, 63, 1⟩
abbrev fldBrStat_LOADED : Fld := ⟨.fldBrStat, 0, 1⟩
abbrev fldBrStat_LANE_GEN : Fld := ⟨.fldBrStat, 16, 16⟩
abbrev fldBrStat_MAX_HOPS : Fld := ⟨.fldBrStat, 32, 3⟩
abbrev fldBrErr_CORR : Fld := ⟨.fldBrErr, 0, 16⟩
abbrev fldBrErr_UNCORR : Fld := ⟨.fldBrErr, 16, 16⟩
abbrev fldBrErr_TIMEOUT : Fld := ⟨.fldBrErr, 32, 16⟩
abbrev fldBrErr_CLEAR : Fld := ⟨.fldBrErr, 48, 1⟩
abbrev hubBrTrunk_TWIN : Fld := ⟨.hubBrTrunk, 0, 4⟩
abbrev hubBrTrunk_ABSENT : Fld := ⟨.hubBrTrunk, 4, 4⟩
abbrev hubBrTrunk_CORR : Fld := ⟨.hubBrTrunk, 16, 16⟩
abbrev hubBrTrunk_UNCORR : Fld := ⟨.hubBrTrunk, 32, 16⟩
abbrev hubBrTrunk_CLEAR : Fld := ⟨.hubBrTrunk, 48, 1⟩
abbrev dnsStat_QUEUED : Fld := ⟨.dnsStat, 0, 3⟩
abbrev dnsStat_STREAMING : Fld := ⟨.dnsStat, 3, 1⟩
abbrev dnsStat_CONVERTING : Fld := ⟨.dnsStat, 4, 1⟩
abbrev dnsStat_CONV_BANK : Fld := ⟨.dnsStat, 5, 1⟩
abbrev dnsStat_FENCE_WAIT : Fld := ⟨.dnsStat, 6, 1⟩
abbrev dnsStat_LOAD_WAIT : Fld := ⟨.dnsStat, 7, 1⟩
abbrev dnsStat_FEED_WAIT : Fld := ⟨.dnsStat, 8, 1⟩
abbrev dnsStat_DRAIN_WAIT : Fld := ⟨.dnsStat, 9, 1⟩
abbrev dnsStat_FROZEN : Fld := ⟨.dnsStat, 10, 1⟩
abbrev dnsStat_WLOAD_BUSY : Fld := ⟨.dnsStat, 11, 1⟩
abbrev dnsStat_TENANT : Fld := ⟨.dnsStat, 12, 4⟩
abbrev dnsStat_VEC : Fld := ⟨.dnsStat, 16, 10⟩
abbrev dnsStat_RSLOT : Fld := ⟨.dnsStat, 32, 32⟩
abbrev dnsErr_NONFINITE : Fld := ⟨.dnsErr, 0, 1⟩
abbrev dnsErr_RANGE : Fld := ⟨.dnsErr, 1, 1⟩
abbrev dnsErr_ACC_SAT : Fld := ⟨.dnsErr, 2, 1⟩
abbrev dnsErr_OUT_SAT : Fld := ⟨.dnsErr, 3, 1⟩
abbrev dnsErr_STALE : Fld := ⟨.dnsErr, 4, 1⟩
abbrev dnsErr_IDLE_LANE : Fld := ⟨.dnsErr, 5, 1⟩
abbrev dnsErr_POISON : Fld := ⟨.dnsErr, 6, 1⟩
abbrev dnsErr_CORR : Fld := ⟨.dnsErr, 16, 16⟩
abbrev dnsErr_UNCORR : Fld := ⟨.dnsErr, 32, 16⟩
abbrev dnsErr_CLEAR : Fld := ⟨.dnsErr, 48, 1⟩
abbrev dnsCntPass_COUNT : Fld := ⟨.dnsCntPass, 0, 48⟩
abbrev dnsCntPass_OVF : Fld := ⟨.dnsCntPass, 63, 1⟩
abbrev dnsCntStream_COUNT : Fld := ⟨.dnsCntStream, 0, 48⟩
abbrev dnsCntStream_OVF : Fld := ⟨.dnsCntStream, 63, 1⟩
abbrev hubTblSel_TENANT : Fld := ⟨.hubTblSel, 0, 4⟩
abbrev hubTblSel_TABLE : Fld := ⟨.hubTblSel, 8, 8⟩
abbrev hubTblBaseA_BASE : Fld := ⟨.hubTblBaseA, 0, 44⟩
abbrev hubTblBaseA_LOC : Fld := ⟨.hubTblBaseA, 44, 2⟩
abbrev hubTblBaseA_UNIT : Fld := ⟨.hubTblBaseA, 48, 8⟩
abbrev hubTblBaseB_BASE : Fld := ⟨.hubTblBaseB, 0, 44⟩
abbrev hubTblBaseB_LOC : Fld := ⟨.hubTblBaseB, 44, 2⟩
abbrev hubTblBaseB_UNIT : Fld := ⟨.hubTblBaseB, 48, 8⟩
abbrev hubTblGeom_ROWSZ8 : Fld := ⟨.hubTblGeom, 0, 9⟩
abbrev hubTblGeom_ROWS : Fld := ⟨.hubTblGeom, 32, 32⟩
abbrev hubTblCtrl_REGISTER : Fld := ⟨.hubTblCtrl, 0, 1⟩
abbrev hubTblCtrl_RETIRE : Fld := ⟨.hubTblCtrl, 1, 1⟩
abbrev hubTblCtrl_READY_A : Fld := ⟨.hubTblCtrl, 2, 1⟩
abbrev hubTblCtrl_READY_B : Fld := ⟨.hubTblCtrl, 3, 1⟩
abbrev hubTblCtrl_UNREADY_A : Fld := ⟨.hubTblCtrl, 4, 1⟩
abbrev hubTblCtrl_UNREADY_B : Fld := ⟨.hubTblCtrl, 5, 1⟩
abbrev hubTblCtrl_COPY_FWD : Fld := ⟨.hubTblCtrl, 6, 1⟩
abbrev hubTblState_STATE_A : Fld := ⟨.hubTblState, 0, 3⟩
abbrev hubTblState_STATE_B : Fld := ⟨.hubTblState, 3, 3⟩
abbrev hubTblState_REGISTERED : Fld := ⟨.hubTblState, 6, 1⟩
abbrev hubTblState_RETIRING : Fld := ⟨.hubTblState, 7, 1⟩
abbrev hubTblState_REFUSED : Fld := ⟨.hubTblState, 8, 1⟩
abbrev hubTblState_FLIP_EPOCH : Fld := ⟨.hubTblState, 16, 32⟩
abbrev hubTblState_DENIED : Fld := ⟨.hubTblState, 48, 16⟩
abbrev hubEpochFlip_GO : Fld := ⟨.hubEpochFlip, 0, 1⟩
abbrev hubEpochStatus_EPOCH : Fld := ⟨.hubEpochStatus, 0, 32⟩
abbrev hubEpochStatus_RESULT : Fld := ⟨.hubEpochStatus, 32, 3⟩
abbrev hubEpochStatus_PAUSED : Fld := ⟨.hubEpochStatus, 35, 1⟩
abbrev hubEpochStatus_IN_FLIGHT : Fld := ⟨.hubEpochStatus, 36, 4⟩
abbrev hubEpochStatus_DRAIN_EVT : Fld := ⟨.hubEpochStatus, 40, 1⟩
abbrev hubEpochStatus_DRAINING : Fld := ⟨.hubEpochStatus, 48, 9⟩
abbrev hubEpochOldest_OLDEST : Fld := ⟨.hubEpochOldest, 0, 32⟩
abbrev hubEpochOldest_EMPTY : Fld := ⟨.hubEpochOldest, 32, 1⟩
abbrev hubEpochStamp_T : Fld := ⟨.hubEpochStamp, 0, 64⟩
abbrev hubEpochCopyRate_GBPS : Fld := ⟨.hubEpochCopyRate, 0, 8⟩
abbrev hubSpill_COUNT : Fld := ⟨.hubSpill, 0, 48⟩
abbrev hubSpill_OVF : Fld := ⟨.hubSpill, 63, 1⟩
abbrev fldEpochDrain_OLDEST : Fld := ⟨.fldEpochDrain, 0, 32⟩
abbrev fldEpochDrain_INFLIGHT : Fld := ⟨.fldEpochDrain, 32, 16⟩
abbrev fldEpochDrain_EMPTY : Fld := ⟨.fldEpochDrain, 48, 1⟩
abbrev hbmStat_TRAINED : Fld := ⟨.hbmStat, 0, 1⟩
abbrev hbmStat_OFFLINE : Fld := ⟨.hbmStat, 1, 1⟩
abbrev hbmStat_SCRUB_BUSY : Fld := ⟨.hbmStat, 2, 1⟩
abbrev hbmStat_TEMP : Fld := ⟨.hbmStat, 8, 8⟩
abbrev hbmErr_CORR : Fld := ⟨.hbmErr, 0, 16⟩
abbrev hbmErr_UNCORR : Fld := ⟨.hbmErr, 16, 16⟩
abbrev hbmErr_SCRUB_FIX : Fld := ⟨.hbmErr, 32, 16⟩
abbrev hbmErr_CLEAR : Fld := ⟨.hbmErr, 48, 1⟩
abbrev hbmCntRd_COUNT : Fld := ⟨.hbmCntRd, 0, 48⟩
abbrev hbmCntRd_OVF : Fld := ⟨.hbmCntRd, 63, 1⟩
abbrev hbmCntWr_COUNT : Fld := ⟨.hbmCntWr, 0, 48⟩
abbrev hbmCntWr_OVF : Fld := ⟨.hbmCntWr, 63, 1⟩
abbrev hbmScrub_PERIOD : Fld := ⟨.hbmScrub, 0, 8⟩
abbrev hbmScrub_NOW : Fld := ⟨.hbmScrub, 8, 1⟩
abbrev fldBarSel_GROUP : Fld := ⟨.fldBarSel, 0, 8⟩
abbrev fldBar_EXPECT : Fld := ⟨.fldBar, 0, 13⟩
abbrev fldBar_CNT : Fld := ⟨.fldBar, 16, 13⟩
abbrev fldBar_SENSE : Fld := ⟨.fldBar, 32, 1⟩
abbrev fldCellSel_CELL : Fld := ⟨.fldCellSel, 0, 12⟩
abbrev fldCell_SET : Fld := ⟨.fldCell, 0, 1⟩
abbrev fldCell_BOUND : Fld := ⟨.fldCell, 1, 1⟩
abbrev fldCell_SIG : Fld := ⟨.fldCell, 2, 5⟩
abbrev fldCell_LTILE : Fld := ⟨.fldCell, 8, 13⟩
abbrev fldCell_OWNER : Fld := ⟨.fldCell, 24, 4⟩
abbrev fldCell_POISON : Fld := ⟨.fldCell, 28, 1⟩
abbrev fldCell_WAITERS : Fld := ⟨.fldCell, 32, 13⟩
abbrev fldCellAllot_BASE : Fld := ⟨.fldCellAllot, 0, 6⟩
abbrev fldCellAllot_COUNT : Fld := ⟨.fldCellAllot, 8, 7⟩
abbrev fldDlWindow_CYCLES : Fld := ⟨.fldDlWindow, 0, 32⟩
abbrev fldDlStat_COUNTING : Fld := ⟨.fldDlStat, 0, 1⟩
abbrev fldDlStat_FROZEN : Fld := ⟨.fldDlStat, 1, 1⟩
abbrev fldDlStat_FIRED : Fld := ⟨.fldDlStat, 2, 1⟩
abbrev fldDlStat_REFUSED : Fld := ⟨.fldDlStat, 3, 1⟩
abbrev fldDlStat_TENANT : Fld := ⟨.fldDlStat, 4, 4⟩
abbrev fldDlStat_FIRES : Fld := ⟨.fldDlStat, 16, 16⟩
abbrev fldDlStat_COUNT : Fld := ⟨.fldDlStat, 32, 32⟩
abbrev fldDlCtrl_ACTION : Fld := ⟨.fldDlCtrl, 0, 2⟩
abbrev fldDlSnap_TENANT : Fld := ⟨.fldDlSnap, 0, 4⟩
abbrev fldDlSnap_WAIT_TILES : Fld := ⟨.fldDlSnap, 4, 13⟩
abbrev fldDlSnap_QSTALL_TILES : Fld := ⟨.fldDlSnap, 17, 13⟩
abbrev fldDlSnap_IDLE_ARMED : Fld := ⟨.fldDlSnap, 30, 13⟩
abbrev fldDlSnap_SEQ_WAIT : Fld := ⟨.fldDlSnap, 43, 3⟩
abbrev fldDlSnap_DNS_WAIT : Fld := ⟨.fldDlSnap, 46, 2⟩
abbrev fldDlSnapTime_T : Fld := ⟨.fldDlSnapTime, 0, 64⟩
abbrev fldDlSnapTile_LTILE : Fld := ⟨.fldDlSnapTile, 0, 13⟩
abbrev fldDlSnapTile_STATE : Fld := ⟨.fldDlSnapTile, 13, 3⟩
abbrev fldDlSnapTile_PC : Fld := ⟨.fldDlSnapTile, 16, 16⟩
abbrev fldDlSnapTile_TARGET : Fld := ⟨.fldDlSnapTile, 32, 12⟩
abbrev fldDlSnapTile_SLOT : Fld := ⟨.fldDlSnapTile, 44, 3⟩
abbrev fldSyncErr_CELL_CORR : Fld := ⟨.fldSyncErr, 0, 16⟩
abbrev fldSyncErr_CELL_UNCORR : Fld := ⟨.fldSyncErr, 16, 16⟩
abbrev fldSyncErr_TREE_PAR : Fld := ⟨.fldSyncErr, 32, 16⟩
abbrev fldSyncErr_OVERRUN : Fld := ⟨.fldSyncErr, 48, 1⟩
abbrev fldSyncErr_OVR_GROUP : Fld := ⟨.fldSyncErr, 49, 8⟩
abbrev fldSyncErr_CLEAR : Fld := ⟨.fldSyncErr, 57, 1⟩
abbrev fldSyncInject_DL_FIRE : Fld := ⟨.fldSyncInject, 0, 1⟩
abbrev fldSyncInject_CELL_CORR : Fld := ⟨.fldSyncInject, 1, 1⟩
abbrev fldSyncInject_CELL_UNCORR : Fld := ⟨.fldSyncInject, 2, 1⟩
abbrev fldSyncInject_TREE_PARITY : Fld := ⟨.fldSyncInject, 3, 1⟩
abbrev hubWbar_EXPECT : Fld := ⟨.hubWbar, 0, 19⟩
abbrev hubWbar_VALID : Fld := ⟨.hubWbar, 19, 1⟩
abbrev hubWbar_OWNER : Fld := ⟨.hubWbar, 20, 4⟩
abbrev hubWbar_SENSE : Fld := ⟨.hubWbar, 24, 1⟩
abbrev hubWbar_CNT : Fld := ⟨.hubWbar, 32, 19⟩
abbrev hubWbarErr_TREE_PAR : Fld := ⟨.hubWbarErr, 0, 16⟩
abbrev hubWbarErr_OVERRUN : Fld := ⟨.hubWbarErr, 16, 1⟩
abbrev hubWbarErr_OVR_GROUP : Fld := ⟨.hubWbarErr, 17, 6⟩
abbrev hubWbarErr_CLEAR : Fld := ⟨.hubWbarErr, 23, 1⟩
abbrev hubWbarErr_INJECT : Fld := ⟨.hubWbarErr, 24, 1⟩
abbrev hubTenCtrl_CLAIM : Fld := ⟨.hubTenCtrl, 0, 1⟩
abbrev hubTenCtrl_ACTIVATE : Fld := ⟨.hubTenCtrl, 1, 1⟩
abbrev hubTenCtrl_STOP : Fld := ⟨.hubTenCtrl, 2, 1⟩
abbrev hubTenCtrl_REASSIGN : Fld := ⟨.hubTenCtrl, 3, 1⟩
abbrev hubTenCtrl_OWNER_ARG : Fld := ⟨.hubTenCtrl, 4, 3⟩
abbrev hubTenCfg_CELL_BLOCKS : Fld := ⟨.hubTenCfg, 0, 7⟩
abbrev hubTenCfg_DEC_PROP : Fld := ⟨.hubTenCfg, 7, 1⟩
abbrev hubTenCfg_WBAR : Fld := ⟨.hubTenCfg, 8, 7⟩
abbrev hubTenCfg_SLICE : Fld := ⟨.hubTenCfg, 16, 8⟩
abbrev hubTenFields0_MASK_LO : Fld := ⟨.hubTenFields0, 0, 64⟩
abbrev hubTenFields1_MASK_HI : Fld := ⟨.hubTenFields1, 0, 28⟩
abbrev hubTenFields1_MUSTBE0 : Fld := ⟨.hubTenFields1, 28, 36⟩
abbrev hubTenStat_STATE : Fld := ⟨.hubTenStat, 0, 2⟩
abbrev hubTenStat_OWNER : Fld := ⟨.hubTenStat, 2, 2⟩
abbrev hubTenStat_OWNED : Fld := ⟨.hubTenStat, 4, 1⟩
abbrev hubTenStat_REFUSED : Fld := ⟨.hubTenStat, 5, 1⟩
abbrev hubTenStat_REFUSE_WHY : Fld := ⟨.hubTenStat, 6, 3⟩
abbrev hubTenStat_RESIDENT : Fld := ⟨.hubTenStat, 16, 7⟩
abbrev hubTenStat_SLICED : Fld := ⟨.hubTenStat, 24, 7⟩
abbrev hubTenImg_ADDR : Fld := ⟨.hubTenImg, 0, 40⟩
abbrev hubWinSel_TENANT : Fld := ⟨.hubWinSel, 0, 4⟩
abbrev hubWinSel_WINDOW : Fld := ⟨.hubWinSel, 8, 5⟩
abbrev hubWinBase_PAGE : Fld := ⟨.hubWinBase, 12, 36⟩
abbrev hubWinLimit_PAGE : Fld := ⟨.hubWinLimit, 12, 36⟩
abbrev hubWinPerm_VALID : Fld := ⟨.hubWinPerm, 0, 1⟩
abbrev hubWinPerm_R : Fld := ⟨.hubWinPerm, 1, 1⟩
abbrev hubWinPerm_W : Fld := ⟨.hubWinPerm, 2, 1⟩
abbrev hubWinPerm_A : Fld := ⟨.hubWinPerm, 3, 1⟩
abbrev hubWinPerm_HOST_R : Fld := ⟨.hubWinPerm, 4, 1⟩
abbrev hubWinPerm_HOST_W : Fld := ⟨.hubWinPerm, 5, 1⟩
abbrev hubWinPerm_COMMIT : Fld := ⟨.hubWinPerm, 8, 1⟩
abbrev hubWinEpoch_EPOCH : Fld := ⟨.hubWinEpoch, 0, 32⟩
abbrev hubWinDrain_DRAIN : Fld := ⟨.hubWinDrain, 0, 1⟩
abbrev hubWinDrain_HOLDING : Fld := ⟨.hubWinDrain, 1, 1⟩
abbrev hubWinDrain_REFUSED : Fld := ⟨.hubWinDrain, 2, 1⟩
abbrev hubWinCtrl_FENCED : Fld := ⟨.hubWinCtrl, 0, 1⟩
abbrev prtLink_UP : Fld := ⟨.prtLink, 0, 1⟩
abbrev prtLink_FLIT : Fld := ⟨.prtLink, 1, 1⟩
abbrev prtLink_CXL : Fld := ⟨.prtLink, 2, 1⟩
abbrev prtLink_HDM : Fld := ⟨.prtLink, 3, 1⟩
abbrev prtLink_RATE : Fld := ⟨.prtLink, 4, 3⟩
abbrev prtLink_WIDTH : Fld := ⟨.prtLink, 7, 5⟩
abbrev prtLink_PORT : Fld := ⟨.prtLink, 12, 2⟩
abbrev prtLink_DOWNS : Fld := ⟨.prtLink, 16, 16⟩
abbrev prtCfg_CXL_EN : Fld := ⟨.prtCfg, 0, 1⟩
abbrev prtCfg_EVT_VEC : Fld := ⟨.prtCfg, 1, 6⟩
abbrev prtStat_PORT_STALL : Fld := ⟨.prtStat, 0, 1⟩
abbrev prtStat_LINK_DOWN : Fld := ⟨.prtStat, 1, 1⟩
abbrev prtStat_REFUSE : Fld := ⟨.prtStat, 2, 1⟩
abbrev prtStat_DESC_INVALID : Fld := ⟨.prtStat, 3, 1⟩
abbrev prtStat_DOORBELL_BAD : Fld := ⟨.prtStat, 4, 1⟩
abbrev prtStat_HOST_ERR : Fld := ⟨.prtStat, 5, 1⟩
abbrev prtStat_FLR : Fld := ⟨.prtStat, 6, 1⟩
abbrev prtStat_STALL_TENANTS : Fld := ⟨.prtStat, 16, 16⟩
abbrev prtStat_CREDIT_WAIT : Fld := ⟨.prtStat, 32, 1⟩
abbrev prtRefuse_ADDR : Fld := ⟨.prtRefuse, 0, 40⟩
abbrev prtRefuse_WHY : Fld := ⟨.prtRefuse, 40, 3⟩
abbrev prtRefuse_WRITE : Fld := ⟨.prtRefuse, 43, 1⟩
abbrev prtRefuse_COUNT : Fld := ⟨.prtRefuse, 48, 16⟩
abbrev prtErr_DESC_INVALID : Fld := ⟨.prtErr, 0, 16⟩
abbrev prtErr_DOORBELL_BAD : Fld := ⟨.prtErr, 16, 16⟩
abbrev prtErr_HOST_ERR : Fld := ⟨.prtErr, 32, 16⟩
abbrev prtErr_CLEAR : Fld := ⟨.prtErr, 48, 1⟩
abbrev prtFar_EN : Fld := ⟨.prtFar, 0, 1⟩
abbrev prtFar_SIZE : Fld := ⟨.prtFar, 1, 13⟩
abbrev prtFar_START : Fld := ⟨.prtFar, 14, 13⟩
abbrev prtFar_HOST_BASE : Fld := ⟨.prtFar, 30, 34⟩
abbrev prtRqCfg_LOG2 : Fld := ⟨.prtRqCfg, 0, 5⟩
abbrev prtRqCfg_BASE : Fld := ⟨.prtRqCfg, 12, 52⟩
abbrev prtRsCfg_LOG2 : Fld := ⟨.prtRsCfg, 0, 5⟩
abbrev prtRsCfg_BASE : Fld := ⟨.prtRsCfg, 12, 52⟩
abbrev prtRingCtrl_ENABLE : Fld := ⟨.prtRingCtrl, 0, 1⟩
abbrev prtRingCtrl_FLUSH : Fld := ⟨.prtRingCtrl, 1, 1⟩
abbrev prtRingCtrl_VEC : Fld := ⟨.prtRingCtrl, 2, 6⟩
abbrev prtRingCtrl_IRQ_GAP : Fld := ⟨.prtRingCtrl, 16, 16⟩
abbrev prtRingStat_ENABLED : Fld := ⟨.prtRingStat, 0, 1⟩
abbrev prtRingStat_REFUSED : Fld := ⟨.prtRingStat, 1, 1⟩
abbrev prtRingStat_BUSY : Fld := ⟨.prtRingStat, 2, 1⟩
abbrev prtRingStat_RING_FULL : Fld := ⟨.prtRingStat, 3, 1⟩
abbrev prtRingStat_STALLED : Fld := ⟨.prtRingStat, 4, 1⟩
abbrev prtRingStat_WAITING : Fld := ⟨.prtRingStat, 16, 32⟩
abbrev prtRingStat_FLUSHED : Fld := ⟨.prtRingStat, 48, 16⟩
abbrev tchUnit_UNIT : Fld := ⟨.tchUnit, 0, 8⟩
abbrev tchUnit_TOPO : Fld := ⟨.tchUnit, 8, 2⟩
abbrev tchUnit_XM1 : Fld := ⟨.tchUnit, 10, 4⟩
abbrev tchUnit_YM1 : Fld := ⟨.tchUnit, 14, 4⟩
abbrev tchUnit_GSIZE : Fld := ⟨.tchUnit, 18, 5⟩
abbrev tchUnit_ADMIN : Fld := ⟨.tchUnit, 24, 2⟩
abbrev tchUnit_GROUP_ID : Fld := ⟨.tchUnit, 32, 32⟩
abbrev tchStat_REFUSED : Fld := ⟨.tchStat, 0, 1⟩
abbrev tchStat_NOROUTE : Fld := ⟨.tchStat, 16, 16⟩
abbrev tchStat_EXP_DENY : Fld := ⟨.tchStat, 32, 16⟩
abbrev tchStat_CLEAR : Fld := ⟨.tchStat, 48, 1⟩
abbrev tchRap_EN : Fld := ⟨.tchRap, 0, 1⟩
abbrev tchRap_UNIT : Fld := ⟨.tchRap, 8, 8⟩
abbrev tchRap_LBASE : Fld := ⟨.tchRap, 16, 10⟩
abbrev tchRap_SIZE : Fld := ⟨.tchRap, 26, 10⟩
abbrev tchRap_RBASE : Fld := ⟨.tchRap, 36, 10⟩
abbrev tchExp_EN : Fld := ⟨.tchExp, 0, 1⟩
abbrev tchExp_R : Fld := ⟨.tchExp, 1, 1⟩
abbrev tchExp_W : Fld := ⟨.tchExp, 2, 1⟩
abbrev tchExp_A : Fld := ⟨.tchExp, 3, 1⟩
abbrev tchExp_ANY : Fld := ⟨.tchExp, 4, 1⟩
abbrev tchExp_SRC_UNIT : Fld := ⟨.tchExp, 8, 8⟩
abbrev tchExp_BASE : Fld := ⟨.tchExp, 16, 10⟩
abbrev tchExp_SIZE : Fld := ⟨.tchExp, 26, 10⟩
abbrev tchLinkCtrl_EN : Fld := ⟨.tchLinkCtrl, 0, 1⟩
abbrev tchLinkCtrl_RETRAIN : Fld := ⟨.tchLinkCtrl, 1, 1⟩
abbrev tchLinkCtrl_ALLOW_X8 : Fld := ⟨.tchLinkCtrl, 2, 1⟩
abbrev tchLinkCtrl_CLEAR : Fld := ⟨.tchLinkCtrl, 3, 1⟩
abbrev tchLinkStat_STATE : Fld := ⟨.tchLinkStat, 0, 3⟩
abbrev tchLinkStat_WIDTH : Fld := ⟨.tchLinkStat, 4, 2⟩
abbrev tchLinkStat_REASON : Fld := ⟨.tchLinkStat, 8, 3⟩
abbrev tchLinkStat_PEER_UNIT : Fld := ⟨.tchLinkStat, 16, 8⟩
abbrev tchLinkStat_PEER_LINK : Fld := ⟨.tchLinkStat, 24, 4⟩
abbrev tchLinkStat_RTT : Fld := ⟨.tchLinkStat, 32, 16⟩
abbrev tchLinkErr_CORR : Fld := ⟨.tchLinkErr, 0, 16⟩
abbrev tchLinkErr_UNCORR : Fld := ⟨.tchLinkErr, 16, 16⟩
abbrev tchLinkErr_REPLAY : Fld := ⟨.tchLinkErr, 32, 16⟩
abbrev tchLinkErr_RETRAINS : Fld := ⟨.tchLinkErr, 48, 8⟩
abbrev tchLinkErr_LOST : Fld := ⟨.tchLinkErr, 56, 8⟩
abbrev tchLinkPeer_STAT : Fld := ⟨.tchLinkPeer, 0, 64⟩
abbrev tchLinkCnt_COUNT : Fld := ⟨.tchLinkCnt, 0, 48⟩
abbrev tchLinkCnt_OVF : Fld := ⟨.tchLinkCnt, 63, 1⟩
abbrev tchLinkInject_SYM : Fld := ⟨.tchLinkInject, 0, 1⟩
abbrev tchLinkInject_UNCORR : Fld := ⟨.tchLinkInject, 1, 1⟩
abbrev tchLinkInject_CRC : Fld := ⟨.tchLinkInject, 2, 1⟩
abbrev tchLinkInject_LANE : Fld := ⟨.tchLinkInject, 3, 1⟩
abbrev rasCtrl_ADMIN : Fld := ⟨.rasCtrl, 0, 2⟩
abbrev rasCtrl_NOTIFY : Fld := ⟨.rasCtrl, 4, 4⟩
abbrev rasCtrl_REFUSED : Fld := ⟨.rasCtrl, 8, 1⟩
abbrev rasHard_CORR : Fld := ⟨.rasHard, 0, 16⟩
abbrev rasHard_UNCORR : Fld := ⟨.rasHard, 16, 16⟩
abbrev rasHard_LAST_OFFSET : Fld := ⟨.rasHard, 32, 26⟩
abbrev rasHard_CLEAR : Fld := ⟨.rasHard, 58, 1⟩
abbrev rasLogTail_TAIL : Fld := ⟨.rasLogTail, 0, 32⟩
abbrev rasInject_POINT : Fld := ⟨.rasInject, 0, 8⟩
abbrev rasInject_WHERE : Fld := ⟨.rasInject, 8, 7⟩
abbrev rasInject_LTILE : Fld := ⟨.rasInject, 15, 13⟩
abbrev rasInject_ARG : Fld := ⟨.rasInject, 32, 32⟩
abbrev rasWitErr_MISMATCH : Fld := ⟨.rasWitErr, 0, 16⟩
abbrev rasWitErr_CONFIRMED : Fld := ⟨.rasWitErr, 16, 16⟩
abbrev rasWitErr_SKIPPED : Fld := ⟨.rasWitErr, 32, 16⟩
abbrev rasWitErr_DROPPED : Fld := ⟨.rasWitErr, 48, 16⟩
abbrev rasWitSamples_COUNT : Fld := ⟨.rasWitSamples, 0, 48⟩
abbrev rasWitSamples_SUSP_OVF : Fld := ⟨.rasWitSamples, 48, 8⟩
abbrev rasWitSamples_OVF : Fld := ⟨.rasWitSamples, 63, 1⟩
abbrev rasFenceCmd_OP : Fld := ⟨.rasFenceCmd, 0, 2⟩
abbrev rasFenceCmd_LFIELD : Fld := ⟨.rasFenceCmd, 2, 7⟩
abbrev rasFenceCmd_LTILE : Fld := ⟨.rasFenceCmd, 9, 13⟩
abbrev rasFenceCmd_HOLD : Fld := ⟨.rasFenceCmd, 32, 16⟩
abbrev rasFenceStat_PENDING : Fld := ⟨.rasFenceStat, 0, 5⟩
abbrev rasFenceStat_QUIESCING : Fld := ⟨.rasFenceStat, 5, 1⟩
abbrev rasStCmd_KIND : Fld := ⟨.rasStCmd, 0, 2⟩
abbrev rasStCmd_NUM : Fld := ⟨.rasStCmd, 2, 7⟩
abbrev rasStStat_BUSY : Fld := ⟨.rasStStat, 0, 1⟩
abbrev rasStStat_RESULT : Fld := ⟨.rasStStat, 1, 2⟩
abbrev rasStStat_KIND : Fld := ⟨.rasStStat, 3, 2⟩
abbrev rasStStat_NUM : Fld := ⟨.rasStStat, 5, 7⟩
abbrev rasStStat_BAD : Fld := ⟨.rasStStat, 16, 13⟩
abbrev rasStStat_ST_LATE : Fld := ⟨.rasStStat, 32, 16⟩
abbrev rasStFail0_FIELDS : Fld := ⟨.rasStFail0, 0, 64⟩
abbrev rasStFail1_FIELDS : Fld := ⟨.rasStFail1, 0, 28⟩
abbrev rasStFail1_STACKS : Fld := ⟨.rasStFail1, 32, 16⟩
abbrev rasStRun0_FIELDS : Fld := ⟨.rasStRun0, 0, 64⟩
abbrev rasStRun1_FIELDS : Fld := ⟨.rasStRun1, 0, 28⟩
abbrev rasStRun1_STACKS : Fld := ⟨.rasStRun1, 32, 16⟩
abbrev rasWitRate_RATE : Fld := ⟨.rasWitRate, 0, 5⟩
abbrev rasFencePend_VALID : Fld := ⟨.rasFencePend, 0, 1⟩
abbrev rasFencePend_PFIELD : Fld := ⟨.rasFencePend, 1, 7⟩
abbrev rasFencePend_PTILE : Fld := ⟨.rasFencePend, 8, 13⟩
abbrev rasFencePend_CMD : Fld := ⟨.rasFencePend, 21, 1⟩
abbrev rasFencePend_LEFT : Fld := ⟨.rasFencePend, 32, 16⟩
abbrev rasSuspect_VALID : Fld := ⟨.rasSuspect, 0, 1⟩
abbrev rasSuspect_PFIELD : Fld := ⟨.rasSuspect, 1, 7⟩
abbrev rasSuspect_PTILE : Fld := ⟨.rasSuspect, 8, 13⟩
abbrev rasSuspect_CONF : Fld := ⟨.rasSuspect, 21, 1⟩
abbrev rasSuspect_AGE : Fld := ⟨.rasSuspect, 32, 16⟩
abbrev rasSuspect_CONF_AGE : Fld := ⟨.rasSuspect, 48, 16⟩
abbrev rasFldErr_SRAM_CORR : Fld := ⟨.rasFldErr, 0, 16⟩
abbrev rasFldErr_SRAM_UNCORR : Fld := ⟨.rasFldErr, 16, 16⟩
abbrev rasFldErr_SEQ_CORR : Fld := ⟨.rasFldErr, 32, 16⟩
abbrev rasFldErr_SEQ_UNCORR : Fld := ⟨.rasFldErr, 48, 16⟩
abbrev rasLog_WORD : Fld := ⟨.rasLog, 0, 64⟩
abbrev pwrCfg_BOOST : Fld := ⟨.pwrCfg, 0, 1⟩
abbrev pwrCfg_KEEP_OP : Fld := ⟨.pwrCfg, 1, 3⟩
abbrev pwrCfg_ADMIN : Fld := ⟨.pwrCfg, 4, 2⟩
abbrev pwrLendThreshold_US : Fld := ⟨.pwrLendThreshold, 0, 16⟩
abbrev pwrEnvelope_WATTS : Fld := ⟨.pwrEnvelope, 0, 14⟩
abbrev pwrEnvelope_BASE_Q : Fld := ⟨.pwrEnvelope, 16, 16⟩
abbrev pwrStat_INPUT_W : Fld := ⟨.pwrStat, 0, 16⟩
abbrev pwrStat_LENDING : Fld := ⟨.pwrStat, 16, 7⟩
abbrev pwrStat_BORROWING : Fld := ⟨.pwrStat, 23, 7⟩
abbrev pwrStat_LENT_Q : Fld := ⟨.pwrStat, 32, 16⟩
abbrev pwrStat_FREE_Q : Fld := ⟨.pwrStat, 48, 16⟩
abbrev pwrEnergy_COUNT : Fld := ⟨.pwrEnergy, 0, 48⟩
abbrev pwrEnergy_OVF : Fld := ⟨.pwrEnergy, 63, 1⟩
abbrev pwrCntLend_COUNT : Fld := ⟨.pwrCntLend, 0, 48⟩
abbrev pwrCntLend_OVF : Fld := ⟨.pwrCntLend, 63, 1⟩
abbrev pwrFldReq_CAP_OP : Fld := ⟨.pwrFldReq, 0, 3⟩
abbrev pwrFldReq_FLOOR_OP : Fld := ⟨.pwrFldReq, 4, 3⟩
abbrev pwrFldReq_PIN : Fld := ⟨.pwrFldReq, 8, 1⟩
abbrev pwrFldReq_PIN_OP : Fld := ⟨.pwrFldReq, 9, 3⟩
abbrev pwrFldStat_OP : Fld := ⟨.pwrFldStat, 0, 3⟩
abbrev pwrFldStat_CEIL : Fld := ⟨.pwrFldStat, 4, 3⟩
abbrev pwrFldStat_QUIET : Fld := ⟨.pwrFldStat, 7, 1⟩
abbrev pwrFldStat_LENDING : Fld := ⟨.pwrFldStat, 8, 1⟩
abbrev pwrFldStat_BORROWING : Fld := ⟨.pwrFldStat, 9, 1⟩
abbrev pwrFldStat_CONFLICT : Fld := ⟨.pwrFldStat, 10, 1⟩
abbrev pwrFldStat_TEMP : Fld := ⟨.pwrFldStat, 16, 8⟩
abbrev pwrFldStat_CREDIT_Q : Fld := ⟨.pwrFldStat, 24, 16⟩
abbrev pwrFldStat_POWER_Q : Fld := ⟨.pwrFldStat, 40, 16⟩
abbrev pwrFldStat_RAIL : Fld := ⟨.pwrFldStat, 56, 8⟩
abbrev pwrClampStatus_STICKY : Fld := ⟨.pwrClampStatus, 0, 5⟩
abbrev pwrClampStatus_NOW : Fld := ⟨.pwrClampStatus, 8, 5⟩
abbrev pwrClampStatus_ONSETS : Fld := ⟨.pwrClampStatus, 16, 16⟩
abbrev pwrClampStatus_SUPPRESSED : Fld := ⟨.pwrClampStatus, 32, 16⟩
abbrev pwrDom_STATE : Fld := ⟨.pwrDom, 0, 2⟩
abbrev pwrDom_OFF_REQ : Fld := ⟨.pwrDom, 2, 1⟩
abbrev pwrDom_REFUSED : Fld := ⟨.pwrDom, 3, 1⟩
abbrev pwrDom_FAULTS : Fld := ⟨.pwrDom, 16, 16⟩
abbrev secCtrl_ADMIN : Fld := ⟨.secCtrl, 0, 2⟩
abbrev secCtrl_REFUSED : Fld := ⟨.secCtrl, 8, 1⟩
abbrev secBootStat_STEP : Fld := ⟨.secBootStat, 0, 4⟩
abbrev secBootStat_SAFE : Fld := ⟨.secBootStat, 4, 1⟩
abbrev secBootStat_DEBUG_DIS : Fld := ⟨.secBootStat, 5, 1⟩
abbrev secBootStat_LC : Fld := ⟨.secBootStat, 6, 2⟩
abbrev secBootStat_SAFE_CODE : Fld := ⟨.secBootStat, 8, 8⟩
abbrev secBootStat_RESET_CAUSE : Fld := ⟨.secBootStat, 16, 2⟩
abbrev secBootStat_SLOE_ROM : Fld := ⟨.secBootStat, 18, 1⟩
abbrev secBootStat_BOOT_MS : Fld := ⟨.secBootStat, 32, 16⟩
abbrev secBootStat_RESETS : Fld := ⟨.secBootStat, 48, 16⟩
abbrev secReset_KEY : Fld := ⟨.secReset, 0, 16⟩
abbrev secReset_GO : Fld := ⟨.secReset, 16, 1⟩
abbrev secUpdAddr_ADDR : Fld := ⟨.secUpdAddr, 8, 56⟩
abbrev secUpdCmd_OP : Fld := ⟨.secUpdCmd, 0, 2⟩
abbrev secUpdCmd_KIND : Fld := ⟨.secUpdCmd, 2, 3⟩
abbrev secUpdStat_BUSY : Fld := ⟨.secUpdStat, 0, 1⟩
abbrev secUpdStat_DONE : Fld := ⟨.secUpdStat, 1, 1⟩
abbrev secUpdStat_REFUSED : Fld := ⟨.secUpdStat, 2, 1⟩
abbrev secUpdStat_CODE : Fld := ⟨.secUpdStat, 3, 4⟩
abbrev secUpdStat_SLOT : Fld := ⟨.secUpdStat, 8, 1⟩
abbrev secUpdStat_VERSION : Fld := ⟨.secUpdStat, 32, 32⟩
abbrev secNonce_NONCE : Fld := ⟨.secNonce, 0, 64⟩
abbrev secImg_PRESENT : Fld := ⟨.secImg, 0, 1⟩
abbrev secImg_BOOTED : Fld := ⟨.secImg, 1, 1⟩
abbrev secImg_CODE : Fld := ⟨.secImg, 2, 4⟩
abbrev secImg_SVN : Fld := ⟨.secImg, 6, 8⟩
abbrev secImg_VERSION : Fld := ⟨.secImg, 32, 32⟩
abbrev otpStat_LC_SPLIT : Fld := ⟨.otpStat, 0, 1⟩
abbrev otpStat_FINAL : Fld := ⟨.otpStat, 1, 5⟩
abbrev otpStat_MISMATCH : Fld := ⟨.otpStat, 6, 5⟩
abbrev otpStat_REVOKED : Fld := ⟨.otpStat, 11, 2⟩
abbrev otpStat_SVN_HUB : Fld := ⟨.otpStat, 13, 8⟩
abbrev otpStat_SVN_MC : Fld := ⟨.otpStat, 21, 8⟩
abbrev otpStat_SVN_SLOE : Fld := ⟨.otpStat, 29, 8⟩
abbrev otpLcCmd_TARGET : Fld := ⟨.otpLcCmd, 0, 2⟩
abbrev otpLcCmd_ARM : Fld := ⟨.otpLcCmd, 2, 1⟩
abbrev otpLcCmd_GO : Fld := ⟨.otpLcCmd, 3, 1⟩
abbrev otpRdSel_WORD : Fld := ⟨.otpRdSel, 0, 8⟩
abbrev otpRdData_DATA : Fld := ⟨.otpRdData, 0, 64⟩
abbrev otpDefect_USED : Fld := ⟨.otpDefect, 0, 12⟩
abbrev otpDefect_BAD_CRC : Fld := ⟨.otpDefect, 16, 12⟩
abbrev otpDefect_RECORD_LEN : Fld := ⟨.otpDefect, 32, 16⟩
abbrev sloMode_MODE : Fld := ⟨.sloMode, 0, 2⟩
abbrev sloMode_MAIN_OK : Fld := ⟨.sloMode, 2, 1⟩
abbrev sloMode_STBY_OK : Fld := ⟨.sloMode, 3, 1⟩
abbrev sloMode_CELL_LOW : Fld := ⟨.sloMode, 4, 1⟩
abbrev sloMode_CELL_MV : Fld := ⟨.sloMode, 16, 12⟩
abbrev sloMode_OUTLET_T : Fld := ⟨.sloMode, 32, 8⟩
abbrev sloPwrCfg_AUTO_ON : Fld := ⟨.sloPwrCfg, 0, 1⟩
abbrev sloPwrCfg_POWER_ON : Fld := ⟨.sloPwrCfg, 1, 1⟩
abbrev sloPwrCfg_POWER_OFF : Fld := ⟨.sloPwrCfg, 2, 1⟩
abbrev sloKey_CODE : Fld := ⟨.sloKey, 0, 5⟩
abbrev sloKey_RELEASE : Fld := ⟨.sloKey, 5, 1⟩
abbrev sloKey_EMPTY : Fld := ⟨.sloKey, 6, 1⟩
abbrev sloKey_OVF : Fld := ⟨.sloKey, 7, 1⟩
abbrev sloKeyState_DOWN : Fld := ⟨.sloKeyState, 0, 30⟩
abbrev sloChord_LOCKED : Fld := ⟨.sloChord, 0, 1⟩
abbrev sloChord_ARMED : Fld := ⟨.sloChord, 1, 1⟩
abbrev sloChord_WAKE : Fld := ⟨.sloChord, 2, 1⟩
abbrev sloChord_ELAPSED : Fld := ⟨.sloChord, 16, 11⟩
abbrev sloChord_IDLE_S : Fld := ⟨.sloChord, 32, 16⟩
abbrev sloDispFrame_BYTES : Fld := ⟨.sloDispFrame, 0, 64⟩
abbrev sloDispCrc_CRC : Fld := ⟨.sloDispCrc, 0, 16⟩
abbrev sloDispCrc_COMMIT : Fld := ⟨.sloDispCrc, 16, 1⟩
abbrev sloDispCrc_MISMATCH : Fld := ⟨.sloDispCrc, 17, 1⟩
abbrev sloDispCrc_ROM_SHOWN : Fld := ⟨.sloDispCrc, 18, 1⟩
abbrev sloDispCrc_PENDING : Fld := ⟨.sloDispCrc, 19, 1⟩
abbrev sloDispCrc_LAST_CALC : Fld := ⟨.sloDispCrc, 32, 16⟩
abbrev sloDispCrc_MISMATCHES : Fld := ⟨.sloDispCrc, 48, 16⟩
abbrev sloDispBlink_DIGITS : Fld := ⟨.sloDispBlink, 0, 16⟩
abbrev sloDispBlink_ANN : Fld := ⟨.sloDispBlink, 16, 24⟩
abbrev sloDispBlink_EN : Fld := ⟨.sloDispBlink, 40, 1⟩
abbrev sloLcd_TARGET_MV : Fld := ⟨.sloLcd, 0, 12⟩
abbrev sloLcd_VLCD_MV : Fld := ⟨.sloLcd, 12, 12⟩
abbrev sloLcd_LADDER : Fld := ⟨.sloLcd, 24, 1⟩
abbrev sloLcd_SHORT : Fld := ⟨.sloLcd, 25, 1⟩
abbrev sloLcd_TEMP : Fld := ⟨.sloLcd, 32, 8⟩
abbrev sloAlarm_NOW : Fld := ⟨.sloAlarm, 0, 5⟩
abbrev sloAlarm_PENDING : Fld := ⟨.sloAlarm, 8, 5⟩
abbrev sloAlarm_PF_DOMAIN : Fld := ⟨.sloAlarm, 16, 8⟩
abbrev sloAlarmCfg_LEAK_SHUT : Fld := ⟨.sloAlarmCfg, 0, 8⟩
abbrev sloAlarmCfg_OT_LIMIT : Fld := ⟨.sloAlarmCfg, 8, 8⟩
abbrev sloRing_HEAD : Fld := ⟨.sloRing, 0, 6⟩
abbrev sloRing_PEND : Fld := ⟨.sloRing, 6, 7⟩
abbrev sloRing_OVF : Fld := ⟨.sloRing, 13, 8⟩
abbrev sloRing_CLEAR : Fld := ⟨.sloRing, 21, 1⟩
abbrev sloEvtMask_KINDS : Fld := ⟨.sloEvtMask, 0, 17⟩
abbrev sloRtc_SECONDS : Fld := ⟨.sloRtc, 0, 32⟩
abbrev sloRtc_VALID : Fld := ⟨.sloRtc, 32, 1⟩
abbrev sloSmb_ADDR : Fld := ⟨.sloSmb, 0, 7⟩
abbrev sloSmb_PEC_REQ : Fld := ⟨.sloSmb, 7, 1⟩
abbrev sloSmb_ALERT : Fld := ⟨.sloSmb, 8, 1⟩
abbrev sloSmb_PEC_ERR : Fld := ⟨.sloSmb, 16, 16⟩
abbrev sloPin_UNLOCKED : Fld := ⟨.sloPin, 0, 1⟩
abbrev sloPin_FAILS : Fld := ⟨.sloPin, 1, 3⟩
abbrev sloPin_LOCK_S : Fld := ⟨.sloPin, 8, 10⟩
abbrev sloHubAddr_OFFSET : Fld := ⟨.sloHubAddr, 0, 26⟩
abbrev sloHubAddr_READ : Fld := ⟨.sloHubAddr, 32, 1⟩
abbrev sloHubAddr_WRITE : Fld := ⟨.sloHubAddr, 33, 1⟩
abbrev sloHubData_DATA : Fld := ⟨.sloHubData, 0, 64⟩
abbrev sloHubStat_BUSY : Fld := ⟨.sloHubStat, 0, 1⟩
abbrev sloHubStat_RESULT : Fld := ⟨.sloHubStat, 1, 2⟩
abbrev sloFbank_BANK : Fld := ⟨.sloFbank, 0, 4⟩
abbrev sloFbank_ROM : Fld := ⟨.sloFbank, 4, 1⟩
abbrev fshCtrl_CMD : Fld := ⟨.fshCtrl, 0, 3⟩
abbrev fshCtrl_SUSPEND : Fld := ⟨.fshCtrl, 3, 1⟩
abbrev fshCtrl_RESUME : Fld := ⟨.fshCtrl, 4, 1⟩
abbrev fshCtrl_AUTO_SUSP : Fld := ⟨.fshCtrl, 5, 1⟩
abbrev fshCtrl_KEY : Fld := ⟨.fshCtrl, 16, 16⟩
abbrev fshAddr_ADDR : Fld := ⟨.fshAddr, 0, 19⟩
abbrev fshSrc_SRC : Fld := ⟨.fshSrc, 0, 14⟩
abbrev fshSrc_LEN : Fld := ⟨.fshSrc, 16, 9⟩
abbrev fshStat_BUSY : Fld := ⟨.fshStat, 0, 1⟩
abbrev fshStat_SUSPENDED : Fld := ⟨.fshStat, 1, 1⟩
abbrev fshStat_OP : Fld := ⟨.fshStat, 2, 3⟩
abbrev fshStat_ERASE_HELD : Fld := ⟨.fshStat, 5, 1⟩
abbrev fshStat_DONE : Fld := ⟨.fshStat, 6, 1⟩
abbrev fshStat_ERR : Fld := ⟨.fshStat, 7, 1⟩
abbrev fshStat_ERR_CODE : Fld := ⟨.fshStat, 8, 4⟩
abbrev fshStat_UNLOCKED : Fld := ⟨.fshStat, 12, 1⟩
abbrev fshStat_NVLOCK_ON : Fld := ⟨.fshStat, 13, 1⟩
abbrev fshStat_PW_SET : Fld := ⟨.fshStat, 14, 1⟩
abbrev fshStat_OPT_TORN : Fld := ⟨.fshStat, 15, 1⟩
abbrev fshStat_CAL_BAD : Fld := ⟨.fshStat, 16, 1⟩
abbrev fshStat_PULSES : Fld := ⟨.fshStat, 18, 6⟩
abbrev fshStat_PW_FAILS : Fld := ⟨.fshStat, 24, 4⟩
abbrev fshStat_SUSP_COUNT : Fld := ⟨.fshStat, 32, 16⟩
abbrev fshWp_WP : Fld := ⟨.fshWp, 0, 64⟩
abbrev fshWpClr_CLR : Fld := ⟨.fshWpClr, 0, 64⟩
abbrev fshNvlock_LOCK : Fld := ⟨.fshNvlock, 0, 64⟩
abbrev fshPassword_VALUE : Fld := ⟨.fshPassword, 0, 64⟩
abbrev fshPageSel_PAGE : Fld := ⟨.fshPageSel, 0, 11⟩
abbrev fshPageState_STATE : Fld := ⟨.fshPageState, 0, 2⟩
abbrev fshPageState_PROGS : Fld := ⟨.fshPageState, 2, 5⟩
abbrev fshPageState_SECTOR : Fld := ⟨.fshPageState, 8, 2⟩
abbrev fshInfoSel_WORD : Fld := ⟨.fshInfoSel, 0, 6⟩
abbrev fshInfoData_DATA : Fld := ⟨.fshInfoData, 0, 64⟩

end F

end Sys2Proof.Machine
end

