-- ==== Sys2Proof/Machine/Types.lean ====
section
/-! DEFINITION. The kinds of state inside the blocks: faults, packets, accesses, requests, waits, records. -/

namespace Sys2Proof.Machine

open Sys2Proof

/-- Precise fault causes of a tile (Table 3.6) and of a sequencer (Table 5.10). -/
inductive Cause where
  | illegal | localAddr | circRange | misaligned | noNeighbour | protection | controlWrite | globalAddr | poison
  | length | priv
  deriving DecidableEq, Repr

/-- The CAUSE code (Table 3.6, Table 5.10; LOCAL_ADDR and SEQ_ADDR share 0x02). -/
def Cause.code : Cause → Nat
  | .illegal => 1
  | .localAddr => 2
  | .circRange => 3
  | .misaligned => 4
  | .noNeighbour => 5
  | .protection => 6
  | .controlWrite => 7
  | .globalAddr => 8
  | .poison => 9
  | .length => 11
  | .priv => 12

/-- The request status a tile fault gives (Table 3.6). -/
def Cause.status : Cause → Nat
  | .illegal => 0x3F
  | .poison => 0x3F
  | _ => 0x20

/-- The request status a sequencer fault in T mode gives (R117). -/
def Cause.seqStatus : Cause → Nat
  | .illegal => 0x3F
  | .length => 0x3F
  | .priv => 0x3F
  | .poison => 0x3F
  | _ => 0x20

/-- A precise fault as it is recorded (Table 3.7, Table 5.10); `sync` marks one that a cell or a barrier tree raises (Table 9.2). -/
structure TFault where
  cause : Cause
  glob : Bool := false
  write : Bool := false
  addr : Nat := 0
  sync : Bool := false
  deriving DecidableEq, Repr

/-- The map that a bad set gives a field (R35): the two skipped rows in ascending order, and the bad tiles. -/
structure FMap where
  r0 : Nat
  r1 : Nat
  f0 : Bool
  f1 : Bool
  bad : List Nat
  deriving DecidableEq, Repr

/-- An agent that sends or receives packets (Table 6.4 SRC; a host port for its own accesses). -/
inductive Agent where
  | tile (f t : Nat)
  | seq (f : Nat)
  | dense (f : Nat)
  | hbm (m : Nat)
  | hub
  | edge (e : Nat)
  | far
  | host (p : Nat)
  deriving DecidableEq, Repr

/-- A place on the mesh (R127). -/
inductive Node where
  | tile (f t : Nat)
  | router (p : Nat)
  | junction (j : Nat)
  | home (m p : Nat)
  | hub (j : Nat)
  | edge (e : Nat)
  | done
  deriving DecidableEq, Repr

/-- Packet classes (R130). -/
inductive PClass where
  | request | response | sync | maintenance
  deriving DecidableEq, Repr

/-- What a packet asks for or carries (Table 6.4 OPC). -/
inductive PktOp where
  | read | write | posted | readData | writeAck
  | atomic (a : Atom)
  | maintRead | maintWrite
  deriving DecidableEq, Repr

/-- What an access was for: how its response is used. -/
inductive Purpose where
  | gl | get | gather (i : Nat) | put (i : Nat) | seqOp | gstage (i row : Nat) | wload | copy | host
  deriving DecidableEq, Repr

/-- A packet on the mesh (R128). `okBit` is what an atomic or a check answered; `unit` is the unit that holds `ga`, 256 for this
one; `hostAt` is the port and host address of a far-tier address as it was mapped at issue (R257); `ext` is the packet as it
came, or as its response leaves, over a link (R268), `lane` the link it came in on and its DL. -/
structure Packet where
  id : Nat
  op : PktOp
  cls : PClass
  err : RespErr := .ok
  sys : Bool := false
  tenant : Nat := 0
  src : Agent
  dst : Agent
  purpose : Purpose
  access : Nat
  ga : Nat := 0
  len : Nat := 0
  data : List Byte := []
  okBit : Bool := true
  contend : Bool := false
  age : Nat := 0
  prev : Node
  node : Node
  up : Bool := true
  unit : Nat := 256
  hostAt : Nat × Nat := (4, 0)
  ext : Option LinkPkt := none
  lane : Nat × Nat := (16, 0)
  deriving DecidableEq, Repr

/-- An access issued and not yet answered (R135); `hostPort` is the port of one to the far tier, 4 for none. -/
structure Access where
  id : Nat
  agent : Agent
  purpose : Purpose
  issued : Nat
  ga : Nat
  winTenant : Nat
  winEpoch : Nat
  far : Bool := false
  unit : Nat := 256
  hostPort : Nat := 4
  deriving DecidableEq, Repr

/-- Credit still owed to a buffer a packet has left (R130, ROUTER_CREDIT_RETURN). -/
structure Debt where
  id : Nat
  prev : Node
  node : Node
  cls : PClass
  up : Bool
  bytes : Nat
  deriving DecidableEq, Repr

/-- The hold of R394 on a granule by the tile of key `key`. -/
structure Hold where
  granule : Nat
  key : Nat
  since : Nat
  deriving DecidableEq, Repr

/-- A reservation of LR (R91): none, held, or lost by contention or otherwise. -/
inductive Resv where
  | none
  | held (granule count : Nat)
  | lost (contention : Bool)
  deriving DecidableEq, Repr

/-- A posted store not yet acknowledged, or failed and not yet reported (R136, R137). -/
structure Post where
  ga : Nat
  access : Nat
  failed : Option Cause := none
  deriving DecidableEq, Repr

/-- A global access of the GL form under way (R90); `val` is the word that a GST or SC sends. -/
structure GlWait where
  sub : Nat
  w : AccW
  l : Byte
  ga : Nat
  val : Nat := 0
  deriving DecidableEq, Repr

/-- A gather element issued (R89). -/
structure GathEl where
  access : Nat
  dst : Nat
  len : Nat
  data : List Byte := []
  bad : Option Cause := none
  ga : Nat
  deriving DecidableEq, Repr

/-- What a tile waits for besides queues (R189, R191, R196, R193). -/
inductive TWait where
  | none
  | sig (n : Nat) (woken : Bool)
  | cell (c : Nat)
  | cellAck (c : Nat)
  | barF (g : Nat) (sense : Bool)
  | barW (g : Nat) (sense : Bool)
  | gl (g : GlWait)
  | get
  deriving DecidableEq, Repr

/-- The record of a sampled firing (R280); `start` in thousandths of a field cycle (R281). -/
structure Trace where
  tenant : Nat
  seqNo : Nat
  f : Nat
  t : Nat
  pf : Nat
  pt : Nat
  slot : Nat
  entry : Nat
  regs : List Nat
  log : List (Nat × DWord)
  crc : DWord
  start : Nat
  done : Bool := false
  deriving DecidableEq, Repr

/-- A barrier group of a field (R195). -/
structure Bar where
  expect : Nat
  cnt : Nat
  sense : Bool
  arrivals : Nat
  parity : Bool
  deriving DecidableEq, Repr

/-- A cell operation on its way to the pool (R191). -/
inductive CellOp where
  | set | clear | wait | test
  deriving DecidableEq, Repr

/-- Who sent a cell operation; its order is the order within one field cycle (R191). -/
inductive CellBy where
  | seq
  | tile (t : Nat)
  | gstage
  deriving DecidableEq, Repr

/-- A queued cell operation; `cell` is the pool index, `at_` the time it was sent. -/
structure CellReq where
  by_ : CellBy
  op : CellOp
  cell : Nat
  at_ : Nat := 0
  deriving DecidableEq, Repr

/-- The answer the pool gives: done, or poisoned; `z` for a test. -/
structure CellAns where
  who : CellBy
  cell : Nat
  z : Bool
  poison : Bool
  test : Bool := false
  deriving DecidableEq, Repr

/-- A signal cell (R190 to R192); `err` marks a stored error of one or two bits (Table 9.2). -/
structure Cell where
  set : Bool := false
  bound : Bool := false
  sig : Nat := 0
  tile : Nat := 0
  poison : Bool := false
  err : Nat := 0
  waiters : List CellBy := []
  deriving DecidableEq, Repr

/-- An event record of EVWAIT (Table 5.7). -/
structure EvRec where
  kind : Nat
  tenant : Nat
  tile : Nat := 0
  arg : Nat := 0
  deriving DecidableEq, Repr

/-- What a sequencer waits for (R203, R112, R147). -/
inductive SWait where
  | none
  | ev
  | cell (c : Nat)
  | cellAck (c : Nat)
  | barF (g : Nat) (sense : Bool)
  | barW (g : Nat) (sense : Bool)
  | dwait
  | gstageFull
  | dpassFull
  | glob
  | rep
  deriving DecidableEq, Repr

/-- A GSTAGE under way (R112): its rows in order, each an access with its destination; `fail` is the first row that failed
its check at issue, with its cause; a row is `parts` reads (R258). -/
structure Gst where
  id : Nat
  tenant : Nat
  slot : Nat
  cell : Nat
  rows : List GathEl
  fail : Option (Nat × Cause) := none
  parts : Nat := 1
  deriving DecidableEq, Repr

/-- A WLOAD under way (R144): its reads of 256 bytes, in order; `fail` is the first that its check refused. -/
structure Wld where
  tenant : Nat
  slot : Option Nat
  off : Nat
  len : Nat
  order : Nat
  tm : Bool
  rows : List GathEl
  fail : Option (Nat × Cause) := none
  deriving DecidableEq, Repr

/-- A pass of the dense block (R147). -/
structure Pass where
  desc : Nat
  rslot : Nat
  vecs : Nat
  tenant : Nat
  order : Nat
  omul : Nat
  osh : Nat
  loaded : Bool := false
  bad : Bool := false
  deriving DecidableEq, Repr

/-- A request from its descriptor read to its end (R100, R245, R249). `proj` holds each projection: field, variants whose profile it
used (bit 0 the full model, bit 1 the fallback), result; `exchanged` those that have reached the lead field. -/
structure Req where
  port : Nat
  tenant : Nat
  ringSlot : Nat
  seqNo : Nat
  arrival : Nat
  desc : List Byte
  slot : Nat := 0
  epoch : Nat := 0
  fields : List Nat := []
  shares : List Nat := []
  delivered : List Nat := []
  taken : List Nat := []
  proj : List (Nat × Nat × Nat) := []
  exchanged : List (Nat × Nat × Nat) := []
  admitted : Bool := false
  variant : Nat := 0
  fetched : Bool := false
  cands : List Byte := []
  ctx : List Byte := []
  started : Bool := false
  ended : List Nat := []
  stats : List Nat := []
  entries : List Byte := []
  out : Bool := false
  deriving DecidableEq, Repr

/-- A REJECT word waiting to be sent (R246). -/
structure RejWord where
  tenant : Nat
  ringSlot : Nat
  status : Nat
  seqNo : Nat
  deriving DecidableEq, Repr

/-- A result page waiting to be sent (R251); `sent` counts its bytes already written. -/
structure Page where
  tenant : Nat
  bytes : List Byte
  count : Nat
  lead : Nat
  outK : Nat
  status : Nat
  seqNo : Nat
  sent : Nat := 0
  deriving DecidableEq, Repr

/-- A write that a port sends to host memory. -/
structure HostOut where
  port : Nat
  addr : Nat
  bytes : List Byte
  deriving DecidableEq, Repr

/-- What a host port answers a read (R240, R242): the bytes, or poisoned data. -/
structure HostAns where
  port : Nat
  addr : Nat
  bytes : List Byte
  poison : Bool := false
  deriving DecidableEq, Repr

/-- A read that a port sends to the host. -/
structure HostGet where
  port : Nat
  addr : Nat
  len : Nat
  deriving DecidableEq, Repr

/-- A host access to HBM whose window check R229 holds; `data` none for a read of `len` bytes. -/
structure HeldAcc where
  path : HostPath
  addr : Nat
  len : Nat
  data : Option (List Byte) := none
  deriving DecidableEq, Repr

/-- An MSI-X message (R259, R296). -/
structure Msix where
  port : Nat
  vector : Nat
  at_ : Nat
  deriving DecidableEq, Repr

/-- A trace record on its way (R282 to R285): the field that has it, since when and after how many tries; after a mismatch,
the witness tile (logical field and tile, physical field and tile), its signature and the addresses it asked for. `injArg` is ARG of the injection that
caused the mismatch. -/
structure WitRec where
  trace : Trace
  tries : Nat
  field : Nat
  since : Nat
  witness : Option (Nat × Nat) := none
  witPhys : Nat × Nat := (0, 0)
  witSig : DWord := 0
  witAsked : List Nat := []
  injArg : Option Nat := none
  deriving DecidableEq, Repr

end Sys2Proof.Machine
end

