-- ==== Sys2Proof/Machine/State.lean ====
section
/-! DEFINITION. The state of the block as plain data, its reset value, and the reasons a command can stop. -/

namespace Sys2Proof.Machine

open Sys2Proof

/-- A tile (R46, Table 3.1), or the Sloe core, which has the same registers (R347).
`p...` lists are entries in pass-through registers toward an input queue (R126). `ir` holds the halfwords of the instruction
under way, once fetched (R75); `haltReq` a debug halt that waits for the oldest gather element (R70). -/
structure Tile where
  sram : Tab Byte := []
  sramErr : Tab Nat := []
  sramInj : Nat := 0
  b : Tab Word := []
  acc0 : BitVec 40 := 0
  acc1 : BitVec 40 := 0
  ts : Word := 0
  pc : Half := 0
  cnt : Half := 0
  sptr : Half := 0
  dptr : Half := 0
  step : Half := 0
  qn : List DWord := []
  qe : List DWord := []
  qs : List DWord := []
  qw : List DWord := []
  ql : List DWord := []
  pn : List DWord := []
  pe : List DWord := []
  ps : List DWord := []
  pw : List DWord := []
  desc : Tab DWord := []
  armed : Byte := 0
  sig : Word := 0
  faultInfo : DWord := 0
  mode : DWord := 6
  circ0 : DWord := 0
  circ1 : DWord := 0
  extDeny : Bool := false
  frozen : Bool := false
  debugHalted : Bool := false
  resv : Resv := .none
  contFails : Nat := 0
  contGranule : Nat := 0
  posts : List Post := []
  got : List (DWord × RespErr) := []
  gath : List GathEl := []
  wait : TWait := .none
  trace : Option Trace := none
  sampleNext : Bool := false
  decSeen : Bool := false
  stallAt : Nat := 0
  ir : Option (Nat × Nat) := none
  haltReq : Bool := false
  deriving DecidableEq, Repr

/-- The tile after reset and in a clean grid: Tables 3.7 to 3.12 give the reset values (`mode` 6: FXRND = 0b10, SAT = 1). -/
def Tile.reset : Tile := {}

/-- A field sequencer (R102), beside its SEQ_ registers. `curReq` is the slot that its schedule runs, `taken` the one RQTAKE took
last, `latch` what its code last latched of each counter (Table 5.12), `inputs` the candidates and context blocks delivered to it: slot,
its share, context block (R250). -/
structure Seq where
  p : Tab DWord := []
  store : Tab Byte := []
  storeErr : Tab Nat := []
  storeInj : Nat := 0
  events : List EvRec := []
  wait : SWait := .none
  deliv : List Nat := []
  gst : List Gst := []
  gstId : Nat := 0
  got : List (List Byte × RespErr × Bool) := []
  curReq : Option Nat := none
  taken : Option Nat := none
  latch : Tab DWord := []
  injFault : Bool := false
  retPc : Nat := 0
  mfault : Bool := false
  resume : Nat := 0
  incs : List (Nat × Nat) := []
  twait : SWait := .none
  inputs : List (Nat × List Byte × List Byte) := []
  deriving DecidableEq, Repr

/-- A weight plane (R141): the tile it holds, with its column tops. -/
structure Plane where
  w : Tab Byte := []
  deriving DecidableEq, Repr

/-- A conversion (R150): its pass and the next vector. -/
structure Conv where
  pass : Pass
  next : Nat
  deriving DecidableEq, Repr

/-- A dense block (R141). `wtag` holds the owner tag of each 512-byte unit, tenant + 1. `acc` is keyed by
bank * 131072 + column * 512 + vector; `tops` by bank * 256 + column. -/
structure Dense where
  wbuf : Tab Byte := []
  wtag : Tab Nat := []
  plane : Plane := {}
  next : Plane := {}
  nextLoaded : Bool := false
  acc : Tab (BitVec 56) := []
  tops : Tab Half := []
  queue : List Pass := []
  running : Option Pass := none
  vec : Nat := 0
  conv : List Conv := []
  ending : List Pass := []
  feed : Tab (List DWord) := []
  feedIn : Tab (List DWord) := []
  drain : Tab (List DWord) := []
  drainIn : Tab (List DWord) := []
  wload : List Wld := []
  order : Nat := 0
  frozen : Bool := false
  inj : Nat := 0
  deriving DecidableEq, Repr

/-- A quiesce of a field (R289, R290, R292). -/
structure Quiesce where
  kind : Nat
  start : Nat
  len : Nat
  fences : Nat := 0
  injected : Bool := false
  deriving DecidableEq, Repr

/-- A logical field: who holds it, its sequencer, dense block, cells, barriers and detector; `trst` the tenants under TRST there,
each with the end of its time, none while it waits (R113); `lanes` the map whose detour codes and lanes its nodes hold (R125, R132). Of
the detector, `dlCyc` counts thousandths of a cycle up to `dlSince`, when the clock last changed (R204); `dlReset` is a RESET that waits
for the tenant's GSTAGEs (R113, R206). Its clock has made `cyc` thousandths of a
cycle up to `cycAt`, when it last changed (R281); `witNext` and `witTile` are the rotations of witness fields and tiles (R282). -/
structure Field where
  resident : Option Nat := none
  seq : Seq := {}
  dense : Dense := {}
  cells : Tab Cell := []
  cellOps : List CellReq := []
  cellAcks : List CellAns := []
  cellWakes : List CellAns := []
  cellInj : Nat := 0
  bars : Tab Bar := []
  treeInj : Bool := false
  dlSince : Nat := 0
  dlCyc : Nat := 0
  dlForce : Bool := false
  dlReset : Bool := false
  quietSince : Nat := 0
  sliceStart : Nat := 0
  sliceTo : Option Nat := none
  switching : Option (Nat × Nat) := none
  quiesce : Option Quiesce := none
  recs : List WitRec := []
  witNext : Nat := 0
  witTile : Nat := 0
  cyc : Nat := 0
  cycAt : Nat := 0
  laneInj : Nat := 0
  dropInj : Bool := false
  freezing : Bool := false
  woken : Bool := false
  trst : List (Nat × Option Nat) := []
  lanes : Option FMap := none
  deriving DecidableEq, Repr

/-- A field after reset. -/
def Field.reset : Field := {}

/-- A saved or clean context (R48, R223, Table 10.9). -/
structure Image where
  tiles : Tab Tile := []
  store : Tab Byte := []
  p : Tab DWord := []
  regs : List Nat := []
  bars : Tab Bar := []
  wsense : Tab Nat := []
  live : Nat := 0
  binds : List (Nat × Nat × Nat) := []
  waits : SWait := .none
  slices : List (Nat × Nat × Nat) := []
  clean : Bool := false
  deriving DecidableEq, Repr

/-- What the Hub keeps of a tenant beside its registers (R214, R215, R245). -/
structure Ten where
  seqCtr : Nat := 0
  full0 : Nat := 0
  full1 : Nat := 0
  fb0 : Nat := 0
  fb1 : Nat := 0
  fullEntry : Nat := 0
  fbEntry : Nat := 0
  sliceBytes : Nat := 0
  liveBytes : Nat := 0
  hasFb : Bool := false
  deriving DecidableEq, Repr

/-- A table of a tenant (R171 to R178): states coded as Table 8.2; `retFlipped` after the flip that retires it. -/
structure Tbl where
  baseA : Nat := 0
  baseB : Nat := 0
  geom : Nat := 0
  copyFwd : Bool := false
  stA : Nat := 0
  stB : Nat := 0
  registered : Bool := false
  retiring : Bool := false
  retFlipped : Bool := false
  refused : Bool := false
  flipEpoch : Nat := 0
  endA : Nat := 0
  endB : Nat := 0
  denied : Nat := 0
  deriving DecidableEq, Repr

/-- A protection window (R225): first and last page as byte addresses, permissions [5:0] of `HUB_WIN_PERM`. -/
structure Win where
  base : Nat := 0
  limit : Nat := 0
  perm : Nat := 0
  deriving DecidableEq, Repr

/-- A window commit not yet installed by the checkers (R228). -/
structure Commit where
  tenant : Nat
  win : Nat
  w : Win
  deriving DecidableEq, Repr

/-- A READY command the Hub holds (R175), and the source it came from. -/
structure ReadyHeld where
  tenant : Nat
  table : Nat
  bank : Bool
  at_ : Nat
  src : Nat := 0
  deriving DecidableEq, Repr

/-- The Hub (R211 to R229, R171 to R183, R249). `copyIn` holds the reads of a copy under way, `copyOut` its writes not yet
acknowledged, by access (R183); `areas` the image area of (tenant, field) among the eight of its field (R223); `wbarRel` the wafer
groups whose release is on its way (R196). -/
structure Hub where
  reqs : List Req := []
  tables : Tab Tbl := []
  windows : Tab Win := []
  commits : List Commit := []
  ten : Tab Ten := []
  clean : Tab Image := []
  saved : Tab Image := []
  areas : List (Nat × Nat) := []
  copies : List (Nat × Nat) := []
  copyIn : List (Nat × List GathEl) := []
  copyOut : List (Nat × List Nat) := []
  readyHeld : List ReadyHeld := []
  wbarArr : Tab Nat := []
  wbarRel : List Nat := []
  wbarInj : Bool := false
  deriving DecidableEq, Repr

/-- A host port (R236 to R260). `idx` holds the four indices of tenant t at t * 4 (Table 11.3); `published` the descriptors
not yet read: tenant, index, arrival stamp; `returned` and `rejected` slots that RQ_HEAD has yet to pass: tenant, index;
`credit` is posted credit in bytes; `sentAt` when a page or REJECT word of a tenant was last sent, or began to wait; `held` host accesses
that R229 holds; `cfg` the bytes that the host wrote into the configuration space and its tables. -/
structure PortSt where
  idx : Tab Nat := []
  published : List (Nat × Nat × Nat) := []
  rejs : List RejWord := []
  pages : List Page := []
  returned : List (Nat × Nat) := []
  rejected : List (Nat × Nat) := []
  credit : Nat := 65536
  bme : Bool := false
  sentAt : Tab Nat := []
  withheldUntil : Nat := 0
  irqAt : Tab Nat := []
  irqDue : List Nat := []
  evtDue : Bool := false
  held : List HeldAcc := []
  cfg : Tab Byte := []
  deriving DecidableEq, Repr

/-- A port after reset. -/
def PortSt.reset : PortSt := {}

/-- The mesh (R127 to R137). `turnC`, `turnP` hold for each output port the class, and for each class the input port, served last,
plus 1 (R134). `remResv` holds the reservations of tiles of other units: granule and key of the tile (R91). -/
structure Mesh where
  pkts : List Packet := []
  outst : List Access := []
  debts : List Debt := []
  holds : List Hold := []
  remResv : List (Nat × Nat) := []
  nextId : Nat := 0
  trunkInj : Tab Nat := []
  turnC : Tab Nat := []
  turnP : Tab Nat := []
  deriving DecidableEq, Repr

/-- The HBM stacks (R163 to R167). `err` marks 64-byte units: 1 a single-bit, 2 an uncorrectable error. -/
structure Hbm where
  bytes : Tab Byte := []
  err : Tab Nat := []
  inj : Tab Nat := []
  scrubAt : Tab Nat := []
  scrubDue : List Nat := []
  deriving DecidableEq, Repr

/-- A write that a source made in the present Hub cycle, or a read of it that was refused (R234): its source code, register
(offset of its 8 bytes and source copy), offset, and outcome: accepted, an ownership conflict, or discarded. -/
structure CycWrite where
  src : Nat
  slot : Nat
  off : Nat
  ok : Bool
  conflict : Bool
  read : Bool := false
  deriving DecidableEq, Repr

/-- The BAR0 side: the writes of the current Hub cycle (R230, R234), owners that a REASSIGN of this cycle replaced (R217),
counter latches (R319), and in `turns` the source of the last access of each register in this cycle (R230). -/
structure Bus where
  cycle : List CycWrite := []
  moved : List (Nat × Nat) := []
  turns : List (Nat × Nat) := []
  latch : Tab (BitVec 64) := []
  deriving DecidableEq, Repr

/-- A pending injection (R298). -/
structure Inj where
  point : Nat
  where_ : Nat
  ltile : Nat
  arg : Nat
  deriving DecidableEq, Repr

/-- RAS state beside its registers (R279 to R299). `suspAt`, `confAt` date the entries of the suspect table; `fenceDue`,
`fenceAt`, `fenceInj` give a pending fence its end of HOLD, the time it entered and whether it was injected; `extra` holds
engine fences that found the list full: physical field, tile, injected; `retire` the logical fields to be retired; `st` the
commanded test: kind, target, start; `hard` the bits that differ in each of the three copies of a hardened word from what was written (R293).
By physical tile, `lfsr` is the sampling LFSR (R279), `tested` the time of the last self-test, `late` the due time that ST_LATE has counted
(R291); `obsAt` dates the start of an observation, `relAt` the field release. -/
structure Ras where
  inj : List Inj := []
  suspAt : Tab Nat := []
  confAt : Tab Nat := []
  fenceDue : Tab Nat := []
  fenceAt : Tab Nat := []
  fenceInj : Tab Nat := []
  extra : List (Nat × Nat × Bool) := []
  st : Option (Nat × Nat × Nat) := none
  badTiles : List (Nat × Nat) := []
  badParts : List Nat := []
  hard : Tab (List Nat) := []
  lfsr : Tab (BitVec 32) := []
  obsAt : Tab Nat := []
  tested : Tab Nat := []
  late : Tab Nat := []
  relAt : Nat := 0
  notifyAt : Tab Nat := []
  notifyDue : List Nat := []
  retire : List Nat := []
  deriving DecidableEq, Repr

/-- A DATA flit in a replay buffer (R270). -/
structure SentFlit where
  seq : Nat
  vc : Nat
  dl : Nat
  fpo : Nat
  crVc : Nat
  crDl : Nat
  crCount : Nat
  body : List Byte
  deriving DecidableEq, Repr

/-- A request sent over a link and not yet seen answered (R276): the packet and the bytes answered so far. -/
structure SentReq where
  pkt : Packet
  got : Nat := 0
  deriving DecidableEq, Repr

/-- A Tchimel link beside its registers (R261 to R278). `phase` is the training state that RETRAIN is in (3 ALIGN, 4 CONFIG);
`since` when the state began; `width` the width chosen; `cfg` the last CTRL flit and how often it came; `credits` and `owed`
are keyed by VC * 2 + DL; `ack` is the last SEQ received in order, `seq` the next to be sent; `use` marks a link that its
bundle's choice counts (R267); `lost` are requests to be answered poisoned; `held` packets in the receive buffers and `wait` packets
of the edge die's own to be sent, by VC * 2 + DL (R271); `ctrlOut` the CTRL flit that this side sends (R265); `scr` the lanes' scramblers,
`wire` the symbols of each lane in the codeword sent last, `idleIn` DATA flits since the last IDLE flit (R261). -/
structure Link where
  phase : Nat := 0
  since : Nat := 0
  width : Nat := 0
  cfg : Option (CtrlFlit × Nat) := none
  use : Bool := false
  credits : Tab Nat := []
  owed : Tab Nat := []
  seq : Nat := 0
  ack : Nat := 2047
  nak : Bool := false
  replay : List SentFlit := []
  replays : Nat := 0
  progAt : Nat := 0
  nakAck : Option (Nat × Nat) := none
  retrains : List Nat := []
  out : List SentReq := []
  lost : List SentReq := []
  sym : Bool := false
  uncorr : Bool := false
  crc : Bool := false
  quiet : Bool := false
  held : List (Nat × LinkPkt) := []
  wait : List (Nat × LinkPkt) := []
  ctrlOut : Option CtrlFlit := none
  scr : Tab Nat := []
  wire : List (List Nat) := []
  idleIn : Nat := 0
  deriving DecidableEq, Repr

/-- What the power manager keeps of a logical field beside its registers (R306 to R314): its three movable ceilings as
operating points, its lent and borrowed credit in quarter watts, the first wake of a recall under way, and times; `railAt` is when
a rise of its rail ends. -/
structure PFld where
  therm : Nat := 0
  cur : Nat := 0
  env : Nat := 0
  lent : Nat := 0
  borrowed : Nat := 0
  recallAt : Option Nat := none
  thermAt : Nat := 0
  curAt : Nat := 0
  injUntil : Nat := 0
  railAt : Nat := 0
  clampAt : Option Nat := none
  deriving DecidableEq, Repr

/-- Power manager state beside its registers (R300 to R321). -/
structure Pwr where
  fld : Tab PFld := []
  free : Nat := 0
  hbmHot : List Nat := []
  envAt : Nat := 0
  lowSince : Option Nat := none
  excess : Bool := false
  energyRem : Nat := 0
  rampAt : Tab Nat := []
  deriving DecidableEq, Repr

/-- A burn of the lifecycle bytes under way (R332): the new byte, when it started, copies done. -/
structure LcBurn where
  value : Nat
  start : Nat
  done : Nat := 0
  deriving DecidableEq, Repr

/-- A STAGE or RETURN under way (R339, R340): OP, KIND, header, body, when the engine started, whether it has returned VALID,
and whether injection 0x21 met it. -/
structure Verify where
  op : Nat
  kind : Nat
  header : List Byte
  body : List Byte
  start : Nat
  valid : Bool := false
  inj : Bool := false
  deriving DecidableEq, Repr

/-- Boot and security state beside its registers (R322 to R343): the OTP, the defect store, what the factory record in it says
(its layout is not given: bad tiles, bad parts, twin links), the image store (slot s at s * 2^25), the booted microcode, the
boot under way with the start of its step, a pending ARM (source, time), a burn and a command under way. -/
structure Sec where
  otp : Tab Byte := []
  store : Tab Byte := []
  facTiles : List (Nat × Nat) := []
  facParts : List Nat := []
  facTwin : Tab Nat := []
  images : Tab Byte := []
  mc : Tab Byte := []
  released : Bool := false
  booting : Bool := false
  bootStart : Nat := 0
  stepStart : Nat := 0
  arm : Option (Nat × Nat) := none
  burn : Option LcBurn := none
  verify : Option Verify := none
  deriving DecidableEq, Repr

/-- A page of the Sloe flash (R372): programs since its erase; 0 ERASED, 1 DONE, 2 TORN. -/
structure FPage where
  progs : Nat := 0
  st : Nat := 0
  deriving DecidableEq, Repr

/-- A flash operation (R373 to R378): its command, address, data, completed pulses, suspends, the start of the current pulse. -/
structure FOp where
  cmd : Nat
  addr : Nat
  data : List Byte := []
  pulses : Nat := 0
  susp : Nat := 0
  since : Nat
  suspended : Bool := false
  deriving DecidableEq, Repr

/-- A value of the calculator (R361): sign, 15-digit mantissa (0 or 10^14 to 10^15 - 1), exponent of its first digit. -/
structure CVal where
  neg : Bool := false
  m : Nat := 0
  e : Int := 0
  deriving DecidableEq, Repr

/-- The operations of the calculator. -/
inductive COp where
  | add | sub | mul | div
  deriving DecidableEq, Repr

/-- The calculator (R361, R362): the displayed value; whether it is a new operand; the digits of an entry with its decimals
and sign; the pending operation with its first operand; the last operation with its second operand; memory; error. -/
structure Calc where
  x : CVal := {}
  have_ : Bool := false
  entry : Option (List Nat × Option Nat × Bool) := none
  pend : Option (CVal × COp) := none
  last : Option (COp × CVal) := none
  mem : CVal := {}
  err : Bool := false
  deriving DecidableEq, Repr

/-- An image that SMBus delivers to the ROM (R368): the next offset, its bytes so far, and the slot. -/
structure ImgIn where
  next : Nat
  bytes : List Byte
  slot : Nat
  deriving DecidableEq, Repr

/-- The Sloe beside its registers (R344 to R390). `ringNo` is the number of the next ring entry, `ringHave` the entries held;
`stage` the power stage; `stbyAt` the entry into STANDBY from CELL that AUTO_ON counts from; `keys` the last sample of each key
and its count; `monitor` says that the ROM monitor holds the core (R338), `slot` the slot booted; `fnAt` the start of the chord
timer; `active`, `ref` the active frame and its reference CRC; `page` the menu shown and the item within it; `pages` 0 to 2047 and 2048 for the option area, `sectors` 0 OK, 1 TORN_ERASE, 2 ERASING, 128 for
the option area; `fop`, `held` the flash operation and the suspended erase behind it; `logNext` the next log slot; `lc` the LC
wire as last sensed; `relay` a relay access: write, offset, value. -/
structure Sloe where
  core : Tile := { pc := 0x4000 }
  monitor : Bool := true
  stopped : Bool := false
  ring : Tab Byte := []
  ringNo : Nat := 0
  ringHave : Nat := 0
  alertRing : Bool := false
  rtcBase : Nat := 0
  rtcAt : Nat := 0
  stage : Bool := false
  stbyAt : Option Nat := none
  keys : Tab (Bool × Nat) := []
  fifo : List (Nat × Bool) := []
  lastPress : Nat := 0
  fnAt : Option Nat := none
  active : Tab Byte := []
  ref : Nat := 0
  wet : Nat := 0
  leakAt : Nat := 0
  lockAt : Option Nat := none
  page : Nat × Nat := (0, 0)
  calculator : Calc := {}
  flash : Tab Byte := []
  opt : Tab Byte := []
  cal : Tab Byte := []
  pages : Tab FPage := []
  sectors : Tab Nat := []
  fop : Option FOp := none
  held : Option FOp := none
  password : DWord := 0
  logNext : Nat := 0
  slot : Nat := 0
  lc : Nat := 0
  regAddr : Nat := 0
  regRes : Nat := 0
  ringSel : Nat := 0
  bootStat : DWord := 0
  smbOut : List Byte := []
  smbNack : Bool := false
  img : Option ImgIn := none
  imgCode : Nat := 0
  relay : Option (Bool × Nat × Nat) := none
  deriving DecidableEq, Repr

/-- The whole block. -/
structure State where
  now : Nat
  freeCtr : Nat
  bus : Bus
  regs : Tab DWord
  hbm : Hbm
  tiles : Tab Tile
  fields : Tab Field
  hub : Hub
  ports : Tab PortSt
  mesh : Mesh
  links : Tab Link
  ras : Ras
  pwr : Pwr
  sec : Sec
  sloe : Sloe
  hostOut : List HostOut
  hostAns : List HostAns
  hostGet : List HostGet
  msix : List Msix
  pending : List Instr
  deriving DecidableEq, Repr

/-- Reasons to stop with a fault. The spec stops the block on no command, so no meaning raises one. -/
inductive Fault where
  /-- Raised by no meaning: every fault of the spec is recorded in State and the block goes on. Safe. -/
  | none
  deriving DecidableEq, Repr

/-- Reasons to refuse a command. -/
inductive Refusal where
  /-- Raised by the dispatcher for a command that has no meaning yet. Safe: nothing is claimed of it. -/
  | notModelled (mnemonic : String)
  deriving DecidableEq, Repr

/-- The block at its reset values: every register as the register tables give it, memories with nothing listed, queues empty;
the Sloe in CELL with its core at the ROM (R347, Table 16.10), no domain on, no boot step done. -/
def State.reset : State :=
  { now := 0, freeCtr := 0, bus := {}, regs := [], hbm := {}, tiles := [], fields := [], hub := {}, ports := [],
    mesh := {}, links := [], ras := {}, pwr := {}, sec := {}, sloe := {}, hostOut := [], hostAns := [],
    hostGet := [], msix := [], pending := [] }

end Sys2Proof.Machine
end

