-- ==== Sys2Proof/Machine/Ops.lean ====
section
/-! DEFINITION. The named operations over registers, tiles, fields and time that the meanings share. -/

namespace Sys2Proof.Machine

open Sys2Proof

/-- The outcome of every meaning. -/
abbrev Out := Host.Outcome State Fault Refusal

/-! ### Registers (R8, R12, R17, R45) -/

/-- The place of a register in the order of `Reg`. -/
def Reg.idx (r : Reg) : Nat := r.ctorIdx

/-- The key of element (i, j) of register `r` in source copy `src` (0 where the register exists once). -/
def rkey (r : Reg) (i j src : Nat) : Nat := r.idx + 1024 * (src + 8 * (i + 1024 * j))

/-- The reset value that the fields of a register give. -/
def resetOf : List FieldDesc → Nat
  | [] => 0
  | f :: fs => f.reset * 2 ^ f.lsb + resetOf fs

/-- The reset value of a register. -/
def Reg.resetVal (r : Reg) : Nat := resetOf r.desc.fields

/-- The stored value of a register. -/
def State.reg (s : State) (r : Reg) (i j src : Nat) : Nat :=
  (Tab.get (fun _ => BitVec.ofNat 64 r.resetVal) s.regs (rkey r i j src)).toNat

/-- Store a register. -/
def State.setReg (s : State) (r : Reg) (i j src v : Nat) : State :=
  { s with regs := Tab.insert s.regs (rkey r i j src) (BitVec.ofNat 64 v) }

/-- The stored value of a field of a register. -/
def State.getF (s : State) (fl : Fld) (i : Nat := 0) (j : Nat := 0) (src : Nat := 0) : Nat :=
  bitsOf (s.reg fl.reg i j src) fl.lsb fl.width

/-- Store a field of a register; its other bits keep their value. -/
def State.setF (s : State) (fl : Fld) (v : Nat) (i : Nat := 0) (j : Nat := 0) (src : Nat := 0) : State :=
  s.setReg fl.reg i j src (putBits (s.reg fl.reg i j src) fl.lsb fl.width v)

/-- Whether a one-bit field reads 1. -/
def State.flag (s : State) (fl : Fld) (i : Nat := 0) (j : Nat := 0) (src : Nat := 0) : Bool :=
  s.getF fl i j src != 0

/-- Count in a counter field that saturates at its width. -/
def State.countF (s : State) (fl : Fld) (n : Nat) (i : Nat := 0) (j : Nat := 0) (src : Nat := 0) : State :=
  s.setF fl (satAdd (2 ^ fl.width - 1) (s.getF fl i j src) n) i j src

/-- Write one register from its fields: value and place. -/
def packF (l : List (Fld × Nat)) : Nat := l.foldl (fun a x => putBits a x.1.lsb x.1.width x.2) 0

/-- What a register holds after a write under its access codes (Table 0.1): RO and WO fields keep, RWL keeps when locked. -/
def accWrite (locked : Bool) (old v : Nat) (fs : List FieldDesc) : Nat :=
  fs.foldl (fun a f =>
    let o := bitsOf old f.lsb f.width
    let n := bitsOf v f.lsb f.width
    match f.acc with
    | .rw => putBits a f.lsb f.width n
    | .rwl => if locked then a else putBits a f.lsb f.width n
    | .w1c => putBits a f.lsb f.width (o &&& (o ^^^ n))
    | .w1s => putBits a f.lsb f.width (o ||| n)
    | .ro => a
    | .wo => a) old

/-- What a register reads as: its fields, WO ones and reserved bits 0 (R6, R7). -/
def accRead (v : Nat) (fs : List FieldDesc) : Nat :=
  fs.foldl (fun a f => if f.acc = .wo then a else putBits a f.lsb f.width (bitsOf v f.lsb f.width)) 0

/-- The BAR0 offset of element (i, j) of a register. -/
def Reg.offset (r : Reg) (i j : Nat) : Nat := r.desc.base + i * r.desc.s1 + j * r.desc.s2

/-- The element of a register that lies at a BAR0 offset. -/
def Reg.locate (r : Reg) (off : Nat) : Option (Nat × Nat) :=
  let d := r.desc
  let x := off - d.base
  let ij : Nat × Nat :=
    if d.s2 ≤ d.s1 then (x / d.s1, (x - x / d.s1 * d.s1) / d.s2) else ((x - x / d.s2 * d.s2) / d.s1, x / d.s2)
  if d.base ≤ off ∧ ij.1 < d.n1 ∧ ij.2 < d.n2 ∧ x = ij.1 * d.s1 + ij.2 * d.s2 then some ij else none

/-- The register element at a BAR0 offset, if one lies there (R12). -/
def regAt (off : Nat) : Option (Reg × Nat × Nat) :=
  Reg.all.findSome? fun r => (r.locate off).map fun ij => (r, ij.1, ij.2)

/-! ### Tiles, fields, ports -/

/-- The key of a logical tile. -/
def tkey (f t : Nat) : Nat := f * 4900 + t

/-- A logical tile. -/
def State.tile (s : State) (f t : Nat) : Tile := Tab.get (fun _ => Tile.reset) s.tiles (tkey f t)

/-- Replace a logical tile. -/
def State.setTile (s : State) (f t : Nat) (x : Tile) : State :=
  { s with tiles := Tab.set (fun _ => Tile.reset) s.tiles (tkey f t) x }

/-- A logical field. -/
def State.field (s : State) (f : Nat) : Field := Tab.get (fun _ => Field.reset) s.fields f

/-- Replace a logical field. -/
def State.setField (s : State) (f : Nat) (x : Field) : State :=
  { s with fields := Tab.set (fun _ => Field.reset) s.fields f x }

/-- A field's sequencer. -/
def State.seq (s : State) (f : Nat) : Seq := (s.field f).seq

/-- Replace a field's sequencer. -/
def State.setSeq (s : State) (f : Nat) (q : Seq) : State := s.setField f { s.field f with seq := q }

/-- A field's dense block. -/
def State.dense (s : State) (f : Nat) : Dense := (s.field f).dense

/-- Replace a field's dense block. -/
def State.setDense (s : State) (f : Nat) (d : Dense) : State := s.setField f { s.field f with dense := d }

/-- A host port. -/
def State.port (s : State) (p : Nat) : PortSt := Tab.get (fun _ => PortSt.reset) s.ports p

/-- Replace a host port. -/
def State.setPort (s : State) (p : Nat) (x : PortSt) : State :=
  { s with ports := Tab.set (fun _ => PortSt.reset) s.ports p x }

/-- What the Hub keeps of a tenant. -/
def State.ten (s : State) (t : Nat) : Ten := Tab.get (fun _ => {}) s.hub.ten t

/-- Replace what the Hub keeps of a tenant. -/
def State.setTen (s : State) (t : Nat) (x : Ten) : State :=
  { s with hub := { s.hub with ten := Tab.set (fun _ => {}) s.hub.ten t x } }

/-- A table of a tenant (R171). -/
def State.tbl (s : State) (t n : Nat) : Tbl := Tab.get (fun _ => {}) s.hub.tables (t * 256 + n)

/-- Replace a table of a tenant. -/
def State.setTbl (s : State) (t n : Nat) (x : Tbl) : State :=
  { s with hub := { s.hub with tables := Tab.set (fun _ => {}) s.hub.tables (t * 256 + n) x } }

/-- The core that runs a tile instruction. -/
def State.core (s : State) : Site → Tile
  | .tile f t => s.tile f.val t.val
  | .sloe => s.sloe.core

/-- Replace the core that runs a tile instruction. -/
def State.setCore (s : State) (x : Site) (c : Tile) : State :=
  match x with
  | .tile f t => s.setTile f.val t.val c
  | .sloe => { s with sloe := { s.sloe with core := c } }

/-! ### Free values -/

/-- The next free value and the state that has drawn it. -/
def State.draw (s : State) : DWord × State := (Config.freeValue s.freeCtr, { s with freeCtr := s.freeCtr + 1 })

/-! ### Tenants, fields and the map -/

/-- STATE of a tenant (Table 10.1): 0 FREE, 1 CONFIG, 2 ACTIVE, 3 STOPPING. -/
def State.tenState (s : State) (t : Nat) : Nat := s.getF F.hubTenStat_STATE t

/-- The bit of field `f` in the mask of tenant `t` (Table 10.4). -/
def State.inMask (s : State) (t f : Nat) : Bool :=
  if f < 64 then bitsOf (s.getF F.hubTenFields0_MASK_LO t) f 1 = 1
  else bitsOf (s.getF F.hubTenFields1_MASK_HI t) (f - 64) 1 = 1

/-- A field belongs to a tenant (R219). -/
def State.belongs (s : State) (t f : Nat) : Bool :=
  s.inMask t f && (s.tenState t == 2 || s.tenState t == 3)

/-- The numbers below `n`. -/
def upTo (n : Nat) : List Nat := List.range n

/-- The tenants a field belongs to, in ascending order (R219). -/
def State.tenantsOf (s : State) (f : Nat) : List Nat := (upTo 16).filter fun t => s.belongs t f

/-- The fields of a tenant's mask, in ascending order. -/
def State.maskFields (s : State) (t : Nat) : List Nat := (upTo 92).filter fun f => s.inMask t f

/-- A logical field is offline (R43). -/
def State.offline (s : State) (f : Nat) : Bool := s.flag F.fldId_OFFLINE f

/-- The physical field that holds a logical field (Table 2.4). -/
def State.pfield (s : State) (f : Nat) : Nat := s.getF F.fldId_PFIELD f

/-- The field has been released (boot step "field release", R44, R324) and the unit runs. -/
def State.released (s : State) : Bool := s.sec.released

/-- The physical row of a logical row, and the physical column of a logical column in it (R31). -/
def State.ptileXY (s : State) (f t : Nat) : Nat × Nat :=
  let lx := t % 70
  let ly := t / 70
  let r0 := s.getF F.fldMapRows_SKIP_ROW0 f
  let r1 := s.getF F.fldMapRows_SKIP_ROW1 f
  let y0 := if r0 ≤ ly then ly + 1 else ly
  let y := if r1 ≤ y0 then y0 + 1 else y0
  let c0 := s.getF F.fldColskip_SKIP_COL0 f y
  let c1 := s.getF F.fldColskip_SKIP_COL1 f y
  let x0 := if c0 ≤ lx then lx + 1 else lx
  let x := if c1 ≤ x0 then x0 + 1 else x0
  (x, y)

/-- The physical tile number of a logical tile: py × 72 + px (Table 2.8). -/
def State.ptile (s : State) (f t : Nat) : Nat := (s.ptileXY f t).2 * 72 + (s.ptileXY f t).1

/-- The home stack of a physical field (R30), as the map registers give it. -/
def State.homeStack (s : State) (pf : Nat) : Nat := s.getF F.fldPmap_HOME_STACK pf

/-! ### The Sloe's record (R357 to R360) -/

/-- Seconds of the real-time clock. -/
def State.rtc (s : State) : Nat := (s.sloe.rtcBase + (s.now - s.sloe.rtcAt) / 1000000000) % 2 ^ 32

/-- SMBALERT# is asserted while an alarm is pending or a ring entry was written since the last ARA read (R366). -/
def State.alertUpdate (s : State) : State :=
  s.setF F.sloSmb_ALERT (bit (s.getF F.sloAlarm_PENDING != 0 || s.sloe.alertRing))

/-- Write an entry into the retained ring (Table 16.7): SOURCE, CODE, ARG. -/
def State.ringPut (s : State) (src code arg : Nat) : State :=
  if s.sloe.stopped then s
  else
    let k := s.sloe.ringNo
    let e := bytesLE 4 s.rtc ++ bytesLE 1 src ++ bytesLE 1 code ++ bytesLE 1 (s.getF F.sloMode_MODE) ++ bytesLE 1 0
      ++ bytesLE 4 arg ++ bytesLE 4 k
    let p := s.getF F.sloRing_PEND
    let s1 := { s with sloe := { s.sloe with
      ring := Tab.writeBytes zeroByte s.sloe.ring (k % 64 * 16) e, ringNo := (k + 1) % 2 ^ 32,
      ringHave := min 64 (s.sloe.ringHave + 1), alertRing := true } }
    let s2 := s1.setF F.sloRing_HEAD ((k + 1) % 64)
    (if p = 64 then s2.countF F.sloRing_OVF 1 else s2.setF F.sloRing_PEND (p + 1)).alertUpdate

/-- Raise alarm `k` (Table 16.6): its condition is in force, it is pending, the ring records it. -/
def State.alarmRaise (s : State) (k arg : Nat) : State :=
  let s1 := s.setF F.sloAlarm_NOW (s.getF F.sloAlarm_NOW ||| 2 ^ (k - 1))
  (s1.setF F.sloAlarm_PENDING (s1.getF F.sloAlarm_PENDING ||| 2 ^ (k - 1))).ringPut 0 k arg

/-- The condition of alarm `k` ends. -/
def State.alarmClear (s : State) (k : Nat) : State :=
  let n := s.getF F.sloAlarm_NOW
  if bitsOf n (k - 1) 1 = 1 then (s.setF F.sloAlarm_NOW (putBits n (k - 1) 1 0)).ringPut 0 (0x80 + k) 0 else s

/-- The condition of alarm `k` is in force. -/
def State.alarmNow (s : State) (k : Nat) : Bool := bitsOf (s.getF F.sloAlarm_NOW) (k - 1) 1 == 1

/-- Acknowledge the alarms of a mask (R358); the lid latch of AL03 is released with its alarm (assumption 22). -/
def State.alarmAck (s : State) (m : Nat) : State :=
  let p := s.getF F.sloAlarm_PENDING
  let s1 := s.setF F.sloAlarm_PENDING (p &&& (31 ^^^ m % 32))
  (if bitsOf m 2 1 = 1 then s1.alarmClear 3 else s1).alertUpdate

/-- The lid latch is set (Table 16.6, AL03); it is already set while its condition is in force. -/
def State.lidOpened (s : State) : State := if s.sloe.stopped || s.alarmNow 3 then s else s.alarmRaise 3 0

/-! ### RAS events (R295, R296) -/

/-- The facts of a RAS event record beside its number and time (Table 13.2). -/
structure RasRec where
  kind : Nat
  tenant : Nat := 0
  injected : Bool := false
  lfield : Nat := 0x7F
  pfield : Nat := 0x7F
  ltile : Nat := 0
  ptile : Nat := 0
  arg : Nat := 0
  deriving DecidableEq, Repr

/-- Word 0 of the record. -/
def RasRec.word0 (r : RasRec) : Nat :=
  r.kind % 256 + (r.tenant % 16) * 2 ^ 8 + bit r.injected * 2 ^ 12 + (r.lfield % 128) * 2 ^ 13
    + (r.pfield % 128) * 2 ^ 20 + (r.ltile % 8192) * 2 ^ 27 + (r.ptile % 8192) * 2 ^ 40

/-- Write a RAS event into the log; the ports of `RAS_CTRL`.NOTIFY are due a message, and the Sloe's ring records the kinds of
its mask (R295, R296, R359). -/
def State.rasEvent (s : State) (r : RasRec) : State :=
  let e := s.getF F.rasLogTail_TAIL
  let i := e % 256
  let s := s.setReg .rasLog i 0 0 r.word0
  let s := s.setReg .rasLog i 1 0 s.now
  let s := s.setReg .rasLog i 2 0 r.arg
  let s := s.setReg .rasLog i 3 0 e
  let s := s.setF F.rasLogTail_TAIL (e + 1)
  let s := { s with ras := { s.ras with
      notifyDue := (upTo 4).filter (fun p => s.ras.notifyDue.contains p || bitsOf (s.getF F.rasCtrl_NOTIFY) p 1 == 1) } }
  if r.kind ≠ 0 ∧ bitsOf (s.getF F.sloEvtMask_KINDS) r.kind 1 = 1 then s.ringPut 1 r.kind r.arg else s

/-- Count in a 48-bit counter: at its largest value it saturates, sets its OVF bit and raises COUNTER_OVF once (R299, R318). -/
def State.count48 (s : State) (r : Reg) (n i j : Nat) : State :=
  let c := bitsOf (s.reg r i j 0) 0 48
  if s.flag F.hubCntCtrl_FREEZE then s
  else if c + n < 2 ^ 48 - 1 then s.setReg r i j 0 (putBits (s.reg r i j 0) 0 48 (c + n))
  else if c = 2 ^ 48 - 1 then s
  else
    let s := s.setReg r i j 0 (putBits (putBits (s.reg r i j 0) 0 48 (2 ^ 48 - 1)) 63 1 1)
    s.rasEvent { kind := 0x0E, arg := r.offset i j }

/-- A POISON event: an uncorrectable error counted by detector `code` (Table 13.3), in logical field `lf` where that is below 92. -/
def State.poisonEvent (s : State) (code lf : Nat) (inj : Bool) : State :=
  s.rasEvent { kind := 0x0C, injected := inj, lfield := if lf < 92 then lf else 0x7F, pfield := if lf < 92 then s.pfield lf else 0x7F, arg := code }

/-! ### Time and progress -/

/-- The field clock in MHz by operating point (Table 14.1). -/
def opMhz (op : Nat) : Nat := ([1250, 1200, 1150, 1100, 1000, 900, 750, 600])[op]?.getD 600

/-- Thousandths of a cycle that a field's clock has made. -/
def State.fieldCyc (s : State) (f : Nat) : Nat :=
  (s.field f).cyc + (s.now - (s.field f).cycAt) * opMhz (s.getF F.pwrFldStat_OP f)

/-- A progress event of a field's deadlock detector (R204): its counter restarts. -/
def State.progress (s : State) (f : Nat) : State := s.setField f { s.field f with dlSince := s.now, dlCyc := 0 }

/-- A wake of a field (R202): its quiet time restarts; a lending field recalls its credit. -/
def State.wake (s : State) (f : Nat) : State :=
  s.setField f { s.field f with quietSince := s.now, woken := true }

/-- A request of a tenant is in flight in a field (R182). -/
def Req.fliesIn (r : Req) (t f : Nat) : Bool := r.out && r.tenant == t && r.fields.contains f && !r.ended.contains f

/-- The request that a field serves for a tenant: in T mode the one its schedule runs, in M mode the one RQTAKE took last, where
that is the tenant's and in flight there; else the tenant's oldest in flight there (assumption 121). -/
def State.reqOf (s : State) (f t : Nat) : Option Nat :=
  let q := s.seq f
  let k := if s.flag F.seqStat_MODE f then q.curReq else q.taken
  let l := s.hub.reqs.filter fun r => r.fliesIn t f
  match l.find? (fun r => some r.slot == k) with
  | some r => some r.slot
  | none => l.head?.map (·.slot)

/-- A status joins those of the request in a slot (R19). -/
def State.addStat (s : State) (slot : Option Nat) (st : Nat) : State :=
  { s with hub := { s.hub with
    reqs := s.hub.reqs.map fun r => if r.out && some r.slot == slot then { r with stats := r.stats ++ [st] } else r } }

/-- Deliver an EVWAIT record to a sequencer (R114); an event is progress (R204). -/
def State.seqEvent (s : State) (f : Nat) (e : EvRec) : State :=
  ((s.setSeq f { s.seq f with events := (s.seq f).events ++ [e] }).progress f).wake f

end Sys2Proof.Machine
end

