-- ==== Sys2Proof/Machine/Access.lean ====
section
/-! DEFINITION. Global addresses (R10), protection windows (R225, R226), and issuing an access into the mesh (R128 to R135). -/

namespace Sys2Proof.Machine

open Sys2Proof

/-- The HBM size, 576 GiB (R10). -/
def hbmSize : Nat := 0x9000000000

/-- GA[47:44]. -/
def gaSpace (ga : Nat) : Nat := bitsOf ga 44 4

/-- The logical field and tile of a tile-space address (Table 0.3). -/
def gaField (ga : Nat) : Nat := bitsOf ga 37 7
def gaTile (ga : Nat) : Nat := bitsOf ga 24 13
def gaOff (ga : Nat) : Nat := bitsOf ga 0 16

/-- The far-tier size in bytes: the sum of the enabled segments, capped at 4 TiB (R257). -/
def State.farSize (s : State) : Nat :=
  let g := (upTo 4).foldl (fun a p => a + if s.flag F.prtFar_EN p then s.getF F.prtFar_SIZE p else 0) 0
  (if g > 4096 then 4096 else g) * 2 ^ 30

/-- The first byte of a port's far-tier segment: the enabled segments are packed in port order (R257). -/
def State.farStart (s : State) (p : Nat) : Nat :=
  (upTo p).foldl (fun a q => a + if s.flag F.prtFar_EN q then s.getF F.prtFar_SIZE q else 0) 0 * 2 ^ 30

/-- The port and host address that a far-tier address maps to; port 4 when none does. -/
def State.farMap (s : State) (a : Nat) : Nat × Nat :=
  match (upTo 4).find? (fun p => s.flag F.prtFar_EN p && decide (s.farStart p ≤ a)
      && decide (a < s.farStart p + s.getF F.prtFar_SIZE p * 2 ^ 30)) with
  | some p => (p, s.getF F.prtFar_HOST_BASE p * 2 ^ 30 + (a - s.farStart p))
  | none => (4, 0)

/-- A global address is valid under R10. -/
def State.gaValid (s : State) (ga : Nat) : Bool :=
  if gaSpace ga = 0 then decide (ga < hbmSize)
  else if gaSpace ga = 1 then
    decide (gaField ga < 92) && decide (gaTile ga < 4900) && bitsOf ga 16 8 == 0
      && (decide (gaOff ga < 0xC000) || (decide (0xD000 ≤ gaOff ga) && decide (gaOff ga < 0xE000)))
      && !s.offline (gaField ga)
  else if gaSpace ga = 2 then decide (bitsOf ga 0 44 < s.farSize)
  else if gaSpace ga = 3 then bitsOf ga 26 18 == 0
  else false

/-- An HBM address in a system region: the top 512 MiB of its stack (R166). -/
def inSystem (a : Nat) : Bool := decide (a < hbmSize) && decide (0x8E0000000 ≤ a % 0x900000000)

/-- Some byte of an HBM range lies in a system region. -/
def rangeInSystem (a len : Nat) : Bool :=
  len != 0 && (List.range 16).any fun m => decide (a < (m + 1) * 0x900000000) && decide (m * 0x900000000 + 0x8E0000000 < a + len)

/-- The window `w` of tenant `t` (R225). -/
def State.window (s : State) (t w : Nat) : Win := Tab.get (fun _ => {}) s.hub.windows (t * 32 + w)

/-- A window grants an access of `len` bytes at `ga` that needs permission bit `p` of `HUB_WIN_PERM` (R226). -/
def Win.grants (x : Win) (ga len p : Nat) : Bool :=
  bitsOf x.perm 0 1 == 1 && bitsOf x.perm p 1 == 1 && decide (x.base ≤ ga) && decide (ga + len ≤ x.limit + 0x1000)

/-- The check of R226 for tenant `t`. Permissions: 1 R, 2 W, 3 A, 4 HOST_R, 5 HOST_W. -/
def State.winCheck (s : State) (t ga len p : Nat) : Bool :=
  !(gaSpace ga == 0 && rangeInSystem ga len) && (upTo 32).any fun w => (s.window t w).grants ga len p

/-- The tenant whose context holds a field (R219). -/
def State.residentIs (s : State) (f t : Nat) : Bool := (s.field f).resident == some t

/-- New checks of a tenant are held (R229). -/
def State.holding (s : State) (t : Nat) : Bool := s.flag F.hubWinDrain_HOLDING t

/-- The stack of an HBM address (R163). -/
def stackOf (a : Nat) : Nat := a / 0x900000000

/-- A stack is offline (R167). -/
def State.stackOff (s : State) (m : Nat) : Bool := s.flag F.hbmStat_OFFLINE m

/-- The kind of access, for the permission it needs (R226). -/
inductive Kind where
  | read | write | atomic
  deriving DecidableEq, Repr

/-- The permission bit of an access. -/
def Kind.perm : Kind → Nat
  | .read => 1
  | .write => 2
  | .atomic => 3

/-- The checks of a global access by tenant `t`, in the order of Table 3.6: alignment, R10, the atomic's target (R50, R90),
the windows (R226), the residency of a tile-space target (chapter 6, Corners). `al` 1 asks no alignment. -/
def State.gaCheck (s : State) (sys : Bool) (t ga len al : Nat) (k : Kind) : Option Cause :=
  if ga % al ≠ 0 then some .misaligned
  else if !s.gaValid ga then some .globalAddr
  else if k == .atomic && !(gaSpace ga == 0 || (gaSpace ga == 1 && decide (gaOff ga < 0xC000))) then some .globalAddr
  else if sys then none
  else if !s.winCheck t ga len k.perm then some .protection
  else if gaSpace ga == 1 && !s.residentIs (gaField ga) t then some .protection
  else none

/-- A check of tenant `t` with result `r` that R229 holds: the tests before the windows have passed. -/
def State.checkHeld (s : State) (t : Nat) (r : Option Cause) : Bool := s.holding t && (r == none || r == some .protection)

/-- The agent that serves an address (R131). -/
def State.homeOf (_ : State) (ga : Nat) : Agent :=
  if gaSpace ga = 0 then .hbm (stackOf ga)
  else if gaSpace ga = 1 then .tile (gaField ga) (gaTile ga)
  else if gaSpace ga = 2 then .far
  else .hub

/-- Where an agent stands on the mesh. -/
def State.nodeOf (s : State) (a : Agent) : Node :=
  match a with
  | .tile f t => .tile f t
  | .seq f => .router (s.pfield f)
  | .dense f => .router (s.pfield f)
  | .hbm m => .home m 0
  | .hub => .hub 0
  | .edge e => .edge e
  | .far => .hub 0
  | .host _ => .hub 0

/-- The class of a request (R130): Hub registers travel as maintenance. -/
def reqClass (ga : Nat) : PClass := if gaSpace ga = 3 then .maintenance else .request

/-- AGE of a packet injected now (Table 6.4). -/
def State.age (s : State) : Nat := s.now / 64 % 2 ^ 16

/-- Count one access of a tenant in its tier (R168, R170): units of 64 bytes. -/
def State.countTier (s : State) (t tier n : Nat) : State :=
  if tier = 0 then s else s.count48 .hubSpill ((n + 63) / 64) t (tier - 1)

/-- The tier of an access from physical field `pf` (Table 8.1). -/
def State.tierOf (s : State) (pf ga : Nat) : Nat :=
  if gaSpace ga = 0 then (if s.homeStack pf = stackOf ga then 1 else 2)
  else if gaSpace ga = 2 then 4 else 0

/-- An armed injection at point `p` with WHERE `w` (R298). -/
def State.injected (s : State) (p w : Nat) : Option Inj := s.ras.inj.find? fun i => i.point == p && i.where_ == w

/-- Use up an injection. -/
def State.useInj (s : State) (i : Inj) : State := { s with ras := { s.ras with inj := s.ras.inj.erase i } }

/-- The logical field of an agent, 92 when it has none. -/
def Agent.field : Agent → Nat
  | .tile f _ => f
  | .seq f => f
  | .dense f => f
  | _ => 92

/-- The aperture an HBM address falls in, and the remote unit and address it maps to (R272). -/
def State.aperture (s : State) (ga : Nat) : Option (Nat × Nat) :=
  let g := ga / 2 ^ 30
  if gaSpace ga ≠ 0 then none
  else ((upTo 16).find? fun j => s.flag F.tchRap_EN j && decide (s.getF F.tchRap_LBASE j ≤ g)
      && decide (g < s.getF F.tchRap_LBASE j + s.getF F.tchRap_SIZE j)).map fun j =>
    (s.getF F.tchRap_UNIT j, s.getF F.tchRap_RBASE j * 2 ^ 30 + (ga - s.getF F.tchRap_LBASE j * 2 ^ 30))

/-- The bundle of links that a packet for unit `d` takes next, and whether it crosses the dateline (R266, R267); empty when
the unit lies outside the arrangement. -/
def State.bundle (s : State) (d : Nat) : List Nat × Bool :=
  let u := s.getF F.tchUnit_UNIT
  let topo := s.getF F.tchUnit_TOPO
  let xd := s.getF F.tchUnit_XM1 + 1
  let yd := s.getF F.tchUnit_YM1 + 1
  let g := s.getF F.tchUnit_GSIZE
  if topo = 1 then
    if d ≥ xd * yd ∨ d = u then ([], false)
    else
      let go (from_ to_ dim lo : Nat) : List Nat × Bool :=
        let p := (to_ + dim - from_) % dim
        if p ≤ dim - p then ((upTo 4).map (· + lo), from_ == dim - 1) else ((upTo 4).map (· + (lo + 4)), from_ == 0)
      if d % xd ≠ u % xd then go (u % xd) (d % xd) xd 0 else go (u / xd) (d / xd) yd 8
  else if topo = 2 then
    if d ≥ g ∨ d = u then ([], false)
    else ((upTo 16).filter fun k => (u + k % (g - 1) + 1) % g == d, false)
  else ([], false)

/-- A Tchimel link. -/
def State.link (s : State) (k : Nat) : Link := Tab.get (fun _ => {}) s.links k

/-- Replace a Tchimel link. -/
def State.setLink (s : State) (k : Nat) (l : Link) : State := { s with links := Tab.set (fun _ => {}) s.links k l }

/-- A link is ACTIVE (Table 12.1). -/
def State.linkActive (s : State) (k : Nat) : Bool := s.getF F.tchLinkStat_STATE k == 5

/-- The link that a packet takes: number n mod A of the links its bundle's choice counts; none without a route, when no link
of the bundle is ACTIVE (R267, R276). -/
def State.routeLink (s : State) (d n : Nat) : Option Nat :=
  let b := (s.bundle d).1
  let u := b.filter fun k => (s.link k).use
  if b.any s.linkActive then u[n % u.length]? else none

/-- Where a packet for unit `unit` leaves: its agent at this unit's home, or the edge die of its first link (Table 2.2). -/
def State.target (s : State) (unit ga n : Nat) : Agent :=
  if unit = 256 then s.homeOf ga else .edge (((s.routeLink unit n).getD 0) / 2)

/-- The link number that R267 takes from a source node: SRC[12:0] + SRC[20:14]. -/
def Agent.srcSum : Agent → Nat
  | .tile f t => t + f
  | .seq f => f
  | .dense f => f
  | .hbm m => m
  | .edge e => e
  | _ => 0

/-- The window epoch under which a checker checks now: the commits not yet installed do not count (R228). -/
def State.checkedEpoch (s : State) (t : Nat) : Nat :=
  (s.getF F.hubWinEpoch_EPOCH t + 2 ^ 32 - (s.hub.commits.filter fun c => c.tenant == t).length % 2 ^ 32) % 2 ^ 32

/-- Issue an access to unit `unit`: a packet at the agent's node, and the record that its response is awaited. -/
def State.issueTo (s : State) (a : Agent) (sys : Bool) (t : Nat) (op : PktOp) (unit ga len : Nat) (data : List Byte)
    (pu : Purpose) : State :=
  let id := s.mesh.nextId
  let drop := (s.field a.field).dropInj && reqClass ga == .request
  let p : Packet :=
    { id := id, op := op, cls := reqClass ga, sys := sys, tenant := if sys then 0 else t, src := a,
      dst := s.target unit ga a.srcSum, unit := unit, purpose := pu, access := id, ga := ga, len := len, data := data, age := s.age, prev := s.nodeOf a, node := s.nodeOf a,
      hostAt := if unit = 256 ∧ gaSpace ga = 2 then s.farMap (bitsOf ga 0 44) else (4, 0) }
  let acc : Access :=
    { id := id, agent := a, purpose := pu, issued := s.now, ga := ga, winTenant := if sys then 16 else t,
      winEpoch := s.checkedEpoch t, far := gaSpace ga == 2 || unit != 256, unit := unit, hostPort := p.hostAt.1 }
  let s := if sys then s else s.countTier t (if unit = 256 then s.tierOf (s.pfield a.field) ga else 3) len
  let s := if drop then s.setField a.field { s.field a.field with dropInj := false } else s
  { s with mesh := { s.mesh with
      nextId := id + 1, outst := s.mesh.outst ++ [acc], pkts := if drop then s.mesh.pkts else s.mesh.pkts ++ [p] } }

/-- Issue an access at a local global address: one that falls in an aperture goes to its unit (R272). -/
def State.issue (s : State) (a : Agent) (sys : Bool) (t : Nat) (op : PktOp) (ga len : Nat) (data : List Byte)
    (pu : Purpose) : State :=
  match s.aperture ga with
  | some u => s.issueTo a sys t op u.1 u.2 len data pu
  | none => s.issueTo a sys t op 256 ga len data pu

/-- Cut data into responses of at most 256 bytes, in ascending address order (R128). -/
def chunks : Nat → List Byte → List (List Byte)
  | 0, d => [d]
  | k + 1, d => if d.length ≤ 256 then [d] else d.take 256 :: chunks k (d.drop 256)

/-- The source node number of an agent (Table 6.4 SRC): kind, logical field, index. -/
def Agent.node24 : Agent → Nat
  | .tile f t => f * 2 ^ 14 + t
  | .seq f => 2 ^ 21 + f * 2 ^ 14
  | .dense f => 2 * 2 ^ 21 + f * 2 ^ 14
  | .hbm m => 3 * 2 ^ 21 + m
  | .edge e => 5 * 2 ^ 21 + e
  | _ => 4 * 2 ^ 21

/-- OPC of a packet (Table 6.4). -/
def PktOp.opc : PktOp → Nat
  | .read => 0
  | .write => 1
  | .posted => 2
  | .atomic _ => 3
  | .readData => 4
  | .writeAck => 5
  | .maintRead => 8
  | .maintWrite => 9

/-- CLASS of a packet (Table 6.4). -/
def PClass.code : PClass → Nat
  | .request => 0
  | .response => 1
  | .sync => 2
  | .maintenance => 3

/-- A header (Table 6.4): OPC, CLASS, POISON, SYS, TENANT, payload bytes, SRC, TAG, ADDR, AGE. -/
def meshHeader (opc cls : Nat) (poison sys : Bool) (tenant n src tag addr age : Nat) : List Byte :=
  bytesLE 8 (opc + cls * 2 ^ 4 + bit poison * 2 ^ 6 + bit sys * 2 ^ 7 + (if sys then 0 else tenant % 16) * 2 ^ 8
    + ((n + 7) / 8 - 1) % 32 * 2 ^ 12 + src % 2 ^ 24 * 2 ^ 24 + tag % 2 ^ 16 * 2 ^ 48)
    ++ bytesLE 8 (addr % 2 ^ 48 + age % 2 ^ 16 * 2 ^ 48)

/-- The 16-byte header of a packet (R128); its TAG is the access it belongs to. -/
def Packet.header (p : Packet) : List Byte :=
  meshHeader p.op.opc p.cls.code (p.err == .poison) p.sys p.tenant p.data.length p.src.node24 p.access
    (if p.op == .readData || p.op == .writeAck then p.dst.node24 else p.ga) p.age

/-- A response to a request packet, injected at the node where the request was served; to a request of another unit it goes to
the edge die of its first link (R268). -/
def State.respond1 (s : State) (p : Packet) (op : PktOp) (err : RespErr) (okBit contend : Bool) (data : List Byte) : State :=
  let id := s.mesh.nextId
  let at_ := s.nodeOf p.dst
  let u := s.getF F.tchUnit_UNIT
  let r : Packet :=
    { id := id, op := op, cls := if p.cls == .maintenance then .maintenance else .response, err := err, sys := p.sys,
      tenant := p.tenant, src := p.dst, dst := p.src, purpose := p.purpose, access := p.access, ga := p.ga,
      len := data.length, data := data, okBit := okBit, contend := contend, age := s.age, prev := at_, node := at_ }
  let r1 := match p.ext with
    | none => r
    | some x =>
      { r with
        dst := s.target x.srcUnit.toNat p.ga p.dst.srcSum, unit := x.srcUnit.toNat,
        ext := some { x with
          dstUnit := x.srcUnit, srcUnit := BitVec.ofNat 8 u, hops := 0,
          op := if op = .writeAck then .writeAck else .readData, err := err, src := BitVec.ofNat 24 p.dst.node24,
          addr := BitVec.ofNat 48 x.src.toNat, len := data.length, data := data, ok := okBit, contend := contend } }
  { s with mesh := { s.mesh with nextId := id + 1, pkts := s.mesh.pkts ++ [r1] } }

/-- The responses to a request packet. -/
def State.respond (s : State) (p : Packet) (op : PktOp) (err : RespErr) (data : List Byte) (okBit contend : Bool) : State :=
  (chunks 8 data).foldl (fun s d => s.respond1 p op err okBit contend d) s

/-- A packet has reached its destination. -/
def Packet.arrived (p : Packet) : Bool := p.node == .done

/-- The oldest packet that has reached agent `a` and is a request (true) or a response (false). -/
def State.inbox (s : State) (a : Agent) (req : Bool) : Option Packet :=
  s.mesh.pkts.find? fun p => p.arrived && p.dst == a &&
    (if req then (p.op != .readData && p.op != .writeAck) else (p.op == .readData || p.op == .writeAck))

/-- Take a packet off the mesh. -/
def State.dropPkt (s : State) (id : Nat) : State :=
  { s with mesh := { s.mesh with pkts := s.mesh.pkts.filter fun p => p.id != id } }

/-- An access has been answered. -/
def State.closeAccess (s : State) (id : Nat) : State :=
  { s with mesh := { s.mesh with outst := s.mesh.outst.filter fun a => a.id != id } }

/-- The new value of an atomic ADD, SUB, AND, OR, XOR, MIN, MAX, MINU or MAXU of `n` bits, by its opcode (Table 5.6). -/
def rmwOp (op n old v : Nat) : Nat :=
  let o := old % 2 ^ n
  let w := v % 2 ^ n
  if op = 2 then (o + w) % 2 ^ n
  else if op = 3 then (o + 2 ^ n - w) % 2 ^ n
  else if op = 4 then o &&& w
  else if op = 5 then o ||| w
  else if op = 6 then o ^^^ w
  else if op = 11 then (if signedOf n o ≤ signedOf n w then o else w)
  else if op = 12 then (if signedOf n o ≤ signedOf n w then w else o)
  else if op = 13 then (if o ≤ w then o else w)
  else (if o ≤ w then w else o)

/-- An atomic at its home (R90, R106): the word written, if any, and whether an SC succeeded. -/
def atomHome (a : Atom) (n old : Nat) (scOk : Bool) : Option Nat × Bool :=
  match a with
  | .tas => (some 1, true)
  | .lr _ => (none, true)
  | .sc v => (if scOk then some v.toNat else none, scOk)
  | .rmw op v => (some (rmwOp op.toNat n old v.toNat), true)
  | .xchg v => (some v.toNat, true)
  | .cas x v => (if old % 2 ^ n = x.toNat % 2 ^ n then some v.toNat else none, true)

/-- `len` bytes at `ga` lie in part in granule `g`. -/
def inGranule (ga len g : Nat) : Bool := decide (ga < g * 64 + 64) && decide (g * 64 < ga + len)

/-- Break the reservations that tiles other than `by_` hold on the granules of `len` bytes at `ga`, by contention (R91). -/
def breakTiles (ga len : Nat) (by_ : Option Nat) : Tab Tile → Tab Tile
  | [] => []
  | (k, c) :: m =>
    (match c.resv with
     | .held gr _ =>
       if inGranule ga len gr = true ∧ by_ ≠ some k then (k, { c with resv := .lost true }) :: breakTiles ga len by_ m
       else (k, c) :: breakTiles ga len by_ m
     | _ => (k, c) :: breakTiles ga len by_ m)

/-- A write to the granules of `len` bytes at `ga` breaks every other tile's reservation on them (R91, R92). -/
def State.breakResv (s : State) (ga len : Nat) (by_ : Option Nat) : State :=
  { s with
    tiles := breakTiles ga len by_ s.tiles
    mesh := { s.mesh with remResv := s.mesh.remResv.filter fun x => !(inGranule ga len x.1 && by_ != some x.2) } }

/-- The key of a tile of another unit, above every key of a tile of this one. -/
def remKey (unit node : Nat) : Nat := (unit + 1) * 2 ^ 24 + node

/-- The granule of an address as its requester names it: one behind an aperture is a granule of its unit (R91, R272). -/
def State.granKey (s : State) (ga : Nat) : Nat :=
  match s.aperture ga with
  | some u => (u.1 + 1) * 2 ^ 48 + u.2 / 64
  | none => ga / 64

/-- The key of the tile that sent a packet. -/
def Packet.srcKey (p : Packet) : Option Nat :=
  match p.ext, p.src with
  | some x, _ => some (remKey x.srcUnit.toNat x.src.toNat)
  | none, .tile f t => some (tkey f t)
  | none, _ => none

/-- The tile of a key still holds its reservation on a granule. -/
def State.resvHeld (s : State) (key granule : Nat) : Bool :=
  if key < 2 ^ 24 then
    match (Tab.get (fun _ => Tile.reset) s.tiles key).resv with
    | .held g _ => g == granule
    | _ => false
  else s.mesh.remResv.contains (granule, key)

/-- A packet that R394 delays at the granule's home: another engine agent's write while a hold stands. -/
def State.held (s : State) (p : Packet) : Bool :=
  s.mesh.holds.any fun h =>
    h.granule == p.ga / 64 && p.srcKey != some h.key &&
    (match p.op with
     | .read => false
     | .atomic (.lr pri) => pri
     | _ => true)

/-- The reservation of a source tile, as its home sees it at an LR or SC (R91, R92, R394). -/
def State.homeResv (s : State) (p : Packet) : State :=
  let g := p.ga / 64
  match p.op, p.srcKey with
  | .atomic (.lr pri), some k =>
    let s1 := match p.ext, p.src with
      | none, .tile f t => s.setTile f t { s.tile f t with resv := .held g 0 }
      | _, _ => { s with mesh := { s.mesh with remResv := (s.mesh.remResv.filter fun x => x.2 != k) ++ [(g, k)] } }
    if pri then { s1 with mesh := { s1.mesh with holds := s1.mesh.holds ++ [⟨g, k, s.now⟩] } } else s1
  | .atomic (.sc _), some k =>
    { s with mesh := { s.mesh with
      holds := s.mesh.holds.filter (fun h => !(h.key == k && h.granule == g)),
      remResv := s.mesh.remResv.filter fun x => x.2 != k } }
  | _, _ => s

/-- An SC at its home succeeds while the source still holds the granule (R92). -/
def State.scHome (s : State) (p : Packet) : Bool :=
  match p.srcKey with
  | some k => s.resvHeld k (p.ga / 64)
  | none => false

/-- An SC that fails at its home lost its reservation by contention (R91). -/
def State.scContend (s : State) (p : Packet) : Bool :=
  match p.ext, p.src with
  | some _, _ => !s.scHome p
  | none, .tile f t =>
    (match (s.tile f t).resv with
     | .lost true => true
     | _ => false)
  | none, _ => false

end Sys2Proof.Machine
end

