-- ==== Sys2Proof/Machine/Crypto.lean ====
section
/-! DEFINITION. SHA-256, ECDSA verification over P-256 (R337), and the checks CRC-8 (R334) and CRC-16, CRC-32, as the standards
that the rules name define them (assumption 20). -/

namespace Sys2Proof.Machine

open Sys2Proof

/-! ### SHA-256 -/

/-- The greatest `r` below `2 ^ k` for which `r ^ n` is at most `x`, bit by bit from the top. -/
def rootBelow (n x k : Nat) : Nat := (List.range k).foldr (fun b r => if (r + 2 ^ b) ^ n ≤ x then r + 2 ^ b else r) 0

/-- The primes up to 311, of which there are 64. -/
def smallPrimes : List Nat := (List.range 312).filter fun n => decide (1 < n) && (List.range 18).all fun d => decide (d < 2) || decide (n ≤ d) || n % d != 0

/-- The first 32 bits of the fraction of a prime's `n`-th root. -/
def rootFraction (n p : Nat) : Nat := rootBelow n (p * 2 ^ (32 * n)) 37 % 2 ^ 32

/-- The round constants: from the cube roots of the first 64 primes. -/
def shaK : List Nat := smallPrimes.map (rootFraction 3)

/-- The initial hash value: from the square roots of the first 8 primes. -/
def shaInit : List Nat := (smallPrimes.take 8).map (rootFraction 2)

/-- Rotate a 32-bit word right. -/
def rotr (x k : Nat) : Nat := x / 2 ^ k + (x % 2 ^ k) * 2 ^ (32 - k)

/-- A number from bytes, most significant first. -/
def natBE (l : List Byte) : Nat := l.foldl (fun a b => a * 256 + b.toNat) 0

/-- The bytes of a number, most significant first. -/
def bytesBE (n v : Nat) : List Byte := (bytesLE n v).reverse

/-- Extend the message schedule by `n` words; the list holds the last 16 words, newest first. -/
def shaSched : Nat → List Nat → List Nat
  | 0, _ => []
  | n + 1, w =>
    let g (i : Nat) : Nat := w[i]?.getD 0
    let a := g 14
    let b := g 1
    let s0 := (rotr a 7 ^^^ rotr a 18) ^^^ (a / 2 ^ 3)
    let s1 := (rotr b 17 ^^^ rotr b 19) ^^^ (b / 2 ^ 10)
    let x := (g 15 + s0 + g 6 + s1) % 2 ^ 32
    x :: shaSched n (x :: w.take 15)

/-- One round. -/
def shaRound (h : List Nat) (kw : Nat) : List Nat :=
  let g (i : Nat) : Nat := h[i]?.getD 0
  let e := g 4
  let a := g 0
  let s1 := (rotr e 6 ^^^ rotr e 11) ^^^ rotr e 25
  let ch := (e &&& g 5) ^^^ ((2 ^ 32 - 1 - e) &&& g 6)
  let t1 := (g 7 + s1 + ch + kw) % 2 ^ 32
  let s0 := (rotr a 2 ^^^ rotr a 13) ^^^ rotr a 22
  let mj := ((a &&& g 1) ^^^ (a &&& g 2)) ^^^ (g 1 &&& g 2)
  [(t1 + s0 + mj) % 2 ^ 32, a, g 1, g 2, (g 3 + t1) % 2 ^ 32, e, g 5, g 6]

/-- One block of 64 bytes. -/
def shaBlock (h : List Nat) (b : List Byte) : List Nat :=
  let w := (List.range 16).map fun i => natBE ((b.drop (4 * i)).take 4)
  let ws := w ++ shaSched 48 w.reverse
  let r := (shaK.zip ws).foldl (fun h x => shaRound h (x.1 + x.2)) h
  (h.zip r).map fun x => (x.1 + x.2) % 2 ^ 32

/-- Hash `n` whole blocks. -/
def shaBlocks : Nat → List Nat → List Byte → List Nat
  | 0, h, _ => h
  | n + 1, h, b => shaBlocks n (shaBlock h (b.take 64)) (b.drop 64)

/-- SHA-256 of a message, as 32 bytes. -/
def sha256 (m : List Byte) : List Byte :=
  let pad := (119 - m.length % 64) % 64
  let x := m ++ [0x80] ++ List.replicate pad 0 ++ bytesBE 8 (8 * m.length)
  (shaBlocks (x.length / 64) shaInit x).flatMap (bytesBE 4)

/-! ### P-256 -/

/-- Field prime, order, coefficient b and base point. -/
def p256p : Nat := 0xffffffff00000001000000000000000000000000ffffffffffffffffffffffff
def p256n : Nat := 0xffffffff00000000ffffffffffffffffbce6faada7179e84f3b9cac2fc632551
def p256b : Nat := 0x5ac635d8aa3a93e7b3ebbd55769886bc651d06b0cc53b0f63bce3c3e27d2604b
def p256g : Nat × Nat :=
  (0x6b17d1f2e12c4247f8bce6e563a440f277037d812deb33a0f4a13945d898c296,
   0x4fe342e2fe1a7f9b8ee7eb4a7c0f9e162bce33576b315ececbb6406837bf51f5)

/-- b^e mod m for e below 2^fuel. -/
def powMod : Nat → Nat → Nat → Nat → Nat
  | 0, _, _, m => 1 % m
  | k + 1, b, e, m =>
    let r := powMod k (b * b % m) (e / 2) m
    if e % 2 = 1 then b * r % m else r

/-- Addition on the curve; `none` is the point at infinity. -/
def ecAdd (a b : Option (Nat × Nat)) : Option (Nat × Nat) :=
  match a, b with
  | none, q => q
  | q, none => q
  | some (x1, y1), some (x2, y2) =>
    let p := p256p
    if x1 = x2 ∧ (y1 + y2) % p = 0 then none
    else
      let l := if x1 = x2 then (3 * x1 * x1 + (p - 3)) * powMod 256 (2 * y1 % p) (p - 2) p % p
        else (y2 + (p - y1)) * powMod 256 ((x2 + (p - x1)) % p) (p - 2) p % p
      let x := (l * l + (p - x1) + (p - x2)) % p
      some (x, (l * (x1 + (p - x)) + (p - y1)) % p)

/-- k times a point, for k below 2^fuel. -/
def ecMul : Nat → Nat → Option (Nat × Nat) → Option (Nat × Nat)
  | 0, _, _ => none
  | f + 1, k, q =>
    let r := ecMul f (k / 2) (ecAdd q q)
    if k % 2 = 1 then ecAdd q r else r

/-- The signature check of R337 on key (x, y), digest and signature: a code of Table 15.8. -/
def ecdsa (x y r s : Nat) (digest : List Byte) : Nat :=
  if p256p ≤ x ∨ p256p ≤ y then 5
  else if x = 0 ∧ y = 0 then 6
  else if (y * y) % p256p ≠ (x * x * x + (p256p - 3) * x + p256b) % p256p then 7
  else if r = 0 ∨ p256n ≤ r then 3
  else if s = 0 ∨ p256n ≤ s then 4
  else
    let e := natBE digest
    let w := powMod 256 s (p256n - 2) p256n
    match ecAdd (ecMul 256 (e * w % p256n) (some p256g)) (ecMul 256 (r * w % p256n) (some (x, y))) with
    | none => 2
    | some (px, _) => if px % p256n = r then 1 else 2

/-! ### CRCs -/

/-- `n` bits of an MSB-first CRC of width `w`. -/
def crcBits : Nat → Nat → Nat → Nat → Nat
  | 0, _, _, c => c
  | n + 1, w, poly, c => crcBits n w poly (if bitsOf c (w - 1) 1 = 1 then ((c * 2) % 2 ^ w) ^^^ poly else c * 2 % 2 ^ w)

/-- An MSB-first CRC of width `w`, with no reflection. -/
def crcMSB (w poly init : Nat) (l : List Byte) : Nat :=
  l.foldl (fun c b => crcBits 8 w poly (c ^^^ (b.toNat * 2 ^ (w - 8)))) init

/-- CRC-8, polynomial 0x07, initial value 0 (R334, R366). -/
def crc8 (l : List Byte) : Nat := crcMSB 8 0x07 0 l

end Sys2Proof.Machine
end

