-- ==== Sys2Proof/Machine/LinkWire.lean ====
section
/-! DEFINITION. What goes over a Tchimel link: lanes and scrambler (R261), codewords (R262), packets and flits (R268, R269). -/

namespace Sys2Proof.Machine

open Sys2Proof

/-! ### Codewords (R262) -/

/-- The product of two elements of GF(2^8) with field polynomial 0x11D. -/
def gfMul (a b : Nat) : Nat :=
  (upTo 8).foldr (fun i r =>
    let d := if 128 ≤ r then (2 * r) ^^^ 0x11D else 2 * r
    if b.testBit i then d ^^^ a else d) 0

/-- The generator of RS(136,128), highest power first: roots 2^0 to 2^7 (assumption 136). -/
def rsGenerator : List Nat :=
  ((upTo 8).foldl (fun (g : List Nat × Nat) _ =>
    ((g.1 ++ [0]).zipWith (· ^^^ ·) (0 :: g.1.map (gfMul g.2)), gfMul g.2 2)) ([1], 1)).1

/-- The 8 parity symbols of 128 data symbols: the remainder of their division by the generator. -/
def rsParity (d : List Nat) : List Nat :=
  d.foldl (fun r x =>
    let q := x ^^^ r.headD 0
    (r.drop 1 ++ [0]).zipWith (· ^^^ ·) ((rsGenerator.drop 1).map (gfMul q))) (List.replicate 8 0)

/-- The FEC code that a codeword byte belongs to: (row + lane) mod 2. -/
def fecCode (i : Nat) : Nat := (i / 16 + i % 16) % 2

/-- The codeword of a flit: its 256 bytes and row 16, the parity of both codes. -/
def codeword (flit : List Byte) : List Byte :=
  let parity (c : Nat) : List Nat := rsParity (((flit.take 256).mapIdx fun i b => (i, b.toNat)).filterMap fun x =>
    if fecCode x.1 = c then some x.2 else none)
  flit ++ (upTo 16).map fun j => BitVec.ofNat 8 ((parity (j % 2))[j / 2]?.getD 0)

/-- What FEC makes of a codeword: none where a code has more than 4 bytes wrong, else whether it corrected any. -/
def fecPass (e : LineErrors) : Option Bool :=
  let n (c : Nat) : Nat := (e.bytes.filter fun i => fecCode i.val == c).length
  if n 0 > 4 ∨ n 1 > 4 then none else some (n 0 + n 1 != 0)

/-! ### Lanes (R261)

The order of a byte's bits on a lane, the seed that a lane's scrambler takes in ALIGN and the lane of a byte at half width are not in
the spec (assumption 136). -/

/-- One step of a lane's scrambler, x^31 + x^28 + 1: its output bit and its next state. -/
def scramStep (st : Nat) : Nat × Nat :=
  let o := (bitsOf st 30 1 + bitsOf st 27 1) % 2
  (o, (2 * st + o) % 2 ^ 31)

/-- The PAM4 symbol of two bits, the first the more significant, under Gray coding. -/
def graySymbol (a b : Nat) : Nat := 2 * a + (a + b) % 2

/-- The symbols of one scrambled byte, most significant bits first, and the scrambler's next state. -/
def scramByte (st : Nat) (b : Byte) : List Nat × Nat :=
  (upTo 4).foldl (fun r k =>
    let x := scramStep r.2
    let y := scramStep x.2
    (r.1 ++ [graySymbol ((bitsOf b.toNat (7 - 2 * k) 1 + x.1) % 2) ((bitsOf b.toNat (6 - 2 * k) 1 + y.1) % 2)], y.2)) ([], st)

/-- The symbols that one lane sends for its bytes, and its scrambler's next state. -/
def laneSymbols (st : Nat) (l : List Byte) : List Nat × Nat :=
  l.foldl (fun r b => let x := scramByte r.2 b; (r.1 ++ x.1, x.2)) ([], st)

/-- The lane of codeword byte `i` at a width of `TCH_LINK_STAT`. -/
def laneOfByte (width i : Nat) : Nat := if width = 1 then i % 8 else if width = 2 then 8 + i % 8 else i % 16

/-! ### Packets (R268) -/

/-- OPC of a link packet (Table 6.4). -/
def linkOpc : LinkOp → Nat
  | .read => 0
  | .write => 1
  | .posted => 2
  | .atomic _ => 3
  | .readData => 4
  | .writeAck => 5
  | .maintRead => 8
  | .other n => n.toNat

/-- The payload of a link packet: its data, or an atomic's operands. -/
def linkPayload (r : LinkPkt) : List Byte :=
  match r.op with
  | .atomic .tas => []
  | .atomic (.lr _) => []
  | .atomic (.sc v) => bytesLE 8 v.toNat
  | .atomic (.rmw _ v) => bytesLE 8 v.toNat
  | .atomic (.xchg v) => bytesLE 8 v.toNat
  | .atomic (.cas a v) => bytesLE 8 a.toNat ++ bytesLE 8 v.toNat
  | _ => r.data

/-- The routing prefix (Table 12.3). -/
def linkPrefix (r : LinkPkt) : List Byte :=
  bytesLE 8 (r.dstUnit.toNat + r.srcUnit.toNat * 2 ^ 8 + r.kind.toNat * 2 ^ 16 + r.hops.toNat * 2 ^ 18)

/-- A packet as it crosses a link: prefix, header of class `vc` and payload in whole 8-byte words. -/
def linkPktBytes (r : LinkPkt) (vc age : Nat) : List Byte :=
  let d := linkPayload r
  linkPrefix r ++ meshHeader (linkOpc r.op) vc (r.err == .poison) r.sys r.tenant.val d.length r.src.toNat r.tag.toNat r.addr.toNat age
    ++ d ++ List.replicate (7 - (d.length + 7) % 8) 0

/-- The bytes that a packet takes on a link. -/
def linkBytes (r : LinkPkt) : Nat := 24 + ((linkPayload r).length + 7) / 8 * 8

/-- Its credits, in 64-byte units (R271). -/
def linkCredits (r : LinkPkt) : Nat := (linkBytes r + 63) / 64

/-- The flits of 248 body bytes that it can take. -/
def linkFlits (r : LinkPkt) : Nat := (linkBytes r + 247) / 248

/-- The packet is a response. -/
def linkResp (r : LinkPkt) : Bool := r.op == .readData || r.op == .writeAck

/-! ### Flits (R269) -/

/-- Bits [39:0] of a flit's header (Table 12.4). -/
def headerBits (typ vc dl seq ack : Nat) (nak : Bool) (fpo crVc crDl crCount : Nat) : Nat :=
  typ + vc * 2 ^ 2 + dl * 2 ^ 4 + seq * 2 ^ 5 + ack * 2 ^ 16 + bit nak * 2 ^ 27 + fpo * 2 ^ 28 + crVc * 2 ^ 33 + crDl * 2 ^ 35
    + crCount * 2 ^ 36

/-- The header bits of a received DATA flit. -/
def flitHeader (f : DataFlit) : Nat :=
  headerBits f.typ.toNat f.vc.val f.dl.val f.seq.toNat f.ack.toNat f.nak f.fpo.toNat f.crVc.val f.crDl.val f.crCount.val

/-- The header bits of an IDLE flit: ACK, NAK and SEQ only. -/
def idleHeader (seq ack : Nat) (nak : Bool) : Nat := headerBits 0 0 0 seq ack nak 0 0 0 0

/-- The CRC-24 of a flit, over header bits [39:0] and then the body, most significant bit first. -/
def flitCrc (hdr : Nat) (body : List Byte) : Nat := crcMSB 24 0x5D6DCB 0xFFFFFF (bytesBE 5 hdr ++ body)

/-- The 256 bytes of a flit. -/
def flitBytes (hdr : Nat) (body : List Byte) : List Byte := bytesLE 8 (hdr + flitCrc hdr body * 2 ^ 40) ++ body

/-- The pieces of 248 bytes of packets packed back to back, each with its FPO; the rest of the last body is zero. -/
def packFlits (ps : List (List Byte)) : List (Nat × List Byte) :=
  let all := ps.flatten
  let starts := (ps.foldl (fun (a : List Nat × Nat) p => (a.1 ++ [a.2], a.2 + p.length)) ([], 0)).1
  (upTo ((all.length + 247) / 248)).map fun i =>
    let body := (all.drop (248 * i)).take 248
    ((match starts.find? fun a => decide (248 * i ≤ a) && decide (a < 248 * i + 248) with
      | some a => (a - 248 * i) / 8
      | none => 31), body ++ List.replicate (248 - body.length) 0)

end Sys2Proof.Machine
end

