-- ==== Sys2Proof/Machine/TileMem.lean ====
section
/-! DEFINITION. A tile's memory: SRAM (R47), control space (R49 to R51), queue windows (R57 to R61), mesh windows (R136),
the FIRE descriptor check (R119), and the trace of a sampled firing (R280). -/

namespace Sys2Proof.Machine

open Sys2Proof

/-! ### Registers of a core -/

/-- b`k`. -/
def Tile.breg (c : Tile) (k : Nat) : Nat := (Tab.get (fun _ => (0 : Word)) c.b k).toNat

/-- Set b`k` modulo 2^32 (R53). -/
def Tile.setB (c : Tile) (k v : Nat) : Tile := { c with b := Tab.set (fun _ => (0 : Word)) c.b k (BitVec.ofNat 32 v) }

/-- A field of TS. -/
def Tile.tsGet (c : Tile) (lo w : Nat) : Nat := bitsOf c.ts.toNat lo w

/-- Set a field of TS. -/
def Tile.tsPut (c : Tile) (lo w v : Nat) : Tile := { c with ts := BitVec.ofNat 32 (putBits c.ts.toNat lo w v) }

/-- Bits of TS (Table 3.8). -/
def Tile.fault (c : Tile) : Bool := c.tsGet 6 1 == 1
def Tile.repeat_ (c : Tile) : Bool := c.tsGet 7 1 == 1
def Tile.slot (c : Tile) : Nat := c.tsGet 16 3
def Tile.fired (c : Tile) : Bool := c.tsGet 19 1 == 1
def Tile.waiting (c : Tile) : Bool := c.tsGet 20 1 == 1
def Tile.qstall (c : Tile) : Bool := c.tsGet 21 1 == 1

/-- The flags of TS. -/
def Tile.flg (c : Tile) : Flg := Flg.of c.ts.toNat

/-- Set the flags of TS. -/
def Tile.setFlg (c : Tile) (g : Flg) : Tile := c.tsPut 0 4 g.bits

/-- `TIL_MODE` (Table 3.9). -/
def Tile.fxrnd (c : Tile) : Nat := bitsOf c.mode.toNat 0 2
def Tile.sat (c : Tile) : Bool := bitsOf c.mode.toNat 2 1 == 1
def Tile.decProp (c : Tile) : Bool := bitsOf c.mode.toNat 3 1 == 1

/-- START and END of a circular buffer (Table 3.10). -/
def Tile.circ (c : Tile) (i : Nat) : Nat × Nat :=
  let v := if i = 0 then c.circ0.toNat else c.circ1.toNat
  (bitsOf v 0 16, bitsOf v 16 16)

/-- The descriptor of a firing slot (Table 6.1). -/
def Tile.descr (c : Tile) (i : Nat) : Nat := (Tab.get (fun _ => (0 : DWord)) c.desc i).toNat

/-- Set the descriptor of a firing slot. -/
def Tile.setDesc (c : Tile) (i v : Nat) : Tile :=
  { c with desc := Tab.set (fun _ => (0 : DWord)) c.desc i (BitVec.ofNat 64 v) }

/-- A slot is armed (Table 6.2). -/
def Tile.isArmed (c : Tile) (i : Nat) : Bool := bitsOf c.armed.toNat i 1 == 1

/-- Arm or disarm a slot (R120). -/
def Tile.setArmed (c : Tile) (i : Nat) (v : Bool) : Tile :=
  { c with armed := BitVec.ofNat 8 (putBits c.armed.toNat i 1 (bit v)) }

/-- Posted stores outstanding (Table 6.5 PSTAT). -/
def Tile.postsOut (c : Tile) : Nat := (c.posts.filter fun p => p.failed.isNone).length

/-! ### Queues (R57 to R61) -/

/-- Input queue `q`: 0 N, 1 E, 2 S, 3 W, 4 L. -/
def Tile.queue (c : Tile) (q : Nat) : List DWord :=
  if q = 0 then c.qn else if q = 1 then c.qe else if q = 2 then c.qs else if q = 3 then c.qw else c.ql

/-- Replace input queue `q`. -/
def Tile.setQueue (c : Tile) (q : Nat) (l : List DWord) : Tile :=
  if q = 0 then { c with qn := l } else if q = 1 then { c with qe := l } else if q = 2 then { c with qs := l }
  else if q = 3 then { c with qw := l } else { c with ql := l }

/-- Entries in pass-through registers toward input queue `q` (R126). -/
def Tile.pass (c : Tile) (q : Nat) : List DWord :=
  if q = 0 then c.pn else if q = 1 then c.pe else if q = 2 then c.ps else if q = 3 then c.pw else []

/-- Replace them. -/
def Tile.setPass (c : Tile) (q : Nat) (l : List DWord) : Tile :=
  if q = 0 then { c with pn := l } else if q = 1 then { c with pe := l } else if q = 2 then { c with ps := l }
  else if q = 3 then { c with pw := l } else c

/-- The logical neighbour of tile `t` in direction `q` (R33): 0 N, 1 E, 2 S, 3 W. -/
def neighbour (t q : Nat) : Option Nat :=
  if q = 0 then (if t < 70 then none else some (t - 70))
  else if q = 1 then (if t % 70 = 69 then none else some (t + 1))
  else if q = 2 then (if t / 70 = 69 then none else some (t + 70))
  else if q = 3 then (if t % 70 = 0 then none else some (t - 1))
  else none

/-- The opposite direction. -/
def opposite (q : Nat) : Nat := if q = 0 then 2 else if q = 1 then 3 else if q = 2 then 0 else 1

/-- A feed or drain lane (R142). -/
def lane (m : Tab (List DWord)) (e : Nat) : List DWord := Tab.get (fun _ => []) m e
def setLane (m : Tab (List DWord)) (e : Nat) (l : List DWord) : Tab (List DWord) := Tab.set (fun _ => []) m e l

/-- Free entries at a push target (R122, Table 3.11): 0 toward a missing neighbour. -/
def State.room (s : State) (f t q : Nat) : Nat :=
  if q = 4 then 16 - (s.tile f t).ql.length
  else if q = 2 ∧ t / 70 = 69 then
    16 - (lane (s.dense f).feed (t % 70)).length - (lane (s.dense f).feedIn (t % 70)).length
  else match neighbour t q with
    | none => 0
    | some u => 16 - ((s.tile f u).queue (opposite q)).length - ((s.tile f u).pass (opposite q)).length

/-- Push an entry toward direction `q` (Table 3.4): it enters the pass-through registers, or L itself. -/
def State.push (s : State) (f t q : Nat) (v : DWord) : State :=
  if q = 4 then s.setTile f t { s.tile f t with ql := (s.tile f t).ql ++ [v] }
  else if q = 2 ∧ t / 70 = 69 then
    s.setDense f { s.dense f with feedIn := setLane (s.dense f).feedIn (t % 70) (lane (s.dense f).feedIn (t % 70) ++ [v]) }
  else match neighbour t q with
    | none => s
    | some u => s.setTile f u ((s.tile f u).setPass (opposite q) ((s.tile f u).pass (opposite q) ++ [v]))

/-- Entries waiting on the drain lane of a tile's column: 0 outside logical row 68 (Table 3.11). -/
def State.drainLen (s : State) (f t : Nat) : Nat :=
  if t / 70 = 68 then (lane (s.dense f).drain (t % 70)).length else 0

/-! ### The trace of a sampled firing (R280) -/

/-- One step of the CRC-64 of R280 over one bit. -/
def crc64Bit (c : Nat) (b : Nat) : Nat :=
  let t := (c / 2 ^ 63 + b) % 2
  let c2 := c * 2 % 2 ^ 64
  if t = 1 then c2 ^^^ 0x42F0E1EBA9EA3693 else c2

/-- The CRC-64 over the bits of a byte, most significant first. -/
def crc64Byte (c b : Nat) : Nat :=
  [7, 6, 5, 4, 3, 2, 1, 0].foldl (fun a i => crc64Bit a (bitsOf b i 1)) c

/-- The CRC-64 over one word: 8 little-endian bytes (R280). -/
def crc64Word (c w : Nat) : Nat := (bytesLE 8 w).foldl (fun a b => crc64Byte a b.toNat) c

/-- Enter a fetched halfword or a read value into the input log of the running trace. -/
def Tile.logRead (c : Tile) (a v : Nat) : Tile :=
  match c.trace with
  | some tr => if tr.done then c else { c with trace := some { tr with log := tr.log ++ [(a, BitVec.ofNat 64 v)] } }
  | none => c

/-- Enter a written value, preceded by its address word, into the source signature. -/
def Tile.logWrite (c : Tile) (a v : Nat) : Tile :=
  match c.trace with
  | some tr =>
    if tr.done then c
    else { c with trace := some { tr with crc := BitVec.ofNat 64 (crc64Word (crc64Word tr.crc.toNat a) v) } }
  | none => c

/-! ### SRAM (R47) -/

/-- The error mark of the 64-bit word that holds address `a`: 0 none, 1 one bit, 2 two bits. -/
def Tile.errAt (c : Tile) (a : Nat) : Nat := Tab.get (fun _ => 0) c.sramErr (a / 8)

/-- The bytes at an SRAM address. -/
def Tile.rdSram (c : Tile) (a n : Nat) : Nat := Tab.readLE zeroByte c.sram a n

/-- Store bytes in SRAM. A store of a whole word writes its check bits anew; an armed injection (R297 0x01, 0x02) marks it. A
narrower store raises no fault and keeps the word's mark, a choice of the model (assumption 117). -/
def Tile.wrSram (c : Tile) (a n v : Nat) : Tile :=
  let mark := if c.sramInj ≠ 0 then c.sramInj else if n = 8 then 0 else c.errAt a
  { c with sram := Tab.writeLE zeroByte c.sram a n v, sramInj := 0,
           sramErr := Tab.set (fun _ => 0) c.sramErr (a / 8) mark }

/-- The words that `n` bytes from address `a` touch. -/
def wordsOf (a n : Nat) : List Nat := (List.range ((a + n + 7) / 8 - a / 8)).map fun i => a / 8 + i

/-- The worst error mark of the words that an access touches. -/
def Tile.errSpan (c : Tile) (a n : Nat) : Nat := (wordsOf a n).foldl (fun m w => max m (Tab.get (fun _ => 0) c.sramErr w)) 0

/-- The words of an access without their marks. -/
def Tile.fixSpan (c : Tile) (a n : Nat) : Tile := { c with sramErr := (wordsOf a n).foldl (fun e w => Tab.set (fun _ => 0) e w 0) c.sramErr }

/-- Store a list of bytes in SRAM: whole words are checked anew, and an armed injection marks the first word. -/
def Tile.putSram (c : Tile) (a : Nat) (bs : List Byte) : Tile :=
  let full := (wordsOf a bs.length).filter fun w => decide (a ≤ 8 * w) && decide (8 * w + 8 ≤ a + bs.length)
  let err := full.foldl (fun e w => Tab.set (fun _ => 0) e w 0) c.sramErr
  { c with sram := Tab.writeBytes zeroByte c.sram a bs, sramInj := 0,
           sramErr := if c.sramInj = 0 then err else Tab.set (fun _ => 0) err (a / 8) c.sramInj }

/-! ### The FIRE descriptor (R119) -/

/-- The check of a descriptor for tile `t` of a field (R119): the first failing condition. -/
def checkDesc (t d : Nat) : Option Cause :=
  let inN := bitsOf d 16 4
  let inE := bitsOf d 20 4
  let inS := bitsOf d 24 4
  let inW := bitsOf d 28 4
  let outN := bitsOf d 36 4
  let outE := bitsOf d 40 4
  let outS := bitsOf d 44 4
  let outW := bitsOf d 48 4
  let miss (q : Nat) : Bool := (neighbour t q).isNone
  if bitsOf d 60 4 > 8 then some .illegal
  else if bitsOf d 0 16 ≥ 0xC000 then some .localAddr
  else if bitsOf d 0 1 = 1 then some .misaligned
  else if (miss 0 && (inN != 0 || outN != 0)) || (miss 1 && (inE != 0 || outE != 0))
      || (miss 2 && (inS != 0 || (outS != 0 && t / 70 != 69))) || (miss 3 && (inW != 0 || outW != 0))
      || (bitsOf d 56 4 != 0 && t / 70 != 68) then some .noNeighbour
  else none

/-- The needs of a slot hold (R122). -/
def State.needsHold (s : State) (f t i : Nat) : Bool :=
  let c := s.tile f t
  let d := c.descr i
  (upTo 5).all (fun q => decide (bitsOf d (16 + 4 * q) 4 ≤ (c.queue q).length))
    && (upTo 5).all (fun q => decide (bitsOf d (36 + 4 * q) 4 ≤ s.room f t q))
    && decide (bitsOf d 56 4 ≤ s.drainLen f t) && decide (bitsOf d 60 4 + c.postsOut ≤ 8)

/-- The lowest armed slot whose needs hold (R121). -/
def State.readySlot (s : State) (f t : Nat) : Option Nat :=
  (upTo 8).find? fun i => (s.tile f t).isArmed i && s.needsHold f t i

/-- A tile is idle (R121). -/
def Tile.idle (c : Tile) : Bool := !c.fired && !c.fault && !c.waiting && !c.frozen && !c.debugHalted

/-- A tile is clock-gated. -/
def State.gated (s : State) (f t : Nat) : Bool :=
  let c := s.tile f t
  c.fault || c.frozen || c.debugHalted || c.waiting || c.qstall || (!c.fired && (s.readySlot f t).isNone)

/-! ### Control space (R49 to R51) -/

/-- `TIL_QSTAT` (Table 3.11). -/
def State.qstat (s : State) (f t : Nat) : Nat :=
  let c := s.tile f t
  c.qn.length + c.qe.length * 2 ^ 5 + c.qs.length * 2 ^ 10 + c.qw.length * 2 ^ 15 + c.ql.length * 2 ^ 20
    + s.drainLen f t * 2 ^ 25 + s.room f t 0 * 2 ^ 32 + s.room f t 1 * 2 ^ 37 + s.room f t 2 * 2 ^ 42
    + s.room f t 3 * 2 ^ 47

/-- `TIL_EVENT` (Table 3.12); `pend` says that a context switch is ordered in the field. -/
def Tile.event (c : Tile) (pend : Bool) : Nat := bit c.extDeny + 2 * bit (pend && !c.frozen) + 4 * bit c.frozen

/-- The state word of a slot (Table 6.2). -/
def State.slotWord (s : State) (x : Site) (i : Nat) : Nat :=
  let c := s.core x
  let ready := match x with
    | .tile f t => s.needsHold f.val t.val i
    | .sloe => false
  bit (c.isArmed i) + 2 * bit (c.fired && c.slot == i) + 4 * bit ready

/-- A register of control space at offset `o` from 0xD000; none for an unlisted offset (Table 3.2). -/
def State.ctlRead (s : State) (x : Site) (o : Nat) : Option Nat :=
  let c := s.core x
  if o = 0x00 then some c.ts.toNat
  else if o = 0x08 then some c.pc.toNat
  else if 0x10 ≤ o ∧ o < 0x50 ∧ o % 8 = 0 then some (c.breg ((o - 0x10) / 8))
  else if o = 0x50 then some (wrapN 64 (signedOf 40 c.acc0.toNat))
  else if o = 0x58 then some (wrapN 64 (signedOf 40 c.acc1.toNat))
  else if o = 0x60 then some c.cnt.toNat
  else if o = 0x68 then some c.sptr.toNat
  else if o = 0x70 then some c.dptr.toNat
  else if o = 0x78 then some c.step.toNat
  else if o = 0x80 then some c.sig.toNat
  else if o = 0x88 then some c.faultInfo.toNat
  else if o = 0x90 then some c.mode.toNat
  else if o = 0x98 then some (match x with | .tile f t => s.qstat f.val t.val | .sloe => 0)
  else if o = 0xA0 then some c.circ0.toNat
  else if o = 0xA8 then some c.circ1.toNat
  else if o = 0xB0 then
    some (c.event (match x with | .tile f _ => (s.field f.val).switching.isSome | .sloe => false))
  else if 0x100 ≤ o ∧ o < 0x180 ∧ o % 16 = 0 then some (c.descr ((o - 0x100) / 16))
  else if 0x100 ≤ o ∧ o < 0x180 ∧ o % 16 = 8 then some (s.slotWord x ((o - 0x100) / 16))
  else none

/-- A write to TS under the access codes of Table 3.8; clearing FAULT also clears `TIL_FAULT_INFO` (R73), and FAULT_ELEM,
a choice of the model (assumption 118). -/
def Tile.writeTs (c : Tile) (v : Nat) (outside : Bool) : Tile :=
  let ts := c.ts.toNat
  let t1 := putBits ts 0 4 (bitsOf v 0 4)
  let t2 := if bitsOf v 4 1 = 1 then putBits t1 4 1 0 else t1
  let t3 := if bitsOf v 5 1 = 1 then putBits t2 5 1 0 else t2
  if outside && bitsOf v 6 1 == 1 && c.fault then
    { c with ts := BitVec.ofNat 32 (putBits (putBits t3 6 1 0) 8 4 0), faultInfo := 0 }
  else { c with ts := BitVec.ofNat 32 t3 }

/-- Set all 32 signals of a tile (R188); a signal that becomes 1 wakes a SWAIT on it, and the wake stays (R189). -/
def Tile.putSigs (c : Tile) (v : Nat) : Tile :=
  { c with
    sig := BitVec.ofNat 32 v
    wait := match c.wait with
      | .sig m w => .sig m (w || bitsOf v m 1 == 1)
      | w => w }

/-- A write to a control register under its access code; PC and the registers R51 bars are for outside writes only.
DEC_PROP keeps its value (Table 3.9, `State.ctlWriteOut`). -/
def Tile.ctlPut (c : Tile) (o v : Nat) (outside : Bool) : Tile :=
  if o = 0x00 then c.writeTs v outside
  else if o = 0x08 then { c with pc := BitVec.ofNat 16 v }
  else if 0x10 ≤ o ∧ o < 0x50 then c.setB ((o - 0x10) / 8) v
  else if o = 0x50 then { c with acc0 := BitVec.ofNat 40 v }
  else if o = 0x58 then { c with acc1 := BitVec.ofNat 40 v }
  else if o = 0x60 then { c with cnt := BitVec.ofNat 16 v }
  else if o = 0x68 then { c with sptr := BitVec.ofNat 16 v }
  else if o = 0x70 then { c with dptr := BitVec.ofNat 16 v }
  else if o = 0x78 then { c with step := BitVec.ofNat 16 v }
  else if o = 0x80 then c.putSigs v
  else if o = 0x90 then { c with mode := BitVec.ofNat 64 (putBits (bitsOf v 0 3) 3 1 (bitsOf c.mode.toNat 3 1)) }
  else if o = 0xA0 then { c with circ0 := BitVec.ofNat 64 (bitsOf v 0 32) }
  else if o = 0xA8 then { c with circ1 := BitVec.ofNat 64 (bitsOf v 0 32) }
  else if o = 0xB0 then (if bitsOf v 0 1 = 1 then { c with extDeny := false } else c)
  else if 0x100 ≤ o ∧ o < 0x180 ∧ o % 16 = 0 then c.setDesc ((o - 0x100) / 16) v
  else if 0x100 ≤ o ∧ o < 0x180 ∧ o % 16 = 8 then c.setArmed ((o - 0x100) / 16) (bitsOf v 0 1 == 1)
  else c

/-- What a write of `n` bytes at control-space offset `off` makes of a register that reads as `old`: only the bytes written
change, and write-1 bits outside them are written 0 (assumption 12). -/
def ctlMerge (off n old v : Nat) : Nat :=
  let o := off / 8 * 8
  let keep := if o = 0x00 then putBits old 4 3 0 else if o = 0xB0 then 0 else old
  putBits keep (8 * (off % 8)) (8 * n) v

/-- The bits of a control register that are not reserved (Tables 3.7 to 3.12, and the text after them; Tables 6.1 and 6.2). -/
def ctlAssigned (o : Nat) : Nat :=
  if o = 0x00 then 0x3F0FFF
  else if o = 0x08 ∨ o = 0x60 ∨ o = 0x68 ∨ o = 0x70 ∨ o = 0x78 then 0xFFFF
  else if (0x10 ≤ o ∧ o < 0x50) ∨ o = 0x80 ∨ o = 0xA0 ∨ o = 0xA8 then 0xFFFFFFFF
  else if o = 0x88 then 0xFFFFFFFFFFFF03FF
  else if o = 0x90 then 0xF
  else if o = 0x98 then 0xFFFFF3FFFFFFF
  else if o = 0xB0 then 7
  else if 0x100 ≤ o ∧ o % 16 = 8 then 7
  else 0xFFFFFFFFFFFFFFFF

/-- A write from outside a tile (R50): it takes effect only while the tile is halted, `TIL_EVENT` apart, and a
descriptor write must pass its check (R119); what is discarded sets EXT_DENY. Only the field sequencer, `seq`, changes DEC_PROP
(Table 3.9). A write of the signals is progress (R204); a tile that goes on is a wake (R202). -/
def State.ctlWriteOut (s : State) (f : FieldNo) (t : TileNo) (o v : Nat) (seq : Bool) : State :=
  let c := s.tile f.val t.val
  match s.ctlRead (.tile f t) o with
  | none => s
  | some _ =>
    if o = 0xB0 then s.setTile f.val t.val (c.ctlPut o v true)
    else if !(c.fault || c.frozen) then s.setTile f.val t.val { c with extDeny := true }
    else if 0x100 ≤ o ∧ o % 16 = 0 ∧ (checkDesc t.val v).isSome then s.setTile f.val t.val { c with extDeny := true }
    else
      let c1 := c.ctlPut o v true
      let s1 := s.setTile f.val t.val (if o = 0x90 ∧ seq then { c1 with mode := BitVec.ofNat 64 (bitsOf v 0 4) } else c1)
      let s2 := if c1.sig = c.sig then s1 else s1.progress f.val
      if s.gated f.val t.val && !s2.gated f.val t.val then s2.wake f.val else s2

end Sys2Proof.Machine
end

