-- ==== Sys2Proof/Machine/FlashOps.lean ====
section
/-! DEFINITION. The Sloe flash: what it reads as, its refusals, and how operations start, stop and end (R370 to R386). -/

namespace Sys2Proof.Machine

open Sys2Proof

/-- Change the Sloe. -/
def State.mapSloe (s : State) (f : Sloe → Sloe) : State := { s with sloe := f s.sloe }

/-- A page of the flash; page 2048 is the option area. -/
def State.fpage (s : State) (p : Nat) : FPage := Tab.get (fun _ => {}) s.sloe.pages p

/-- Replace a page's state. -/
def State.setFpage (s : State) (p : Nat) (x : FPage) : State :=
  s.mapSloe fun v => { v with pages := Tab.set (fun _ => {}) v.pages p x }

/-- A sector's state: 0 OK, 1 TORN_ERASE, 2 ERASING; sector 128 is the option area. -/
def State.fsector (s : State) (k : Nat) : Nat := Tab.get (fun _ => 0) s.sloe.sectors k

/-- Replace a sector's state. -/
def State.setFsector (s : State) (k v : Nat) : State :=
  s.mapSloe fun x => { x with sectors := Tab.set (fun _ => 0) x.sectors k v }

/-- One byte of the array: a byte of a sector that is not OK reads each bit 0 or 1 (R378, R382). -/
def State.flashByte (s : State) (a : Nat) : Byte × State :=
  if s.fsector (a / 4096) = 0 then (Tab.get erasedByte s.sloe.flash a, s)
  else (Config.freeByte s.freeCtr, { s with freeCtr := s.freeCtr + 1 })

/-- One byte of the option area. -/
def State.optByte (s : State) (a : Nat) : Byte × State :=
  if s.fsector 128 = 0 then (Tab.get erasedByte s.sloe.opt a, s)
  else (Config.freeByte s.freeCtr, { s with freeCtr := s.freeCtr + 1 })

/-- `n` bytes, little-endian, by a byte read. -/
def readBy (rd : State → Nat → Byte × State) : Nat → Nat → State → Nat × State
  | 0, _, s => (0, s)
  | n + 1, a, s =>
    let b := rd s a
    let r := readBy rd n (a + 1) b.2
    (b.1.toNat + 256 * r.1, r.2)

/-- The array as the image slots read it (no byte of them is torn but by power loss). -/
def State.flashBytes (s : State) (a n : Nat) : List Byte := Tab.readBytes erasedByte s.sloe.flash a n

/-- The number of an operation in FSH_STAT, or none. -/
def State.flashRuns (s : State) : Bool :=
  match s.sloe.fop with
  | some o => !o.suspended
  | none => false

/-- `FSH_STAT` shows the operations (Table 17.8). -/
def State.flashStat (s : State) : State :=
  let s1 := ((s.setF F.fshStat_BUSY (bit s.flashRuns)).setF F.fshStat_ERASE_HELD (bit s.sloe.held.isSome)).setF F.fshStat_SUSPENDED
    (bit (s.sloe.held.isSome || (s.sloe.fop.isSome && !s.flashRuns)))
  match s.sloe.fop with
  | some o => ((s1.setF F.fshStat_OP o.cmd).setF F.fshStat_PULSES o.pulses).setF F.fshStat_SUSP_COUNT (min 65535 o.susp)
  | none => s1.setF F.fshStat_OP 0

/-- A command is refused (Table 17.2). -/
def State.flashRefuse (s : State) (code : Nat) : State := (s.setF F.fshStat_ERR 1).setF F.fshStat_ERR_CODE code

/-- The lifecycle on the LC wire is SECURED. -/
def State.secured (s : State) : Bool := s.sloe.lc == 2

/-- The non-volatile lock of a sector is in force (R386, Table 17.6). -/
def State.nvLocked (s : State) (sec : Nat) : Bool :=
  s.secured && !s.flag F.fshStat_UNLOCKED
    && (s.flag F.fshStat_OPT_TORN || bitsOf (s.getF F.fshNvlock_LOCK (sec / 64)) (sec % 64) 1 == 0)

/-- The first refusal of Table 17.2 that applies to a command; 0 when none does. -/
def State.flashCheck (s : State) (cmd key : Nat) : Nat :=
  let addr := s.getF F.fshAddr_ADDR
  let src := s.getF F.fshSrc_SRC
  let len := s.getF F.fshSrc_LEN
  let prog := cmd == 1 || cmd == 3
  let page := if cmd = 1 then addr / 256 else 2048
  let sec := if cmd ≤ 2 then addr / 4096 else 128
  let inSusp := match s.sloe.fop with
    | some o => o.suspended && (o.cmd == 2 || o.cmd == 4) && s.sloe.held.isNone
    | none => false
  if s.getF F.sloMode_MODE = 2 ∧ cmd ≤ 4 then 1
  else if s.sloe.fop.isSome ∧ !(prog && inSusp) then 2
  else if cmd ≤ 4 ∧ key ≠ 0xF1A5 then 3
  else if prog ∧ (len = 0 ∨ 256 < len ∨ 0x3C00 < src + len ∨ (cmd = 1 ∧ 256 < addr % 256 + len) ∨ (cmd = 3 ∧ 64 < addr % 64 + len)) then 4
  else if prog ∧ ((s.fpage page).st = 2 ∨ s.fsector sec ≠ 0) then 5
  else if prog ∧ 16 ≤ (s.fpage page).progs then 6
  else if cmd ≤ 2 ∧ bitsOf (s.getF F.fshWp_WP (sec / 64)) (sec % 64) 1 = 1 then 7
  else if cmd ≤ 2 ∧ s.nvLocked sec then 8
  else if (cmd = 3 ∨ cmd = 4) ∧ s.secured ∧ !s.flag F.fshStat_UNLOCKED then 8
  else if cmd = 5 ∧ (8 ≤ s.getF F.fshStat_PW_FAILS ∨ s.getF F.fshPassword_VALUE ≠ s.sloe.password.toNat) then 9
  else 0

/-- The Sloe runs its ROM monitor until the next step 5 (R338). -/
def State.toMonitor (s : State) : State := (s.mapSloe fun v => { v with monitor := true }).setF F.secBootStat_SLOE_ROM 1

/-- A program or erase of a firmware sector returns the Sloe to its ROM monitor (R338). -/
def State.romMonitor (s : State) (sec : Nat) : State := if sec ≤ 113 then s.toMonitor else s

/-- Start a program or erase (R373, R384): a program counts in PROGS at once, and its page is not DONE until it completes. -/
def State.flashStart (s : State) (cmd : Nat) : State :=
  let addr := s.getF F.fshAddr_ADDR
  let page := if cmd = 1 then addr / 256 else 2048
  let sec := if cmd ≤ 2 then addr / 4096 else 128
  let o : FOp :=
    { cmd := cmd, addr := if cmd ≤ 2 then addr else addr % 64, since := s.now,
      data := if cmd = 1 ∨ cmd = 3 then Tab.readBytes zeroByte s.sloe.core.sram (s.getF F.fshSrc_SRC) (s.getF F.fshSrc_LEN) else [] }
  let s1 := s.mapSloe fun v => { v with fop := some o, held := v.fop }
  let s2 := if cmd = 1 ∨ cmd = 3 then s1.setFpage page { progs := (s.fpage page).progs + 1, st := 2 } else s1.setFsector sec 2
  (s2.romMonitor sec).flashStat

/-- Load NVLOCK and the password from the option area (R383); UNLOCKED is cleared (R386). -/
def State.optLoad (s : State) : State :=
  let a := readBy State.optByte 8 0 s
  let b := readBy State.optByte 8 8 a.2
  let c := readBy State.optByte 8 16 b.2
  let torn := (s.fpage 2048).st == 2 || s.fsector 128 != 0
  let s1 := c.2.mapSloe fun v => { v with password := BitVec.ofNat 64 c.1 }
  ((((s1.setReg .fshNvlock 0 0 0 a.1).setReg .fshNvlock 1 0 0 b.1).setF F.fshStat_OPT_TORN (bit torn)).setF F.fshStat_PW_SET
    (bit (c.1 != 2 ^ 64 - 1))).setF F.fshStat_UNLOCKED 0

/-- A command of `FSH_CTRL` (Table 17.8), unless refused. -/
def State.flashCmd (s : State) (cmd key : Nat) : State :=
  let r := s.flashCheck cmd key
  if cmd = 0 then s
  else if r ≠ 0 then
    (if r = 9 ∧ s.getF F.fshStat_PW_FAILS < 8 then s.setF F.fshStat_PW_FAILS (s.getF F.fshStat_PW_FAILS + 1) else s).flashRefuse r
  else if cmd ≤ 4 then s.flashStart cmd
  else if cmd = 5 then (s.setF F.fshStat_UNLOCKED 1).setF F.fshStat_PW_FAILS 0
  else if cmd = 6 then s.setF F.fshStat_UNLOCKED 0
  else s.optLoad

/-- SUSPEND (R377, R378): a running operation stops and loses its current pulse; a program behind a suspended erase goes on. -/
def State.flashSuspend (s : State) : State :=
  match s.sloe.fop with
  | some o =>
    if o.suspended || s.sloe.held.isSome then s
    else (s.mapSloe fun v => { v with fop := some { o with suspended := true, susp := o.susp + 1 } }).flashStat
  | none => s

/-- RESUME (R377, R378). -/
def State.flashResume (s : State) : State :=
  if s.sloe.held.isSome then s.flashRefuse 2
  else match s.sloe.fop with
    | some o =>
      if o.suspended then (s.mapSloe fun v => { v with fop := some { o with suspended := false, since := s.now } }).flashStat else s
    | none => s

/-- The bytes after a program (R372): each bit the AND of its old value and the data. -/
def andBytes (m : Tab Byte) (a : Nat) : List Byte → Tab Byte
  | [] => m
  | b :: bs => andBytes (Tab.set erasedByte m a (Tab.get erasedByte m a &&& b)) (a + 1) bs

/-- The bytes after a program that power loss ended (R381): a bit that was to be cleared reads 1 or 0. -/
def tornBytes (ctr : Nat) (m : Tab Byte) (a : Nat) : List Byte → Tab Byte
  | [] => m
  | b :: bs =>
    let old := Tab.get erasedByte m a
    tornBytes (ctr + 1) (Tab.set erasedByte m a ((old &&& b) ||| (old &&& Config.freeByte ctr))) (a + 1) bs

/-- The operation in progress completes (R375): DONE, and the erase that waited behind it is the operation again. -/
def State.flashDone (s : State) (o : FOp) : State :=
  let sec := if o.cmd = 2 then o.addr / 4096 else 128
  let s1 :=
    if o.cmd = 1 then (s.mapSloe fun v => { v with flash := andBytes v.flash o.addr o.data }).setFpage (o.addr / 256)
      { s.fpage (o.addr / 256) with st := 1 }
    else if o.cmd = 3 then (s.mapSloe fun v => { v with opt := andBytes v.opt o.addr o.data }).setFpage 2048 { s.fpage 2048 with st := 1 }
    else if o.cmd = 2 then
      (upTo 16).foldl (fun s i => s.setFpage (sec * 16 + i) {})
        ((s.mapSloe fun v => { v with flash := v.flash.filter fun x => x.1 / 4096 != sec }).setFsector sec 0)
    else ((s.mapSloe fun v => { v with opt := [] }).setFsector 128 0).setFpage 2048 {}
  ((s1.mapSloe fun v => { v with fop := v.held, held := none }).setF F.fshStat_DONE 1).flashStat

/-- Power loss ends an operation (R381, R382). -/
def State.flashLose1 (s : State) (o : FOp) : State :=
  if o.cmd = 1 then
    { s.mapSloe (fun v => { v with flash := tornBytes s.freeCtr v.flash o.addr o.data }) with freeCtr := s.freeCtr + o.data.length }
  else if o.cmd = 3 then
    { s.mapSloe (fun v => { v with opt := tornBytes s.freeCtr v.opt o.addr o.data }) with freeCtr := s.freeCtr + o.data.length }
  else if o.cmd = 2 then
    (upTo 16).foldl (fun s i => s.setFpage (o.addr / 4096 * 16 + i) { st := 2 }) (s.setFsector (o.addr / 4096) 1)
  else (s.setFsector 128 1).setFpage 2048 { st := 2 }

/-- Every operation, running or suspended, ends as at a power loss (R380). -/
def State.flashLose (s : State) : State :=
  let s1 := match s.sloe.fop with
    | some o => s.flashLose1 o
    | none => s
  let s2 := match s.sloe.held with
    | some o => s1.flashLose1 o
    | none => s1
  (s2.mapSloe fun v => { v with fop := none, held := none }).flashStat

/-- A read of the flash window, or of `FSH_INFO_DATA` during an option command, stalls (R376). -/
def State.flashStalls (s : State) (a : Nat) : Bool :=
  match s.sloe.fop with
  | some o =>
    !o.suspended && ((decide (0x4000 ≤ a) && decide (a < 0xC000) && !(s.flag F.sloFbank_ROM && decide (a < 0x6000)))
      || (a == 0xC870 && (o.cmd == 3 || o.cmd == 4)))
  | none => false

/-- A stalled window read with AUTO_SUSP requests a suspend (R376). -/
def State.flashStallRead (s : State) (a : Nat) : State :=
  if s.flashStalls a ∧ a < 0xC000 ∧ s.flag F.fshCtrl_AUTO_SUSP then s.flashSuspend else s

/-- A write of `FSH_CTRL`: the command, then SUSPEND, then RESUME (assumption 23). -/
def State.fshCtrlWrite (s : State) (v : Nat) : State :=
  let s1 := (s.setF F.fshCtrl_AUTO_SUSP (bitsOf v 5 1)).flashCmd (bitsOf v 0 3) (bitsOf v 16 16)
  let s2 := if bitsOf v 3 1 = 1 then s1.flashSuspend else s1
  if bitsOf v 4 1 = 1 then s2.flashResume else s2

/-- `FSH_PAGE_STATE` of the page selected. -/
def State.pageState (s : State) : Nat :=
  let p := s.getF F.fshPageSel_PAGE
  (s.fpage p).st + (s.fpage p).progs * 4 + s.fsector (p / 16) * 2 ^ 8

/-- `FSH_INFO_DATA` of the word selected (Table 17.8). -/
def State.infoData (s : State) : Nat × State :=
  let w := s.getF F.fshInfoSel_WORD
  if w < 32 then (Tab.readLE erasedByte s.sloe.cal (8 * w) 8, s)
  else if 40 ≤ w ∨ w = 34 then (0, s)
  else readBy State.optByte 8 (8 * (w - 32)) s

end Sys2Proof.Machine
end

