-- ==== Sys2Proof/Machine/SloeBase.lean ====
section
/-! DEFINITION. The Sloe's power modes and power stage (R344, R345, R357), what a reset or loss of main power leaves (R322,
R323), and the starts that a register of the Sloe or a command shares (R350, R360, R367). -/

namespace Sys2Proof.Machine

open Sys2Proof

/-- `SLO_MODE`.MODE: 0 RUN, 1 STANDBY, 2 CELL. -/
def State.mode (s : State) : Nat := s.getF F.sloMode_MODE

/-- Where an image slot lies in the image store: slot s at s * 2^25. -/
def storeBase (kind slot : Nat) : Nat := ((kind - 1) * 2 + slot) * 2 ^ 25

/-- The first sector of a Sloe firmware slot (Table 17.1). -/
def sloeSector (slot : Nat) : Nat := if slot = 0 then 0 else 57

/-- The slot of a kind that was booted at the last step 5; 2 when none was. -/
def State.bootedSlot (s : State) (kind : Nat) : Nat :=
  if s.flag F.secImg_BOOTED ((kind - 1) * 2) then 0 else if s.flag F.secImg_BOOTED ((kind - 1) * 2 + 1) then 1 else 2

/-- A STAGE that a reset cuts off while it writes leaves its slot without a valid header, which is written last (R339). -/
def State.dropStage (s : State) : State :=
  match s.sec.verify with
  | some v =>
    let slot := if s.bootedSlot v.kind = 0 then 1 else 0
    if !v.valid then s
    else if v.kind = 3 then s.setFpage (sloeSector slot * 16) { st := 0 }
    else
      let b := storeBase v.kind slot
      { s with sec := { s.sec with images := s.sec.images.filter fun x => decide (x.1 < b) || decide (b + 256 ≤ x.1) } }
  | none => s

/-- The engine without power, or right after a reset: it keeps the OTP, the defect store, the image store, the Sloe with its
flash and ring, and nothing else (R323). The clock of the model and what has left the unit run on. -/
def State.engineOff (s0 : State) : State :=
  let s := s0.dropStage
  { State.reset with
    now := s.now, freeCtr := s.freeCtr, regs := s.regs.filter fun x => decide (Reg.idx .sloMode ≤ x.1 % 1024),
    sec := { otp := s.sec.otp, store := s.sec.store, facTiles := s.sec.facTiles, facParts := s.sec.facParts,
             facTwin := s.sec.facTwin, images := s.sec.images },
    sloe := { s.sloe with img := none }, hostOut := s.hostOut, hostAns := s.hostAns,
    hostGet := s.hostGet, msix := s.msix, pending := s.pending }

/-- The Sloe keeps the last `SEC_BOOT_STAT` it received (Table 16.9). -/
def State.bootCopy (s : State) : State := s.mapSloe fun v => { v with bootStat := BitVec.ofNat 64 (s.reg .secBootStat 0 0 0) }

/-- A reset of Table 15.1 begins its boot: 0 power-on, 1 unit, 2 watchdog. `SEC_NONCE` is a new random value (R340). -/
def State.beginReset (s : State) (cause : Nat) : State :=
  let rom := s.getF F.secBootStat_SLOE_ROM
  let n := if cause = 0 then 0 else satAdd 65535 (s.getF F.secBootStat_RESETS) 1
  let s1 := s.engineOff
  let s2 := s1.setReg .secBootStat 0 0 0 (packF [(F.secBootStat_RESET_CAUSE, cause), (F.secBootStat_RESETS, n), (F.secBootStat_SLOE_ROM, rom)])
  let d := s2.draw
  let s3 := d.2.setReg .secNonce 0 0 0 d.1.toNat
  { s3 with sec := { s3.sec with booting := true, bootStart := s.now, stepStart := s.now } }.bootCopy

/-- Enter a mode: the ring records it; CELL ends the PIN session and every flash operation (R360, R365, R380). -/
def State.setMode (s : State) (m : Nat) : State :=
  if s.mode = m then s
  else
    let s1 := ((s.setF F.sloMode_MODE m).mapSloe fun v => { v with stbyAt := if m = 1 ∧ s.mode = 2 then some s.now else none }).ringPut 4 m 0
    if m = 2 then (s1.setF F.sloPin_UNLOCKED 0).flashLose else s1

/-- Main power is no longer good: the engine loses power, and the Sloe goes to STANDBY or CELL (R344). -/
def State.mainOff (s : State) : State :=
  let s1 := (s.engineOff.mapSloe fun v => { v with stage := false }).setF F.sloMode_MAIN_OK 0
  let s2 := s1.alarmClear 5
  if s.mode = 0 then s2.setMode (if s.flag F.sloMode_STBY_OK then 1 else 2) else s2

/-- The power stage turns on, which starts a power-on reset (R345). -/
def State.stageOn (s : State) : State := (s.mapSloe fun v => { v with stage := true, stbyAt := none }).beginReset 0

/-- A power-off cause of Table 16.6 is in force, or an AL05 is pending. A leak is one unless LEAK_SHUT is 0 (assumption 94). -/
def State.offCause (s : State) : Bool :=
  (s.alarmNow 1 && s.getF F.sloAlarmCfg_LEAK_SHUT != 0) || s.alarmNow 2 || s.alarmNow 5 || bitsOf (s.getF F.sloAlarm_PENDING) 4 1 == 1

/-- POWER ON (R345): in STANDBY, unless a power-off cause stands. -/
def State.powerOnReq (s : State) : State :=
  if s.sloe.stopped || s.mode != 1 || s.sloe.stage || s.offCause then s else s.stageOn

/-- POWER OFF. -/
def State.powerOffReq (s : State) : State := if !s.sloe.stopped && (s.sloe.stage || s.mode == 0) then s.mainOff else s

/-- The ring is emptied (R360). -/
def State.ringEmpty (s : State) : State :=
  ((s.mapSloe fun v => { v with ring := [], ringHave := 0 }).setF F.sloRing_PEND 0).setF F.sloRing_OVF 0

/-- `SLO_KEY` shows the head of the key FIFO (R350). -/
def State.keyShow (s : State) : State :=
  match s.sloe.fifo with
  | [] => ((s.setF F.sloKey_CODE 0).setF F.sloKey_RELEASE 0).setF F.sloKey_EMPTY 1
  | (c, r) :: _ => ((s.setF F.sloKey_CODE c).setF F.sloKey_RELEASE (bit r)).setF F.sloKey_EMPTY 0

/-- A read of `SLO_KEY` pops the head. -/
def State.keyTake (s : State) : State := (s.mapSloe fun v => { v with fifo := v.fifo.drop 1 }).keyShow

/-- A set of the real-time clock. -/
def State.rtcSet (s : State) (secs : Nat) : State :=
  (s.mapSloe fun v => { v with rtcBase := secs % 2 ^ 32, rtcAt := s.now }).setF F.sloRtc_VALID 1

/-- The relay can reach the Hub: RUN, and the boot at step 3 or beyond (R367). -/
def State.relayUp (s : State) : Bool := s.mode == 0 && decide (2 ≤ s.getF F.secBootStat_STEP)

/-- The core at the start of the ROM, its SRAM kept (R347). -/
def Tile.atRom (c : Tile) : Tile := { sram := c.sram, pc := 0x4000 }

/-- The result code of an access that cannot start: 1 NOT_RUN, 3 BUSY; 0 when it can (R367). -/
def State.relayBar (s : State) : Nat := if !s.relayUp then 1 else if s.sloe.relay.isSome then 3 else 0

/-- Start a relay access, unless it cannot start. -/
def State.relayStart (s : State) (write : Bool) : State :=
  if s.relayBar ≠ 0 then s.setF F.sloHubStat_RESULT s.relayBar
  else (s.mapSloe fun v => { v with
    relay := some (write, s.getF F.sloHubAddr_OFFSET, s.getF F.sloHubData_DATA) }).setF F.sloHubStat_BUSY 1

/-- The start address of the strap (R366). -/
def smbAddr : Nat := if Config.strapHigh then 0x4B else 0x4A

/-- ms since FN was recognised, while the chord timer runs (Table 16.10). -/
def State.chordMs (s : State) : Nat :=
  match s.sloe.fnAt with
  | some t => min 2000 ((s.now - t) / 1000000)
  | none => s.getF F.sloChord_ELAPSED

/-- Seconds of lockout left (R365). -/
def State.lockLeft (s : State) : Nat :=
  match s.sloe.lockAt with
  | some t => 900 - (s.now - t) / 1000000000
  | none => 0

end Sys2Proof.Machine
end

