-- ==== Sys2Proof/Machine/SloeMem.lean ====
section
/-! DEFINITION. The Sloe core's memory map (R347, Table 16.3) and its registers (R369, R390). -/

namespace Sys2Proof.Machine

open Sys2Proof

/-- The Sloe core runs (R347). -/
def State.sloeRuns (s : State) : Bool := !s.sloe.core.fault && !s.sloe.stopped

/-- A register of the Sloe as it reads, with what reading it does. -/
def State.sloReg (s : State) (r : Reg) (i j : Nat) : Nat × State :=
  let v := accRead (s.reg r i j 0) r.desc.fields
  match r with
  | .sloKey => (v, if s.flag F.sloKey_EMPTY then s else s.keyTake)
  | .sloChord => (putBits v 16 11 s.chordMs, s)
  | .sloRtc => (putBits v 0 32 s.rtc, s)
  | .sloSmb => (putBits v 0 7 smbAddr, s)
  | .sloPin => (putBits v 8 10 s.lockLeft, s)
  | .fshStat => (putBits v 13 1 (bit s.secured), s)
  | .fshPageState => (s.pageState, s)
  | .fshInfoData => s.infoData
  | _ => (v, s)

/-- A write of a register of the Sloe. `rom` says that the instruction was fetched from the Sloe ROM (R386). -/
def State.sloRegWrite (s : State) (r : Reg) (i j v : Nat) (rom : Bool) : State :=
  let old := s.reg r i j 0
  let s1 := s.setReg r i j 0 (accWrite false old v r.desc.fields)
  match r with
  | .sloPwrCfg =>
    let s2 := if bitsOf v 1 1 = 1 then s1.powerOnReq else s1
    if bitsOf v 2 1 = 1 then s2.powerOffReq else s2
  | .sloDispCrc => if bitsOf v 16 1 = 1 then s1.setF F.sloDispCrc_PENDING 1 else s1
  | .sloAlarm => s.alarmAck (bitsOf v 8 5)
  | .sloRing => if bitsOf v 21 1 = 1 then s1.ringEmpty else s1
  | .sloRtc => s1.rtcSet (bitsOf v 0 32)
  | .sloHubAddr => if bitsOf v 32 1 = 1 then s1.relayStart false else if bitsOf v 33 1 = 1 then s1.relayStart true else s1
  | .fshCtrl => s1.fshCtrlWrite v
  | .fshWpClr => if rom then s.setReg .fshWp i j 0 (s.reg .fshWp i j 0 &&& (2 ^ 64 - 1 - v % 2 ^ 64)) else s
  | .fshPassword => s.setReg r i j 0 v
  | _ => s1

/-- A read of the Sloe map outside its control space: none where nothing is. -/
def State.sloeRead (s : State) (a n : Nat) : Option (Nat × State) :=
  if a + n ≤ 0x3C00 then some (s.sloe.core.rdSram a n, s)
  else if a < 0x4000 then some (Tab.readLE zeroByte s.sloe.ring (a - 0x3C00) n, s)
  else if a < 0xC000 then
    if s.flag F.sloFbank_ROM then
      (if a < 0x6000 then some (natLE ((upTo n).map fun i => Config.romByte (a - 0x4000 + i)), s) else none)
    else some (readBy State.flashByte n (s.getF F.sloFbank_BANK * 0x8000 + (a - 0x4000)) s)
  else if a % 8 ≠ 0 then none
  else match regAt (sloeBase + a) with
    | some (r, i, j) =>
      let x := s.sloReg r i j
      some (x.1 % 2 ^ (8 * n), x.2)
    | none => none

/-- A write of the Sloe map outside its control space. The window takes none (assumption 24). -/
def State.sloeWrite (s : State) (a n v : Nat) : Option State :=
  if a + n ≤ 0x3C00 then some { s with sloe := { s.sloe with core := s.sloe.core.wrSram a n v } }
  else if a < 0x4000 then some (s.mapSloe fun x => { x with ring := Tab.writeLE zeroByte x.ring (a - 0x3C00) n v })
  else if a < 0xC000 then some s
  else if a % 8 ≠ 0 then none
  else match regAt (sloeBase + a) with
    | some (r, i, j) =>
      let pc := s.sloe.core.pc.toNat
      let rom := s.flag F.sloFbank_ROM && decide (0x4000 ≤ pc) && decide (pc < 0x6000)
      let cur := accRead (s.reg r i j 0) (r.desc.fields.filter fun f => f.acc == .rw || f.acc == .rwl)
      some (s.sloRegWrite r i j (if n = 8 then v else putBits cur 0 (8 * n) v) rom)
    | none => none

end Sys2Proof.Machine
end

