-- ==== Sys2Proof/Machine/Operands.lean ====
section
/-! DEFINITION. Operand specifiers (R53 to R60, R77, R78, R136), and what every tile instruction shares: issue, stall, fault,
completion (R56, R59, R71, R72, R91, R95). -/

namespace Sys2Proof.Machine

open Sys2Proof

/-- Where an operand lies. -/
inductive Place where
  | sram (a : Nat)
  | sloe (a : Nat)
  | ctl (o : Nat)
  | win (q : Nat) (peek : Bool)
  | put (p : Nat)
  | get (p : Nat)
  | pstat
  deriving DecidableEq, Repr

/-- An instruction in evaluation: the state with the side effects so far and, in `s0`, as it stood before it, for what no
operand sees before the whole completes (R56); whether a queue operand cannot be served (R59), a GET that waits for its round
trip (R136), whether every source value is `known` or one of them a stand-in for a word still to come; a transfer of control. -/
structure Ev where
  s : State
  s0 : State := s
  stall : Bool := false
  target : Nat := 15
  get : Option (Nat × Nat) := none
  known : Bool := true
  pc : Option Nat := none
  deriving DecidableEq, Repr

/-- Evaluation: a fault, or a value with what has been done so far. -/
abbrev Eval (α : Type) := Except TFault (α × Ev)

/-- An ILLEGAL_INSTR fault: ADDR holds PC (Table 3.7). -/
def illegalAt (pc : Nat) : TFault := { cause := .illegal, addr := pc }

/-- The control-space offset lies in a register of Table 3.2. -/
def ctlListed (o : Nat) : Bool := decide (o < 0xB8) || (decide (0x100 ≤ o) && decide (o < 0x180))

/-- Locate a tile-local address for an access of width `w` (R55, R57, R136; for the Sloe R347). -/
def locate (x : Site) (w : AccW) (write : Bool) (a : Nat) : Except TFault Place :=
  let bad (c : Cause) : Except TFault Place := .error { cause := c, write := write, addr := a }
  let ctl : Except TFault Place :=
    if !ctlListed (a - 0xD000) then bad .localAddr else if a % w.bytes ≠ 0 then bad .misaligned else .ok (.ctl (a - 0xD000))
  match x with
  | .sloe =>
    if 0xD000 ≤ a ∧ a < 0xE000 then ctl
    else if a ≥ 0xE000 ∨ (0xC100 ≤ a ∧ a < 0xC800) ∨ (0xC900 ≤ a ∧ a < 0xD000) then bad .localAddr
    else if a % w.bytes ≠ 0 then bad .misaligned
    else .ok (.sloe a)
  | .tile _ _ =>
    if a < 0xC000 then (if a % w.bytes ≠ 0 then bad .misaligned else .ok (.sram a))
    else if a < 0xC030 ∧ a % 8 = 0 then .ok (.win ((a - 0xC000) / 8) false)
    else if 0xC040 ≤ a ∧ a < 0xC070 ∧ a % 8 = 0 then
      (if write then bad .illegal else .ok (.win ((a - 0xC040) / 8) true))
    else if 0xC100 ≤ a ∧ a < 0xC120 ∧ a % 8 = 0 then
      (if write then .ok (.put ((a - 0xC100) / 8)) else bad .localAddr)
    else if 0xC120 ≤ a ∧ a < 0xC140 ∧ a % 8 = 0 then
      (if write then bad .localAddr else .ok (.get ((a - 0xC120) / 8)))
    else if a = 0xC140 then (if write then bad .localAddr else .ok .pstat)
    else if 0xD000 ≤ a ∧ a < 0xE000 then ctl
    else bad .localAddr

/-- The faults of a queue window: a missing neighbour, or window 5 outside its place (R57, R60). `read`, `write` say the
roles of the operand. -/
def winFault (x : Site) (q : Nat) (read write : Bool) : Option Cause :=
  match x with
  | .sloe => some .illegal
  | .tile _ t =>
    if q = 5 then (if write then some .noNeighbour else if t.val / 70 = 68 then none else some .noNeighbour)
    else if q = 4 then none
    else if (neighbour t.val q).isNone then
      (if q = 2 ∧ t.val / 70 = 69 ∧ !read then none else some .noNeighbour)
    else if read || write then none else none

/-- The fault that an address has as an operand of roles `rd` and `wr`, if it precedes CIRC_RANGE (R72, Table 3.6). -/
def preCirc (x : Site) (w : AccW) (rd wr : Bool) (a : Nat) : Option TFault :=
  let one (write : Bool) : Option TFault :=
    match locate x w write a with
    | .error f => if f.cause = .illegal ∨ f.cause = .localAddr then some f else none
    | .ok _ => none
  match (if wr then one true else none), (if rd then one false else none) with
  | some f, some g => if f.cause = .illegal then some f else some g
  | some f, none => some f
  | none, r => r

/-- Resolve an S8 or S12 specifier in the roles `rd` and `wr`: its address or window, and the core with the base update
(R53, R54). -/
def resolve (x : Site) (c : Tile) (w : AccW) (s8 : Nat) (xf : Nat) (rd wr : Bool) : Except TFault (Nat × Option (Nat × Bool) × Tile) :=
  let n := w.bytes
  let ill : Except TFault (Nat × Option (Nat × Bool) × Tile) := .error (illegalAt c.pc.toNat)
  if s8 < 0x40 then
    .ok ((c.breg (bitsOf s8 3 3) + (xf * 8 + bitsOf s8 0 3) * n) % 2 ^ 16, none, c)
  else if s8 < 0x80 then
    if xf ≠ 0 then ill else .ok ((c.breg (bitsOf s8 3 3) + c.breg (bitsOf s8 0 3) * n) % 2 ^ 16, none, c)
  else if s8 < 0xA0 then
    if xf ≠ 0 then ill else
    let k := bitsOf s8 2 3
    .ok (c.breg k % 2 ^ 16, none, c.setB k (c.breg k + n * 2 ^ bitsOf s8 0 2))
  else if s8 < 0xC0 then
    if xf ≠ 0 then ill else
    let k := bitsOf s8 2 3
    let se := c.circ (bitsOf s8 1 1)
    let a := c.breg k % 2 ^ 16
    if !(decide (se.1 ≤ a) && decide (a < se.2)) then
      (match preCirc x w rd wr a with
       | some f => .error (if f.cause = .illegal then illegalAt c.pc.toNat else f)
       | none => .error { cause := .circRange, addr := a })
    else
      let len := se.2 - se.1
      let v :=
        if bitsOf s8 0 1 = 0 then
          (let b := c.breg k + n; if (b % 2 ^ 16) ≥ se.2 then b + 2 ^ 32 - len else b)
        else
          (let b := c.breg k + 2 ^ 32 - n; if (b % 2 ^ 16) < se.1 then b + len else b)
      .ok (a, none, c.setB k v)
  else if s8 < 0xE0 then
    if xf ≠ 0 ∨ bitsOf s8 0 2 ≥ 2 ∨ bitsOf s8 2 3 ≥ 6 then ill
    else match x with
      | .sloe => ill
      | .tile _ _ => .ok (0xC000 + 8 * bitsOf s8 2 3 + 0x40 * bitsOf s8 0 1, some (bitsOf s8 2 3, bitsOf s8 0 1 == 1), c)
  else .ok ((xf * 32 + bitsOf s8 0 5) * 8, none, c)

/-- GA of a PUT or GET pair (R136). -/
def Tile.pairGa (c : Tile) (p : Nat) : Nat := (c.breg (2 * p) * 65536 + c.breg (2 * p + 1)) % 2 ^ 48

/-- The fault of a global access (R90): GLOBAL = 1. -/
def gaFault (c : Cause) (ga : Nat) (write : Bool) : TFault := { cause := c, glob := true, write := write, addr := ga }

/-- The tenant a tile acts for: the one whose context holds the field (R219). -/
def State.actTenant (s : State) (f : Nat) : Nat := (s.field f).resident.getD 0

/-- The address under which a place is logged (R280). -/
def Place.addr : Place → Nat
  | .sram a => a
  | .sloe a => a
  | .ctl o => 0xD000 + o
  | .win q pk => 0xC000 + 8 * q + (if pk then 0x40 else 0)
  | .put p => 0xC100 + 8 * p
  | .get p => 0xC120 + 8 * p
  | .pstat => 0xC140

/-- Count SEC-DED errors of a tile's SRAM in `RAS_FLD_ERR` (Table 13.4). -/
def State.sramErrCount (s : State) (f : Nat) (kind : Nat) : State :=
  if kind = 1 then s.countF F.rasFldErr_SRAM_CORR 1 f
  else if kind = 2 then (s.countF F.rasFldErr_SRAM_UNCORR 1 f).poisonEvent 0x02 f true
  else s

/-- Read a place at width `w`. -/
def readPlace (x : Site) (w : AccW) (e : Ev) (pl : Place) : Eval Nat :=
  let c := e.s.core x
  let n := w.bytes
  let done (v : Nat) (e : Ev) : Eval Nat :=
    .ok (v, { e with s := e.s.setCore x ((e.s.core x).logRead pl.addr v) })
  match pl with
  | .sram a =>
    let k := c.errAt a
    if k = 2 then .error { cause := .poison, addr := a }
    else
      let s1 := match x with
        | .tile f _ => e.s.sramErrCount f.val k
        | .sloe => e.s
      let c1 := { c with sramErr := Tab.set (fun _ => 0) c.sramErr (a / 8) 0 }
      done (c.rdSram a n) { e with s := s1.setCore x c1 }
  | .sloe a =>
    if e.s.flashStalls a then .ok (0, { e with s := e.s.flashStallRead a, stall := true, known := false })
    else match e.s.sloeRead a n with
    | some (v, s1) => done v { e with s := s1 }
    | none => .error { cause := .localAddr, addr := a }
  | .ctl o =>
    match (if 0x10 ≤ o ∧ o < 0x50 then e.s else e.s0).ctlRead x (o / 8 * 8) with
    | some v => done (lowW w (v / 2 ^ (8 * (o % 8)))) e
    | none => .error { cause := .localAddr, addr := 0xD000 + o }
  | .win q peek =>
    match x, winFault x q true false with
    | _, some cf => .error { cause := cf, addr := pl.addr }
    | .sloe, none => .error (illegalAt c.pc.toNat)
    | .tile f t, none =>
      if q = 5 then
        (let d := e.s.dense f.val
         let l := lane (if peek then e.s0.dense f.val else d).drain (t.val % 70)
         match l with
         | [] => .ok (0, { e with stall := true, target := 5, known := false })
         | v :: r =>
           done (lowW w v.toNat) (if peek then e
             else { e with s := e.s.setDense f.val { d with drain := setLane d.drain (t.val % 70) r } }))
      else
        match (if peek then e.s0.core x else c).queue q with
        | [] => .ok (0, { e with stall := true, target := q, known := false })
        | v :: r => done (lowW w v.toNat) (if peek then e else { e with s := e.s.setCore x (c.setQueue q r) })
  | .get p =>
    match x with
    | .sloe => .error { cause := .localAddr, addr := pl.addr }
    | .tile f _ =>
      let ga := c.pairGa p
      let tn := e.s.actTenant f.val
      let upd (c : Tile) : Tile := c.setB (2 * p + 1) (c.breg (2 * p + 1) + n)
      let chk := e.s.gaCheck false tn ga n n .read
      if e.s.checkHeld tn chk then .ok (0, { e with stall := true, known := false, s := e.s.setCore x (upd c) })
      else match chk with
      | some cf => .error (gaFault cf ga false)
      | none =>
        match c.got with
          | (v, .ok) :: r =>
            (let s1 := e.s.setCore x (upd { c with got := r })
             .ok (lowW w v.toNat, { e with s := s1.setCore x ((s1.core x).logRead ga (lowW w v.toNat)) }))
          | (_, .protection) :: _ => .error (gaFault .protection ga false)
          | (_, .poison) :: _ => .error (gaFault .poison ga false)
          | [] =>
            .ok (0, { e with s := e.s.setCore x (upd c), known := false, get := match e.get with | some g => some g | none => some (ga, n) })
  | .put _ => .error { cause := .localAddr, addr := pl.addr }
  | .pstat => done c.postsOut e

/-- Write a value of width `w` to a place. -/
def writePlace (x : Site) (w : AccW) (e : Ev) (pl : Place) (v : Nat) : Except TFault Ev :=
  let c := e.s.core x
  let n := w.bytes
  let v := lowW w v
  let logged (e : Ev) (a : Nat) : Ev := { e with s := e.s.setCore x ((e.s.core x).logWrite a v) }
  match pl with
  | .sram a =>
    let s1 := e.s.setCore x (c.wrSram a n v)
    let s2 := match x with
      | .tile f t => s1.breakResv (2 ^ 44 + f.val * 2 ^ 37 + t.val * 2 ^ 24 + a) n (some (tkey f.val t.val))
      | .sloe => s1
    .ok (logged { e with s := s2 } a)
  | .sloe a =>
    match e.s.sloeWrite a n v with
    | some s1 => .ok (logged { e with s := s1 } a)
    | none => .error { cause := .localAddr, write := true, addr := a }
  | .ctl off =>
    let o := off / 8 * 8
    match e.s.ctlRead x o with
    | none => .error { cause := .localAddr, write := true, addr := 0xD000 + off }
    | some old =>
      let full := ctlMerge off n old v
      if o = 0x08 ∨ o = 0x88 ∨ o = 0x98 ∨ (e.known ∧ o = 0x90 ∧ bitsOf full 3 1 ≠ bitsOf c.mode.toNat 3 1) then
        .error { cause := .controlWrite, write := true, addr := 0xD000 + off }
      else
        let chk := match x with
          | .tile _ t => if e.known ∧ 0x100 ≤ o ∧ o % 16 = 0 then checkDesc t.val full else none
          | .sloe => none
        match chk with
        | some cf => .error { cause := cf, write := true, addr := if cf = .illegal then c.pc.toNat else 0xD000 + o }
        | none =>
          let s1 := e.s.setCore x (c.ctlPut o full false)
          let s2 := match x with
            | .tile f t => if (s1.tile f.val t.val).sig = c.sig then s1 else s1.progress f.val
            | .sloe => s1
          .ok (logged { e with s := s2 } (0xD000 + off))
  | .win q peek =>
    if peek then .error { illegalAt c.pc.toNat with write := true }
    else match x, winFault x q false true with
    | _, some cf => .error { cause := cf, write := true, addr := pl.addr }
    | .sloe, none => .error (illegalAt c.pc.toNat)
    | .tile f t, none =>
      if e.s.room f.val t.val q = 0 then .ok { e with stall := true, target := 8 + q }
      else .ok (logged { e with s := e.s.push f.val t.val q (BitVec.ofNat 64 v) } pl.addr)
  | .put p =>
    match x with
    | .sloe => .error { cause := .localAddr, write := true, addr := pl.addr }
    | .tile f t =>
      let ga := c.pairGa p
      let tn := e.s.actTenant f.val
      match (if ga % n ≠ 0 then some Cause.misaligned else if !e.s.gaValid ga then some .globalAddr else none) with
      | some cf => .error (gaFault cf ga true)
      | none =>
        if c.postsOut ≥ 8 ∨ e.s.holding tn then .ok { e with stall := true }
        else
          let id := e.s.mesh.nextId
          let c1 := c.setB (2 * p + 1) (c.breg (2 * p + 1) + n)
          let s1 := e.s.setCore x { c1 with posts := c1.posts ++ [{ ga := ga, access := id }] }
          .ok (logged { e with s := s1.issue (.tile f.val t.val) false tn .posted ga n (bytesLE n v) (.put id) } ga)
  | .get _ => .error { cause := .localAddr, write := true, addr := pl.addr }
  | .pstat => .error { cause := .localAddr, write := true, addr := pl.addr }

/-- A source operand: resolve it, then read it. -/
def readOp (x : Site) (w : AccW) (s8 xf : Nat) (e : Ev) : Eval Nat :=
  match resolve x (e.s.core x) w s8 xf true false with
  | .error f => .error f
  | .ok (a, win, c1) =>
    match win with
    | some (q, pk) => readPlace x w e (.win q pk)
    | none =>
      match locate x w false a with
      | .error f => .error f
      | .ok pl => readPlace x w { e with s := e.s.setCore x c1 } pl

/-- A destination operand that is only written: resolve it, then write it. -/
def writeOp (x : Site) (w : AccW) (s8 xf : Nat) (e : Ev) (v : Nat) : Except TFault Ev :=
  match resolve x (e.s.core x) w s8 xf false true with
  | .error f => .error { f with write := true }
  | .ok (a, win, c1) =>
    match win with
    | some (q, pk) => writePlace x w e (.win q pk) v
    | none =>
      match locate x w true a with
      | .error f => .error (if f.cause = .illegal then { illegalAt (e.s.core x).pc.toNat with write := true } else f)
      | .ok pl => writePlace x w { e with s := e.s.setCore x c1 } pl v

/-- A destination in its source role (R78): resolved once; its read value, and where to write. -/
def readDst0 (x : Site) (w : AccW) (s8 xf : Nat) (e : Ev) : Eval (Nat × Place) :=
  match resolve x (e.s.core x) w s8 xf true true with
  | .error f => .error f
  | .ok (a, win, c1) =>
    match win with
    | some (q, pk) =>
      if pk then .error (illegalAt (e.s.core x).pc.toNat)
      else match winFault x q true true with
        | some cf => .error { cause := cf, write := true, addr := 0xC000 + 8 * q }
        | none =>
          match readPlace x w e (.win q false) with
          | .error f => .error f
          | .ok (v, e1) => .ok ((v, .win q false), e1)
    | none =>
      match locate x w false a with
      | .error f => .error f
      | .ok pl =>
        match pl with
        | .win _ true => .error (illegalAt (e.s.core x).pc.toNat)
        | .get _ => .error { cause := .localAddr, write := true, addr := a }
        | _ =>
          match readPlace x w { e with s := e.s.setCore x c1 } pl with
          | .error f => .error f
          | .ok (v, e1) => .ok ((v, pl), e1)

/-- A destination that is also a source: a fault at it is a destination's (Table 3.7 WRITE). -/
def readDst (x : Site) (w : AccW) (s8 xf : Nat) (e : Ev) : Eval (Nat × Place) :=
  match readDst0 x w s8 xf e with
  | .error f => .error { f with write := true }
  | .ok r => .ok r

/-! ### Issue, fault, stall, completion -/

/-- The sample under way is lost (R281): it counts in SKIPPED and the next firing is sampled in its place. -/
def State.dropTrace (s : State) (x : Site) : State :=
  let c := s.core x
  match c.trace with
  | some tr =>
    if tr.done then s
    else (s.setCore x { c with trace := none, sampleNext := true }).countF F.rasWitErr_SKIPPED 1
  | none => s

/-- The fault of a posted store that failed (R137). -/
def Post.fault (p : Post) : Option TFault := p.failed.map fun cf => gaFault cf p.ga true

/-- The posted stores after a fault: one that the fault reports is done with; every other still waits to be reported (R137). -/
def Tile.reportPost (c : Tile) (fl : TFault) : List Post :=
  match c.posts.find? (fun p => p.failed.isSome) with
  | some p => if p.fault = some fl then c.posts.erase p else c.posts
  | none => c.posts

/-- A precise fault (R71 to R73): the instruction has no effect, PC stays, the core halts, the sequencer is told. -/
def State.tileFault (s : State) (x : Site) (fl : TFault) (elem : Nat := 0) : State :=
  let s := s.dropTrace x
  let c := s.core x
  let info := fl.cause.code + bit fl.glob * 2 ^ 8 + bit fl.write * 2 ^ 9 + (fl.addr % 2 ^ 48) * 2 ^ 16
  let c1 := ((c.tsPut 6 1 1).tsPut 8 4 elem)
  let c2 := (c1.tsPut 20 1 0).tsPut 21 1 0
  let c3 := { c2 with faultInfo := if c.faultInfo = 0 then BitVec.ofNat 64 info else c.faultInfo, wait := .none, got := [],
                      posts := c.reportPost fl, ir := none }
  let s1 := s.setCore x c3
  match x with
  | .sloe => s1
  | .tile f t =>
    let tn := s1.actTenant f.val
    let s2 := if fl.cause = .poison ∧ !fl.glob ∧ !fl.sync ∧ c.errAt fl.addr = 2 then s1.sramErrCount f.val 2 else s1
    s2.seqEvent f.val { kind := 2, tenant := tn, tile := t.val, arg := (s2.reqOf f.val tn).getD 0 }

/-- A core can issue an instruction. -/
def State.canIssue (s : State) (x : Site) : Bool :=
  match x with
  | .sloe => s.sloeRuns
  | .tile f t =>
    let c := s.tile f.val t.val
    c.fired && !c.fault && !c.waiting && !c.frozen && !c.debugHalted && !c.haltReq && c.wait == .none && !(s.field f.val).freezing && s.released

/-- An instruction of a reservation's sequence completes: the 64th breaks it (R91). -/
def Tile.resvStep (c : Tile) : Tile :=
  match c.resv with
  | .held g n => { c with resv := if n + 1 ≥ 64 then .lost false else .held g (n + 1) }
  | _ => c

/-- Completion: PC moves past the instruction or to the transfer's target (R74). -/
def Ev.complete (x : Site) (e : Ev) (len : Nat) : State :=
  let c := e.s.core x
  let pc := match e.pc with
    | some p => p
    | none => c.pc.toNat + len
  e.s.setCore x (({ (c.tsPut 21 1 0) with pc := BitVec.ofNat 16 pc, got := [], ir := none } : Tile).resvStep)

/-- The end of an evaluation: a fault leaves the instruction without effect; a queue operand that cannot be served stalls it;
a GET issues its read; otherwise it completes. -/
def settleWith (x : Site) (s : State) (fin : Ev → State) (elem : Nat) (r : Except TFault Ev) : State :=
  match r with
  | .error f => s.tileFault x f elem
  | .ok e =>
    if e.stall then (match x with
      | .sloe => e.s.setCore x s.sloe.core
      | .tile _ _ => s.setCore x { ((s.core x).tsPut 21 1 1) with stallAt := e.target })
    else match e.get, x with
      | some (ga, n), .tile f t =>
        let c := s.tile f.val t.val
        (s.setTile f.val t.val { (c.tsPut 21 1 0) with wait := .get }).issue (.tile f.val t.val) false (s.actTenant f.val)
          .read ga n [] .get
      | _, _ => fin e

/-- The end of an instruction of `len` bytes. -/
def settle (x : Site) (s : State) (len : Nat) (r : Except TFault Ev) : State :=
  settleWith x s (fun e => e.complete x len) 0 r

/-- Run a tile instruction of `len` bytes; `svc` says the service profile has it (R95). -/
def instr (x : Site) (svc : Bool) (len : Nat) (s : State) (body : Ev → Except TFault Ev) : State :=
  if !s.canIssue x then s
  else if x == .sloe && !svc then s.tileFault x (illegalAt s.sloe.core.pc.toNat)
  else settle x s len (body { s := s })

/-- The S8 that a compact specifier stands for (Table 4.3). -/
def c5 (d : BitVec 5) : Nat :=
  if d.toNat < 16 then 0xE0 + d.toNat
  else if d.toNat < 24 then 0xC0 + 4 * (d.toNat - 16)
  else 0x80 + 4 * (d.toNat - 24)

/-- Set the flags of an instruction and its sticky bits, after any write to TS (R79). -/
def Ev.flags (x : Site) (e : Ev) (g : Option Flg) (ov : Bool) : Ev :=
  let c := e.s.core x
  let c1 := match g with
    | some g => c.setFlg g
    | none => c
  let c2 := if ov then c1.tsPut 4 1 1 else c1
  { e with s := e.s.setCore x c2 }

/-- Change the core in evaluation. -/
def Ev.mapCore (x : Site) (e : Ev) (h : Tile → Tile) : Ev := { e with s := e.s.setCore x (h (e.s.core x)) }

end Sys2Proof.Machine
end

