-- ==== Sys2Proof/Machine/TileAlu.lean ====
section
/-! DEFINITION. Tile integer instructions of the forms C2, T3, T2 and MX (R78 to R81, R84; Tables 4.6, 4.9, 4.10). -/

namespace Sys2Proof.Machine

open Sys2Proof

/-- A result: the value written, the flags, and whether OV is set. -/
structure Alu where
  v : Nat
  g : Option Flg := none
  ov : Bool := false
  deriving DecidableEq, Repr

/-- Addition, subtraction x − y, multiplication under R80. -/
def aluAdd (sat : Bool) (w : AccW) (a b : Nat) : Alu :=
  let r := narrowN (AccW.bits w) sat (sx w a + sx w b)
  ⟨r.1, some (flagsAdd (AccW.bits w) a b r.1), r.2⟩
def aluSub (sat : Bool) (w : AccW) (x y : Nat) : Alu :=
  let r := narrowN (AccW.bits w) sat (sx w x - sx w y)
  ⟨r.1, some (flagsSub (AccW.bits w) x y r.1), r.2⟩
def aluMul (sat : Bool) (w : AccW) (a b : Nat) : Alu :=
  let r := narrowN (AccW.bits w) sat (sx w a * sx w b)
  ⟨r.1, some (flagsM (AccW.bits w) r.1 r.2), r.2⟩
/-- AND, OR, XOR. -/
def aluLogic (op : Nat) (w : AccW) (a b : Nat) : Alu :=
  let r := logic op a b
  ⟨r, some (flagsL (AccW.bits w) r), false⟩
/-- The magnitude of a value; −2^(W−1) is out of range. -/
def aluAbs (sat : Bool) (w : AccW) (a : Nat) : Alu :=
  let r := narrowN (AccW.bits w) sat (if sx w a < 0 then -(sx w a) else sx w a)
  ⟨r.1, some (flagsM (AccW.bits w) r.1 r.2), r.2⟩
/-- MIN, MAX signed; MINU, MAXU unsigned: 0 to 3. -/
def aluMinMax (op : Nat) (w : AccW) (a d : Nat) : Alu :=
  let lt := if op < 2 then decide (sx w a < sx w d) else decide (a < d)
  let r := if op % 2 = 0 then (if lt then a else d) else (if lt then d else a)
  ⟨r, some (flagsL (AccW.bits w) r), false⟩
/-- SHL, SHR, SAR of d by a mod W: 0 to 2. -/
def aluShift (op : Nat) (w : AccW) (a d : Nat) : Alu :=
  let r := shiftOp op (AccW.bits w) d (a % AccW.bits w)
  ⟨r.1, some (flagsOf (AccW.bits w) r.1 r.2 false), false⟩

/-- D := f A D, D evaluated once (R78). -/
def twoAddr (x : Site) (w : AccW) (a d : Nat) (f : Nat → Nat → Alu) (e : Ev) : Except TFault Ev :=
  match readOp x w a 0 e with
  | .error fl => .error fl
  | .ok (va, e1) =>
    match readDst x w d 0 e1 with
    | .error fl => .error fl
    | .ok ((vd, pl), e2) =>
      let r := f va vd
      match writePlace x w e2 pl r.v with
      | .error fl => .error fl
      | .ok e3 => .ok (e3.flags x r.g r.ov)

/-- D := f A B (T3). -/
def threeAddr (x : Site) (w : AccW) (a b d : Nat) (f : Nat → Nat → Alu) (e : Ev) : Except TFault Ev :=
  match readOp x w a 0 e with
  | .error fl => .error fl
  | .ok (va, e1) =>
    match readOp x w b 0 e1 with
    | .error fl => .error fl
    | .ok (vb, e2) =>
      let r := f va vb
      match writeOp x w d 0 e2 r.v with
      | .error fl => .error fl
      | .ok e3 => .ok (e3.flags x r.g r.ov)

/-- D := f A, D not read; A at width `wa`, D at width `wd`. -/
def oneAddr (x : Site) (wa wd : AccW) (a xa d xd : Nat) (f : Nat → Alu) (e : Ev) : Except TFault Ev :=
  match readOp x wa a xa e with
  | .error fl => .error fl
  | .ok (va, e1) =>
    let r := f va
    match writeOp x wd d xd e1 r.v with
    | .error fl => .error fl
    | .ok e2 => .ok (e2.flags x r.g r.ov)

/-- Flags of f A D; D only read (CMP, TST): a peek is allowed (R78). -/
def readOnly (x : Site) (w : AccW) (a d : Nat) (f : Nat → Nat → Flg) (e : Ev) : Except TFault Ev :=
  match readOp x w a 0 e with
  | .error fl => .error fl
  | .ok (va, e1) =>
    match readOp x w d 0 e1 with
    | .error fl => .error fl
    | .ok (vd, e2) => .ok (e2.flags x (some (f va vd)) false)

/-- The width and specifiers of a two-operand form, and its length. -/
def form2 : Form2 → AccW × Nat × Nat × Nat
  | .c2 d a => (.w64, c5 a, c5 d, 2)
  | .t2 w a d => (AccW.ofCode w, a.toNat, d.toNat, 4)

/-- A form of ADD, SUB, AND, OR, XOR: in C2 the operation is D op A, in T3 it is A op B (Tables 4.6, 4.9). -/
def form3 (x : Site) (o : Form3) (f : AccW → Nat → Nat → Alu) (s : State) : State :=
  match o with
  | .c2 d a => instr x true 2 s (twoAddr x .w64 (c5 a) (c5 d) fun va vd => f .w64 vd va)
  | .t3 w a b d => instr x true 4 s (threeAddr x (AccW.ofCode w) a.toNat b.toNat d.toNat (f (AccW.ofCode w)))

/-- A T2 operation D := f A D. -/
def t2Two (x : Site) (o : T2Form) (f : AccW → Nat → Nat → Alu) (s : State) : State :=
  instr x true 4 s (twoAddr x (AccW.ofCode o.w) o.a.toNat o.d.toNat (f (AccW.ofCode o.w)))

/-- A T2 operation D := f A. -/
def t2One (x : Site) (o : T2Form) (f : AccW → Nat → Alu) (s : State) : State :=
  instr x true 4 s (oneAddr x (AccW.ofCode o.w) (AccW.ofCode o.w) o.a.toNat 0 o.d.toNat 0 (f (AccW.ofCode o.w)))

/-- MOV of C2 and T2: D := A. -/
def execTMov (x : Site) (o : Form2) (s : State) : Out :=
  let p := form2 o
  .next (instr x true p.2.2.2 s (oneAddr x p.1 p.1 p.2.1 0 p.2.2.1 0 fun a => ⟨a, none, false⟩))

/-- ADD. -/
def execTAdd (x : Site) (o : Form3) (s : State) : Out := .next (form3 x o (aluAdd (s.core x).sat) s)
/-- SUB: D − A in C2, A − B in T3. -/
def execTSub (x : Site) (o : Form3) (s : State) : Out := .next (form3 x o (aluSub (s.core x).sat) s)
/-- AND. -/
def execTAnd (x : Site) (o : Form3) (s : State) : Out := .next (form3 x o (aluLogic 0) s)
/-- OR. -/
def execTOr (x : Site) (o : Form3) (s : State) : Out := .next (form3 x o (aluLogic 1) s)
/-- XOR. -/
def execTXor (x : Site) (o : Form3) (s : State) : Out := .next (form3 x o (aluLogic 2) s)

/-- CMP: flags of D − A; V as the class gives, never OV (R80); Z and N of the wrapped difference. -/
def execTCmp (x : Site) (o : Form2) (s : State) : Out :=
  let p := form2 o
  let n := AccW.bits p.1
  .next (instr x true p.2.2.2 s (readOnly x p.1 p.2.1 p.2.2.1 fun a d => flagsSub n d a (wrapN n (sx p.1 d - sx p.1 a))))

/-- TST: flags of D AND A. -/
def execTTst (x : Site) (o : Form2) (s : State) : Out :=
  let p := form2 o
  .next (instr x true p.2.2.2 s (readOnly x p.1 p.2.1 p.2.2.1 fun a d => flagsL (AccW.bits p.1) (logic 0 d a)))

/-- MUL: D := A × B, integer. -/
def execTMul (x : Site) (w : BitVec 2) (a b d : Byte) (s : State) : Out :=
  .next (instr x true 4 s (threeAddr x (AccW.ofCode w) a.toNat b.toNat d.toNat (aluMul (s.core x).sat (AccW.ofCode w))))

/-- NEG: D := 0 − A. -/
def execTNeg (x : Site) (o : T2Form) (s : State) : Out := .next (t2One x o (fun w a => aluSub (s.core x).sat w 0 a) s)
/-- NOT. -/
def execTNot (x : Site) (o : T2Form) (s : State) : Out :=
  .next (t2One x o (fun w a => aluLogic 2 w a (2 ^ AccW.bits w - 1)) s)
/-- ABS. -/
def execTAbs (x : Site) (o : T2Form) (s : State) : Out := .next (t2One x o (aluAbs (s.core x).sat) s)
/-- MIN. -/
def execTMin (x : Site) (o : T2Form) (s : State) : Out := .next (t2Two x o (aluMinMax 0) s)
/-- MAX. -/
def execTMax (x : Site) (o : T2Form) (s : State) : Out := .next (t2Two x o (aluMinMax 1) s)
/-- MINU. -/
def execTMinu (x : Site) (o : T2Form) (s : State) : Out := .next (t2Two x o (aluMinMax 2) s)
/-- MAXU. -/
def execTMaxu (x : Site) (o : T2Form) (s : State) : Out := .next (t2Two x o (aluMinMax 3) s)
/-- SHL: D := D << (A mod W). -/
def execTShl (x : Site) (o : T2Form) (s : State) : Out := .next (t2Two x o (aluShift 0) s)
/-- SHR. -/
def execTShr (x : Site) (o : T2Form) (s : State) : Out := .next (t2Two x o (aluShift 1) s)
/-- SAR. -/
def execTSar (x : Site) (o : T2Form) (s : State) : Out := .next (t2Two x o (aluShift 2) s)
/-- POPC. -/
def execTPopc (x : Site) (o : T2Form) (s : State) : Out :=
  .next (t2One x o (fun w a =>
    let r := popc (AccW.bits w) a
    ⟨r, some (flagsL (AccW.bits w) r), false⟩) s)
/-- CLZ. -/
def execTClz (x : Site) (o : T2Form) (s : State) : Out :=
  .next (t2One x o (fun w a =>
    let r := clz (AccW.bits w) a
    ⟨r, some (flagsL (AccW.bits w) r), false⟩) s)

/-- MX: a 64-bit MOV with S12 operands (R84). -/
def execTMovx (x : Site) (xa xd : BitVec 4) (a d : Byte) (s : State) : Out :=
  .next (instr x true 4 s (oneAddr x .w64 .w64 a.toNat xa.toNat d.toNat xd.toNat fun v => ⟨v, none, false⟩))

end Sys2Proof.Machine
end

