-- ==== Sys2Proof/Machine/TileFixed.lean ====
section
/-! DEFINITION. Tile multiply-accumulate and the fixed-point conversions (R62 to R64, R80, R82, R83; Tables 3.5, 4.11). -/

namespace Sys2Proof.Machine

open Sys2Proof

/-- Fraction bits of the format that QSEL and W select (Table 3.5). -/
def fracBits (q : Nat) (w : AccW) : Nat :=
  if q = 0 then 0 else if q = 1 then AccW.bits w - 1 else AccW.bits w / 2

/-- Fraction bits of the accumulator scale (R82): integer, or Q9.30. -/
def accFrac (q : Nat) : Nat := if q = 0 then 0 else 30

/-- Move a value from `fa` to `fb` fraction bits, rounded under FXRND (R63). -/
def rescale (mode : Nat) (fa fb : Nat) (v : Int) : Int :=
  if fb ≥ fa then v * (2 ^ (fb - fa) : Int) else fxRound mode v (fa - fb)

/-- The sum of eight products of signed byte lanes (R64). -/
def dot8 (a b : Nat) : Int :=
  (upTo 8).foldl (fun s i => s + signedOf 8 (bitsOf a (8 * i) 8) * signedOf 8 (bitsOf b (8 * i) 8)) 0

/-- The sum of two Q0.15 products (R64). -/
def dot2 (a b : Nat) : Int :=
  (upTo 2).foldl (fun s i => s + signedOf 16 (bitsOf a (16 * i) 16) * signedOf 16 (bitsOf b (16 * i) 16)) 0

/-- An accumulator. -/
def Tile.acc (c : Tile) (one : Bool) : Int := signedOf 40 (if one then c.acc1.toNat else c.acc0.toNat)

/-- Write an accumulator: it saturates at 40 bits and then sets OV (R64, R82). -/
def Tile.setAcc (c : Tile) (one : Bool) (v : Int) : Tile :=
  let r := BitVec.ofNat 40 (wrapN 40 (clampN 40 v))
  let c1 := if one then { c with acc1 := r } else { c with acc0 := r }
  if outOfRange 40 v then c1.tsPut 4 1 1 else c1

/-- Accumulate f A D, neither written (MAC8, MACQ, MAC). -/
def macOp (x : Site) (w : AccW) (a d : Nat) (one clr : Bool) (f : Nat → Nat → Int) (e : Ev) : Except TFault Ev :=
  match readOp x w a 0 e with
  | .error fl => .error fl
  | .ok (va, e1) =>
    match readOp x w d 0 e1 with
    | .error fl => .error fl
    | .ok (vd, e2) => .ok (e2.mapCore x fun c => c.setAcc one ((if clr then 0 else c.acc one) + f va vd))

/-- MAC8: acc += eight int8 products of A and D. -/
def execTMac8 (x : Site) (acc : Bool) (d a : BitVec 5) (s : State) : Out :=
  .next (instr x false 2 s (macOp x .w64 (c5 a) (c5 d) acc false dot8))

/-- MACQ: acc += two Q0.15 products, read at W = 32. -/
def execTMacq (x : Site) (acc : Bool) (d a : BitVec 5) (s : State) : Out :=
  .next (instr x false 2 s (macOp x .w32 (c5 a) (c5 d) acc false dot2))

/-- MAC (R83): F[4:0] must be 0. -/
def execTMac (x : Site) (acc fmt clr : Bool) (zero : BitVec 5) (a b : Byte) (s : State) : Out :=
  .next (instr x false 4 s fun e =>
    if zero ≠ 0 then .error (illegalAt (e.s.core x).pc.toNat)
    else if fmt then macOp x .w32 a.toNat b.toNat acc clr dot2 e
    else macOp x .w64 a.toNat b.toNat acc clr dot8 e)

/-- A TQ instruction with QSEL above 2 is illegal (R62, R82). -/
def tq (x : Site) (svc : Bool) (o : TQForm) (extra : Bool) (s : State) (body : Ev → Except TFault Ev) : State :=
  instr x svc 4 s fun e =>
    if o.qsel.toNat > 2 ∨ extra then .error (illegalAt (e.s.core x).pc.toNat) else body e

/-- The class M result of narrowing an exact value to `n` bits. -/
def mResult (n : Nat) (sat : Bool) (v : Int) : Alu :=
  let r := narrowN n sat v
  ⟨r.1, some (flagsM n r.1 r.2), r.2⟩

/-- MULQ: D := A × D in the format QSEL and W select. -/
def execTMulq (x : Site) (o : TQForm) (s : State) : Out :=
  let w := AccW.ofCode o.w
  let c := s.core x
  let q := o.qsel.toNat
  .next (tq x true o false s (twoAddr x w o.a.toNat o.d.toNat fun a d =>
    mResult (AccW.bits w) c.sat (fxRound c.fxrnd (sx w a * sx w d) (fracBits q w))))

/-- NARROW: D at W := A read as the 64-bit format of the column. -/
def execTNarrow (x : Site) (o : TQForm) (s : State) : Out :=
  let w := AccW.ofCode o.w
  let c := s.core x
  let q := o.qsel.toNat
  .next (tq x true o false s (oneAddr x .w64 w o.a.toNat 0 o.d.toNat 0 fun a =>
    mResult (AccW.bits w) c.sat (rescale c.fxrnd (fracBits q .w64) (fracBits q w) (sx .w64 a))))

/-- WIDEN: D at 64 bits := A read at W; flags on the 64-bit value written (assumption 13). -/
def execTWiden (x : Site) (o : TQForm) (s : State) : Out :=
  let w := AccW.ofCode o.w
  let c := s.core x
  let q := o.qsel.toNat
  .next (tq x true o false s (oneAddr x w .w64 o.a.toNat 0 o.d.toNat 0 fun a =>
    mResult 64 c.sat (rescale c.fxrnd (fracBits q w) (fracBits q .w64) (sx w a))))

/-- RDACC: D := acc, from accumulator scale; A must be 0x00. -/
def execTRdacc (x : Site) (acc : Bool) (o : TQForm) (s : State) : Out :=
  let w := AccW.ofCode o.w
  let q := o.qsel.toNat
  .next (tq x false o (o.a != 0) s fun e =>
    let c := e.s.core x
    let r := mResult (AccW.bits w) c.sat (rescale c.fxrnd (accFrac q) (fracBits q w) (c.acc acc))
    match writeOp x w o.d.toNat 0 e r.v with
    | .error fl => .error fl
    | .ok e1 => .ok (e1.flags x r.g r.ov))

/-- WRACC: acc := A, to accumulator scale; D must be 0x00. -/
def execTWracc (x : Site) (acc : Bool) (o : TQForm) (s : State) : Out :=
  let w := AccW.ofCode o.w
  let q := o.qsel.toNat
  .next (tq x false o (o.d != 0) s fun e =>
    match readOp x w o.a.toNat 0 e with
    | .error fl => .error fl
    | .ok (v, e1) =>
      .ok (e1.mapCore x fun c => c.setAcc acc (rescale c.fxrnd (fracBits q w) (accFrac q) (sx w v))))

end Sys2Proof.Machine
end

