-- ==== Sys2Proof/Machine/TileCtl.lean ====
section
/-! DEFINITION. Tile instructions of the forms B16, J16, BR and the K16 instructions that touch only the core
(Tables 4.5, 4.7, 4.8; R79 to R81, R84, R120). -/

namespace Sys2Proof.Machine

open Sys2Proof

/-- An instruction that only changes the core. -/
def coreInstr (x : Site) (svc : Bool) (len : Nat) (s : State) (bad : Bool) (h : Tile → Tile) : State :=
  instr x svc len s fun e =>
    if bad then .error (illegalAt (e.s.core x).pc.toNat) else .ok (e.mapCore x h)

/-- Write bk and set flags taken on 32 bits (R79). -/
def Tile.setBF (c : Tile) (k v : Nat) (g : Flg) : Tile := (c.setB k v).setFlg g

/-- An 8-bit immediate sign-extended to 32 bits. -/
def imm32 (imm : Byte) : Nat := wrapN 32 (signedOf 8 imm.toNat)

/-- LI: bk := imm8 sign-extended. -/
def execTLi (x : Site) (k : Fin 8) (imm : Byte) (s : State) : Out :=
  .next (coreInstr x true 2 s false fun c => c.setB k.val (imm32 imm))

/-- LSH: bk := (bk << 8) OR imm8. -/
def execTLsh (x : Site) (k : Fin 8) (imm : Byte) (s : State) : Out :=
  .next (coreInstr x true 2 s false fun c => c.setB k.val (c.breg k.val * 256 + imm.toNat))

/-- ADDI: bk := bk + imm8 sign-extended; class A; wraps. -/
def execTAddi (x : Site) (k : Fin 8) (imm : Byte) (s : State) : Out :=
  .next (coreInstr x true 2 s false fun c =>
    let r := (c.breg k.val + imm32 imm) % 2 ^ 32
    c.setBF k.val r (flagsAdd 32 (c.breg k.val) (imm32 imm) r))

/-- CMPI: flags of bk − imm8 sign-extended. -/
def execTCmpi (x : Site) (k : Fin 8) (imm : Byte) (s : State) : Out :=
  .next (coreInstr x true 2 s false fun c =>
    c.setFlg (flagsSub 32 (c.breg k.val) (imm32 imm) ((c.breg k.val + 2 ^ 32 - imm32 imm) % 2 ^ 32)))

/-- SHLI: imm8[7:5] must be 0. -/
def execTShli (x : Site) (k : Fin 8) (imm : Byte) (s : State) : Out :=
  .next (coreInstr x true 2 s (bitsOf imm.toNat 5 3 != 0) fun c =>
    c.setB k.val (c.breg k.val * 2 ^ bitsOf imm.toNat 0 5))

/-- SHRI: logical; imm8[7:5] must be 0. -/
def execTShri (x : Site) (k : Fin 8) (imm : Byte) (s : State) : Out :=
  .next (coreInstr x true 2 s (bitsOf imm.toNat 5 3 != 0) fun c =>
    c.setB k.val (c.breg k.val / 2 ^ bitsOf imm.toNat 0 5))

/-- The operation of RR on bk and bj (Table 4.7 op 6). -/
def rrOp (op k j : Nat) (c : Tile) : Tile :=
  let a := c.breg k
  let b := c.breg j
  if op = 0 then c.setB k b
  else if op = 1 then c.setBF k ((a + b) % 2 ^ 32) (flagsAdd 32 a b ((a + b) % 2 ^ 32))
  else if op = 2 then c.setBF k ((a + 2 ^ 32 - b) % 2 ^ 32) (flagsSub 32 a b ((a + 2 ^ 32 - b) % 2 ^ 32))
  else if op = 6 then c.setFlg (flagsSub 32 a b ((a + 2 ^ 32 - b) % 2 ^ 32))
  else c.setBF k (logic (op - 3) a b) (flagsL 32 (logic (op - 3) a b))

/-- RR: imm8[2:0] j, [4:3] 0, [7:5] the operation; 7 is illegal. -/
def execTRr (x : Site) (k : Fin 8) (imm : Byte) (s : State) : Out :=
  let op := bitsOf imm.toNat 5 3
  .next (coreInstr x true 2 s (bitsOf imm.toNat 3 2 != 0 || op == 7) (rrOp op k.val (bitsOf imm.toNat 0 3)))

/-- LDB: bk := the 32-bit SRAM word at slot × 8. -/
def execTLdb (x : Site) (k : Fin 8) (slot : BitVec 7) (s : State) : Out :=
  .next (instr x true 2 s fun e =>
    match locate x .w32 false (slot.toNat * 8) with
    | .error f => .error f
    | .ok pl =>
      match readPlace x .w32 e pl with
      | .error f => .error f
      | .ok (v, e1) => .ok (e1.mapCore x fun c => c.setB k.val v))

/-- STB: the 64-bit SRAM word at slot × 8 := bk zero-extended. -/
def execTStb (x : Site) (k : Fin 8) (slot : BitVec 7) (s : State) : Out :=
  .next (instr x true 2 s fun e =>
    match locate x .w64 true (slot.toNat * 8) with
    | .error f => .error f
    | .ok pl => writePlace x .w64 e pl ((e.s.core x).breg k.val))

/-- NOP: imm8 must be 0. -/
def execTNop (x : Site) (imm : Byte) (s : State) : Out := .next (coreInstr x true 2 s (imm != 0) id)

/-- ACLR: 0 acc0, 1 acc1, 2 both. -/
def execTAclr (x : Site) (imm : Byte) (s : State) : Out :=
  .next (coreInstr x false 2 s (decide (imm.toNat > 2)) fun c =>
    { c with acc0 := if imm = 1 then c.acc0 else 0, acc1 := if imm = 0 then c.acc1 else 0 })

/-- ARM a firing slot. -/
def execTArm (x : Site) (imm : Byte) (s : State) : Out :=
  .next (coreInstr x false 2 s (decide (imm.toNat > 7)) fun c => c.setArmed imm.toNat true)

/-- DISARM a firing slot. -/
def execTDisarm (x : Site) (imm : Byte) (s : State) : Out :=
  .next (coreInstr x false 2 s (decide (imm.toNat > 7)) fun c => c.setArmed imm.toNat false)

/-- JR: PC := bk[15:0]; an odd target is MISALIGNED with ADDR = target. -/
def execTJr (x : Site) (imm : Byte) (s : State) : Out :=
  .next (instr x true 2 s fun e =>
    let c := e.s.core x
    let tgt := c.breg (bitsOf imm.toNat 0 3) % 2 ^ 16
    if imm.toNat > 7 then .error (illegalAt c.pc.toNat)
    else if tgt % 2 = 1 then .error { cause := .misaligned, addr := tgt }
    else .ok { e with pc := some tgt })

/-- SETRND: FXRND := imm8[1:0]. -/
def execTSetrnd (x : Site) (imm : Byte) (s : State) : Out :=
  .next (coreInstr x true 2 s (decide (imm.toNat > 3)) fun c =>
    { c with mode := BitVec.ofNat 64 (putBits c.mode.toNat 0 2 imm.toNat) })

/-- SETSAT: SAT := imm8[0]. -/
def execTSetsat (x : Site) (imm : Byte) (s : State) : Out :=
  .next (coreInstr x true 2 s (decide (imm.toNat > 1)) fun c =>
    { c with mode := BitVec.ofNat 64 (putBits c.mode.toNat 2 1 imm.toNat) })

/-- A conditional branch by `off` bytes from PC; `link` saves PC + 4 in a base register when taken (R84). -/
def branch (x : Site) (len cond : Nat) (off : Int) (link : Option Nat) (bad : Bool) (s : State) : State :=
  instr x true len s fun e =>
    let c := e.s.core x
    match condHolds c.flg cond with
    | none => .error (illegalAt c.pc.toNat)
    | some t =>
      if bad then .error (illegalAt c.pc.toNat)
      else if !t then .ok e
      else
        let e1 := match link with
          | some k => e.mapCore x fun c => c.setB k ((c.pc.toNat + 4) % 2 ^ 16)
          | none => e
        .ok { e1 with pc := some (wrapN 16 (c.pc.toNat + off)) }

/-- J16: PC + 2 × off9 when cond holds. -/
def execTJ16 (x : Site) (cond : BitVec 4) (off : BitVec 9) (s : State) : Out :=
  .next (branch x 2 cond.toNat (2 * signedOf 9 off.toNat) none false s)

/-- BR: PC + off16 when cond holds; an odd off16 is illegal. -/
def execTBr (x : Site) (cond : BitVec 4) (l : Bool) (k : Fin 8) (off : Half) (s : State) : Out :=
  .next (branch x 4 cond.toNat (signedOf 16 off.toNat) (if l then some k.val else none) (off.toNat % 2 == 1) s)

/-! ### Repeats (R87 to R89) -/

/-- The fields of a REP instruction from its halfwords (Table 4.2). -/
def repForm (w g : Nat) : RepForm :=
  ⟨BitVec.ofNat 2 (bitsOf w 6 2), Fin.ofNat 8 (bitsOf w 0 3), Fin.ofNat 8 (bitsOf g 13 3), Fin.ofNat 8 (bitsOf g 10 3), BitVec.ofNat 10 g⟩

/-- The repeat under way is this one, when the core has fetched one (R75). -/
def Tile.running (c : Tile) (rop : BitVec 3) (o : RepForm) : Bool :=
  match c.ir with
  | some (w, g) => rop == BitVec.ofNat 3 (bitsOf w 3 3) && o == repForm w g
  | none => true

/-- The initial state of a repeat (R88); GATHER starts with CNT = 16 and STEP in 8-byte units. -/
def Tile.loadRep (c : Tile) (gather : Bool) (o : RepForm) : Tile :=
  let w := AccW.ofCode o.w
  { (c.tsPut 7 1 1) with
    cnt := if gather then 16 else BitVec.ofNat 16 (c.breg o.k.val)
    sptr := BitVec.ofNat 16 (c.breg o.i.val)
    dptr := BitVec.ofNat 16 (c.breg o.j.val)
    step := BitVec.ofNat 16 (wrapN 16 (signedOf 10 o.step.toNat * (if gather then 8 else w.bytes))) }

/-- The flags of an exhausted CMP or SCAN: Z = 1 or Z = 0, N, C and V 0. -/
def Tile.exhaust (c : Tile) (rop : Nat) : Tile :=
  if rop = 2 then c.setFlg ⟨true, false, false, false⟩
  else if rop = 3 then c.setFlg ⟨false, false, false, false⟩ else c

/-- A repeat completes: REPEAT := 0, PC + 4. -/
def Ev.repDone (x : Site) (e : Ev) : State := (e.mapCore x fun c => c.tsPut 7 1 0).complete x 4

/-- A REP instruction: it loads its state when REPEAT = 0 and completes at once with CNT = 0; its elements are REPEAT_ELEMENT. -/
def repStart (x : Site) (rop : Nat) (o : RepForm) (s : State) : State :=
  let c := s.core x
  let step := signedOf 10 o.step.toNat
  if !s.canIssue x then s
  else if (rop = 4 ∧ (x = .sloe ∨ o.w ≠ 3 ∨ step < 1 ∨ step > 256)) ∨ rop > 4 then s.tileFault x (illegalAt c.pc.toNat)
  else
    let c1 := if c.repeat_ then c else c.loadRep (rop == 4) o
    if c1.cnt = 0 then Ev.repDone x { s := s.setCore x (c1.exhaust rop) } else s.setCore x c1

/-- REP MOVE. -/
def execTRepMove (x : Site) (o : RepForm) (s : State) : Out := .next (repStart x 0 o s)
/-- REP FILL. -/
def execTRepFill (x : Site) (o : RepForm) (s : State) : Out := .next (repStart x 1 o s)
/-- REP CMP. -/
def execTRepCmp (x : Site) (o : RepForm) (s : State) : Out := .next (repStart x 2 o s)
/-- REP SCAN. -/
def execTRepScan (x : Site) (o : RepForm) (s : State) : Out := .next (repStart x 3 o s)
/-- RGATH. -/
def execTRgath (x : Site) (o : RepForm) (s : State) : Out := .next (repStart x 4 o s)

/-- A pointer after an element: a window does not advance (R89). The Sloe has registers there, no windows (R347). -/
def advance (x : Site) (p : Half) (by_ : Nat) : Half :=
  if x ≠ .sloe ∧ 0xC000 ≤ p.toNat ∧ p.toNat < 0xD000 then p else p + BitVec.ofNat 16 by_

/-- One element of MOVE, FILL, CMP or SCAN (R88). -/
def repElem (x : Site) (rop : Nat) (w : AccW) (e : Ev) : Except TFault Ev :=
  let c := e.s.core x
  match locate x w false c.sptr.toNat with
  | .error f => .error f
  | .ok ps =>
    match readPlace x w e ps with
    | .error f => .error f
    | .ok (a, e1) =>
      if rop < 2 then
        match locate x w true c.dptr.toNat with
        | .error f => .error (if f.cause = .illegal then { illegalAt c.pc.toNat with write := true } else f)
        | .ok pd => writePlace x w e1 pd a
      else
        match locate x w false c.dptr.toNat with
        | .error f => .error f
        | .ok pd =>
          match readPlace x w e1 pd with
          | .error f => .error f
          | .ok (d, e2) =>
            .ok (e2.mapCore x fun c =>
              c.setFlg (flagsSub (AccW.bits w) d a (wrapN (AccW.bits w) (sx w d - sx w a))))

/-- After an element: leave the loop, count down and advance, or complete. -/
def repNext (x : Site) (rop : Nat) (w : AccW) (e : Ev) : State :=
  let c := (e.s.core x).tsPut 21 1 0
  let z := c.flg.z
  if (rop = 2 ∧ !z) ∨ (rop = 3 ∧ z) then Ev.repDone x e
  else
    let c1 := { c with
      cnt := c.cnt - 1, got := [],
      sptr := if rop = 0 ∨ rop = 2 then advance x c.sptr w.bytes else c.sptr,
      dptr := advance x c.dptr c.step.toNat }
    if c1.cnt = 0 then Ev.repDone x { e with s := e.s.setCore x (c1.exhaust rop) } else e.s.setCore x c1

/-- An event waits to be taken by a tile (R70): a context switch, a freeze or a debug halt. -/
def State.eventWaits (s : State) (f t : Nat) : Bool :=
  (s.field f).switching.isSome || (s.field f).freezing || (s.tile f t).haltReq

/-- Issue the next gather element (R88, R89): its index word, its global address, its destination, checked in element order and
within an element in the order of R56 and Table 3.6; an element that fails is reported once every earlier element has been
written. While an event waits none is issued (R70). The index word is read here, before the destinations of earlier elements
are written, a choice of the model (assumption 119). -/
def gatherIssue (f : FieldNo) (t : TileNo) (o : RepForm) (s : State) : State :=
  let c := s.tile f.val t.val
  let x : Site := .tile f t
  let n := c.gath.length
  let step := c.step.toNat
  let sp := c.sptr.toNat + 4 * n
  let dp := c.dptr.toNat + step * n
  let ft (fl : TFault) : State :=
    if n = 0 then s.tileFault x fl (16 - c.cnt.toNat) else s
  if n ≥ 4 ∨ n ≥ c.cnt.toNat ∨ s.eventWaits f.val t.val then s
  else if step % 8 ≠ 0 ∨ step < 8 ∨ step > 2048 then ft (illegalAt c.pc.toNat)
  else if sp + 4 > 0xC000 then ft { cause := .localAddr, addr := c.sptr.toNat + 4 * n }
  else if sp % 4 ≠ 0 then ft { cause := .misaligned, addr := sp }
  else if c.errAt sp = 2 then ft { cause := .poison, addr := sp }
  else
    let ga := c.breg o.k.val * 65536 + c.rdSram sp 4 * step
    let tn := s.actTenant f.val
    if ga ≥ 2 ^ 48 then ft (gaFault .globalAddr (ga % 2 ^ 48) false)
    else if s.checkHeld tn (s.gaCheck false tn ga step 1 .read) then s
    else match s.gaCheck false tn ga step 1 .read with
      | some cf => ft (gaFault cf ga false)
      | none =>
        if dp + step > 0xC000 then ft { cause := .localAddr, write := true, addr := dp }
        else if dp % 8 ≠ 0 then ft { cause := .misaligned, write := true, addr := dp }
        else
          let id := s.mesh.nextId
          let c1 := { ((c.fixSpan sp 4).logRead sp (c.rdSram sp 4)) with gath := c.gath ++ [{ access := id, dst := dp, len := step, ga := ga }] }
          ((s.setTile f.val t.val c1).sramErrCount f.val (c.errAt sp)).issue (.tile f.val t.val) false tn .read ga step [] (.gather n)

/-- REPEAT_ELEMENT: one element of the repeat in progress (R88); without one, or while the core cannot go on, nothing. The
repeat is the instruction that was fetched when it began (R75). -/
def execRepeatElement (x : Site) (rop : BitVec 3) (o : RepForm) (s : State) : Out :=
  let c := s.core x
  let w := AccW.ofCode o.w
  .next (
    if !s.canIssue x || !c.repeat_ || !c.running rop o then s
    else if rop.toNat > 4 then s.tileFault x (illegalAt c.pc.toNat)
    else if c.cnt = 0 then (if c.gath.isEmpty then Ev.repDone x { s := s.setCore x (c.exhaust rop.toNat) } else s)
    else match rop.toNat, x with
      | 4, .tile f t => gatherIssue f t o s
      | 4, .sloe => s.tileFault x (illegalAt c.pc.toNat)
      | r, _ => settleWith x s (repNext x r w) 0 (repElem x r w { s := s }))

end Sys2Proof.Machine
end

