-- ==== Sys2Proof/Machine/TileSync.lean ====
section
/-! DEFINITION. Tile instructions that reach beyond the tile: DONE, signals, cells, barriers, FIRE and the global accesses
(R90 to R94, R137, R189 to R197, R281, R394). -/

namespace Sys2Proof.Machine

open Sys2Proof

/-- The instructions of R137 complete only after every posted store of the tile is acknowledged; a failed store faults them. -/
def syncPosts (x : Site) (e : Ev) : Except TFault Ev :=
  let c := e.s.core x
  match c.posts.find? (fun p => p.failed.isSome) with
  | some p => .error (gaFault (p.failed.getD .poison) p.ga true)
  | none => .ok (if c.postsOut > 0 then { e with stall := true } else e)

/-- An instruction of a tile that waits for its posted stores, then acts. -/
def afterPosts (x : Site) (len : Nat) (s : State) (bad : Bool) (body : FieldNo → TileNo → Ev → Except TFault Ev) : State :=
  instr x false len s fun e =>
    if bad then .error (illegalAt (e.s.core x).pc.toNat)
    else match syncPosts x e, x with
      | .error f, _ => .error f
      | .ok e1, .tile f t => if e1.stall then .ok e1 else body f t e1
      | .ok e1, .sloe => .ok e1

/-- A waiting instruction: TS.WAIT, PC stays on it (R189, R191, R196). -/
def waitOn (s : State) (f : FieldNo) (t : TileNo) (w : TWait) (gate : Bool) : State :=
  let c := s.tile f.val t.val
  s.setTile f.val t.val { (c.tsPut 21 1 0).tsPut 20 1 (bit gate) with wait := w }

/-- A fault or a wait: an instruction of `x` that ends by waiting. -/
def waitInstr (x : Site) (s : State) (posts bad : Bool)
    (body : FieldNo → TileNo → State → Except TFault State) : State :=
  match x with
  | .sloe => if s.canIssue x then s.tileFault x (illegalAt s.sloe.core.pc.toNat) else s
  | .tile f t =>
    if !s.canIssue x then s
    else if bad then s.tileFault x (illegalAt (s.tile f.val t.val).pc.toNat)
    else match (if posts then syncPosts x { s := s } else .ok { s := s }) with
      | .error fl => s.tileFault x fl
      | .ok e =>
        if e.stall then s.setTile f.val t.val { ((s.tile f.val t.val).tsPut 21 1 1) with stallAt := 15 }
        else match body f t s with
          | .error fl => s.tileFault x fl
          | .ok s1 => s1

/-! ### DONE and the end of a sampled firing -/

/-- Size of a trace: a head of 256 bytes and 16 bytes for each log entry (assumption 14). -/
def Trace.size (tr : Trace) : Nat := 256 + 16 * tr.log.length

/-- The end of a sampled firing at DONE (R280, R281): the signature ends with the accumulators and the flags; a trace that
does not fit, or a firing of more than 4,096 field cycles, is dropped. -/
def State.endTrace (s : State) (f t : Nat) : State :=
  let c := s.tile f t
  match c.trace with
  | some tr =>
    if tr.done then s
    else if tr.size > 4096 ∨ s.fieldCyc f - tr.start > 4096000 then
      (s.setTile f t { c with trace := none, sampleNext := true }).countF F.rasWitErr_SKIPPED 1
    else
      let g := c.flg
      let ws := [wrapN 64 (signedOf 40 c.acc0.toNat), wrapN 64 (signedOf 40 c.acc1.toNat), bit g.z, bit g.n, bit g.c, bit g.v]
      let crc := ws.foldl crc64Word tr.crc.toNat ^^^ (2 ^ 64 - 1)
      s.setTile f t { c with trace := some { tr with crc := BitVec.ofNat 64 crc, done := true } }
  | none => s

/-- DONE: TS.FIRED := 0; the tile returns to firing evaluation (Table 4.8, R137). -/
def execTDone (x : Site) (imm : Byte) (s : State) : Out :=
  .next (afterPosts x 2 s (imm != 0) fun f t e =>
    let s1 := e.s.endTrace f.val t.val
    .ok { e with s := s1.setTile f.val t.val { (s1.tile f.val t.val).tsPut 19 1 0 with decSeen := false } })

/-! ### Signals (R188, R189) -/

/-- Set or clear signal `n` of a tile; a set wakes a SWAIT on it, and the wake stays (R189). -/
def Tile.putSig (c : Tile) (n : Nat) (v : Bool) : Tile :=
  { c with
    sig := BitVec.ofNat 32 (putBits c.sig.toNat n 1 (bit v))
    wait := match c.wait with
      | .sig m w => .sig m (w || (m == n && v))
      | w => w }

/-- SSET. -/
def execTSset (x : Site) (imm : Byte) (s : State) : Out :=
  .next (afterPosts x 2 s (decide (imm.toNat > 31)) fun f _ e =>
    .ok { e.mapCore x (fun c => c.putSig imm.toNat true) with s := (e.mapCore x (fun c => c.putSig imm.toNat true)).s.progress f.val })

/-- SCLR. -/
def execTSclr (x : Site) (imm : Byte) (s : State) : Out :=
  .next (afterPosts x 2 s (decide (imm.toNat > 31)) fun f _ e =>
    .ok { e.mapCore x (fun c => c.putSig imm.toNat false) with s := (e.mapCore x (fun c => c.putSig imm.toNat false)).s.progress f.val })

/-- SWAIT: completes when sn = 1, otherwise waits (R189). -/
def execTSwait (x : Site) (imm : Byte) (s : State) : Out :=
  .next (waitInstr x s false (decide (imm.toNat > 31)) fun f t s =>
    if bitsOf (s.tile f.val t.val).sig.toNat imm.toNat 1 = 1 then .ok (Ev.complete x { s := s } 2)
    else .ok (waitOn s f t (.sig imm.toNat false) true))

/-! ### Barriers (R195 to R197) -/

/-- A field barrier group. -/
def State.bar (s : State) (f g : Nat) : Bar := Tab.get (fun _ => ⟨0, 0, false, 0, false⟩) (s.field f).bars g

/-- Replace a field barrier group. -/
def State.setBar (s : State) (f g : Nat) (b : Bar) : State :=
  s.setField f { s.field f with bars := Tab.set (fun _ => ⟨0, 0, false, 0, false⟩) (s.field f).bars g b }

/-- A precise fault that names a group or a cell (R190, R197). -/
def syncFault (n : Nat) : TFault := { cause := .protection, addr := n }

/-- An arrival at a field group goes up the tree (R196, R197); an armed injection gives it bad parity (Table 9.2). -/
def State.arriveF (s : State) (f g : Nat) : Except TFault State :=
  let b := s.bar f g
  if b.expect = 0 then .error (syncFault g)
  else
    let par := (s.field f).treeInj
    let s1 := s.setBar f g { b with arrivals := b.arrivals + 1, parity := b.parity || par }
    .ok ((s1.setField f { s1.field f with treeInj := false }).progress f)

/-- Arrivals on their way to a wafer group's root. -/
def State.wbarArrivals (s : State) (g : Nat) : Nat := Tab.get (fun _ => 0) s.hub.wbarArr g

/-- An arrival restarts the detector of every field of the tenant (R204). -/
def State.progressTenant (s : State) (t : Nat) : State :=
  (s.maskFields t).foldl (fun s f => if s.residentIs f t then s.progress f else s) s

/-- An arrival at a wafer group (R196, R197). -/
def State.arriveW (s : State) (t g : Nat) : Except TFault State :=
  if !s.flag F.hubWbar_VALID g || s.getF F.hubWbar_OWNER g != t then .error (syncFault g)
  else
    .ok ({ s with hub := { s.hub with wbarArr := Tab.set (fun _ => 0) s.hub.wbarArr g (s.wbarArrivals g + 1) } }.progressTenant t)

/-- BARF: arrive at a field barrier and wait. -/
def execTBarf (x : Site) (imm : Byte) (s : State) : Out :=
  .next (waitInstr x s true false fun f t s =>
    match s.arriveF f.val imm.toNat with
    | .error fl => .error fl
    | .ok s1 => .ok (waitOn s1 f t (.barF imm.toNat (s.bar f.val imm.toNat).sense) true))

/-- BARW: arrive at a wafer barrier and wait; 64 to 255 are illegal. -/
def execTBarw (x : Site) (imm : Byte) (s : State) : Out :=
  .next (waitInstr x s true (decide (imm.toNat > 63)) fun f t s =>
    match s.arriveW (s.actTenant f.val) imm.toNat with
    | .error fl => .error fl
    | .ok s1 => .ok (waitOn s1 f t (.barW imm.toNat (s.flag F.hubWbar_SENSE imm.toNat)) true))

/-! ### FIRE and signal cells (R93, R119, R190, R191) -/

/-- FIRE: load the descriptor at imm16 into the slot and arm it. -/
def execTFire (x : Site) (o : SYForm) (s : State) : Out :=
  .next (instr x false 4 s fun e =>
    let c := e.s.core x
    let a := o.imm.toNat
    match x with
    | .sloe => .error (illegalAt c.pc.toNat)
    | .tile _ t =>
      if o.arg.toNat > 7 then .error (illegalAt c.pc.toNat)
      else if a ≥ 0xC000 then .error { cause := .localAddr, addr := a }
      else if a % 8 ≠ 0 then .error { cause := .misaligned, addr := a }
      else match readPlace x .w64 e (.sram a) with
        | .error fl => .error fl
        | .ok (d, e1) =>
          match checkDesc t.val d with
          | some cf => .error { cause := cf, addr := if cf = .illegal then c.pc.toNat else a }
          | none => .ok (e1.mapCore x fun c => (c.setDesc o.arg.toNat d).setArmed o.arg.toNat true))

/-- The pool index of cell `c` of a tenant's allotment; a cell outside it faults (R190). -/
def State.cellIndex (s : State) (f t c : Nat) : Except TFault Nat :=
  if c ≥ s.getF F.fldCellAllot_COUNT f t * 64 then .error (syncFault c)
  else .ok (s.getF F.fldCellAllot_BASE f t * 64 + c)

/-- Send an operation to a field's pool (R191). -/
def State.sendCell (s : State) (f : Nat) (r : CellReq) : State :=
  s.setField f { s.field f with cellOps := (s.field f).cellOps ++ [{ r with at_ := s.now }] }

/-- The cell instructions of a tile: check the cell, send the operation, wait for the pool. -/
def cellInstr (x : Site) (o : SYForm) (op : CellOp) (posts gate : Bool) (s : State) : State :=
  waitInstr x s posts (o.arg != 0 || decide (o.imm.toNat ≥ 4096)) fun f t s =>
    match s.cellIndex f.val (s.actTenant f.val) o.imm.toNat with
    | .error fl => .error fl
    | .ok i =>
      .ok ((waitOn s f t (if gate then .cell i else .cellAck i) gate).sendCell f.val { by_ := .tile t.val, op := op, cell := i })

/-- CSET. -/
def execTCset (x : Site) (o : SYForm) (s : State) : Out := .next (cellInstr x o .set true false s)
/-- CCLR. -/
def execTCclr (x : Site) (o : SYForm) (s : State) : Out := .next (cellInstr x o .clear true false s)
/-- CWAIT. -/
def execTCwait (x : Site) (o : SYForm) (s : State) : Out := .next (cellInstr x o .wait false true s)
/-- CTST. -/
def execTCtst (x : Site) (o : SYForm) (s : State) : Out := .next (cellInstr x o .test false false s)

/-! ### Global accesses (R90 to R92) -/

/-- GA of a GL instruction. -/
def glGa (c : Tile) (o : GLForm) : Nat := (c.breg o.k.val * 65536 + c.breg o.j.val) % 2 ^ 48

/-- The local operand of a GL access at its completion or, before issue, tried out with its value not known: a source (GST,
SC) or a destination. -/
def glLocal (x : Site) (w : AccW) (src : Bool) (l v : Nat) (e : Ev) : Eval Nat :=
  if src then readOp x w l 0 e
  else match writeOp x w l 0 e v with
    | .error f => .error f
    | .ok e1 => .ok (0, e1)

/-- A GST, TAS or SC elsewhere breaks the tile's own reservation (R91). -/
def Tile.loseOwn (c : Tile) : Tile :=
  match c.resv with
  | .held _ _ => { c with resv := .lost false }
  | _ => c

/-- The reservation holds a granule. -/
def Tile.holds (c : Tile) (granule : Nat) : Bool :=
  match c.resv with
  | .held g _ => g == granule
  | _ => false

/-- C of a failing SC (R91): 0 when the reservation of the last LR was lost by contention. -/
def Tile.scC (c : Tile) : Bool :=
  match c.resv with
  | .lost true => false
  | _ => true

/-- The count of consecutive SCs lost by contention at one granule (R394). -/
def Tile.countSc (c : Tile) (g : Nat) (ok contention : Bool) : Tile :=
  if ok || !contention then { c with contFails := 0, contGranule := g }
  else { c with contFails := if c.contGranule = g then c.contFails + 1 else 1, contGranule := g }

/-- The flags of a failed SC: Z = 0, C as R91 gives. -/
def Tile.scFlags (c : Tile) (ok cBit : Bool) : Tile :=
  c.setFlg { c.flg with z := ok, c := if ok then false else cBit }

/-- The operands of a GL instruction in the order of R56: the source L of GST and SC before the destination GA, which sees the
base registers as L leaves them; the source GA of the others before the destination L. The value of L, GA and what has been
done so far; it stalls while `held` says that the check of GA is held (R229). -/
def glOperands (x : Site) (sub : Nat) (o : GLForm) (s : State) (held : Nat → Bool) (chk : Nat → Option TFault) : Eval (Nat × Nat) :=
  let w := AccW.ofCode o.w
  let src := sub == 1 || sub == 4
  let loc : Eval Nat := glLocal x w src o.l.toNat 0 { s := s, known := src }
  if src then
    match loc with
    | .error fl => .error fl
    | .ok (v, e) =>
      let ga := glGa (e.s.core x) o
      if held ga then .ok ((v, ga), { e with stall := true })
      else match chk ga with
      | some fl => .error fl
      | none => .ok ((v, ga), e)
  else
    let ga := glGa (s.core x) o
    if held ga then .ok ((0, ga), { s := s, stall := true })
    else match chk ga, loc with
    | some fl, _ => .error fl
    | none, .error fl => .error fl
    | none, .ok (v, e) => .ok ((v, ga), e)

/-- Issue a GL access: 0 GLD, 1 GST, 2 TAS, 3 LR, 4 SC. Its operands are tried out first, so that every fault and stall
comes before the access leaves (R56, R59); the tile then waits for its round trip (R90). An SC without the reservation writes
nothing and completes at once. -/
def glIssue (x : Site) (sub : Nat) (o : GLForm) (s : State) : State :=
  waitInstr x s false (o.zero != 0 || (decide (sub ≥ 2) && o.w != 3)) fun f t s =>
    let c := s.tile f.val t.val
    let w := AccW.ofCode o.w
    let n := w.bytes
    let tn := s.actTenant f.val
    let wr := sub == 1 || sub == 2 || sub == 4
    let k : Kind := if sub ≥ 2 then .atomic else if sub = 1 then .write else .read
    match glOperands x sub o s (fun ga => s.checkHeld tn (s.gaCheck false tn ga n n k)) fun ga =>
        (s.gaCheck false tn ga n n k).map fun cf => gaFault cf ga wr with
      | .error fl => .error fl
      | .ok ((v, ga), e) =>
        if e.stall then .ok (s.setTile f.val t.val { (c.tsPut 21 1 1) with stallAt := e.target })
        else match e.get with
          | some (g, gn) =>
            .ok ((s.setTile f.val t.val { (c.tsPut 21 1 0) with wait := .get }).issue (.tile f.val t.val) false tn .read g gn [] .get)
          | none =>
            if sub = 4 ∧ !c.holds (s.granKey ga) then
              let cb := c.scC
              .ok (Ev.complete x (e.mapCore x fun c =>
                { (c.scFlags false cb).countSc (ga / 64) false (!cb) with resv := .none }) 4)
            else
              let c1 := if sub = 1 ∨ sub = 2 then c.loseOwn else c
              let pri := decide (c.contFails ≥ 8) && c.contGranule == ga / 64
              let op : PktOp :=
                if sub = 0 then .read else if sub = 1 then .write else if sub = 2 then .atomic .tas
                else if sub = 3 then .atomic (.lr pri) else .atomic (.sc (BitVec.ofNat 64 v))
              .ok (((waitOn (s.setTile f.val t.val c1) f t (.gl ⟨sub, w, o.l, ga, v⟩) false)).issue (.tile f.val t.val) false tn op ga n
                (if sub = 1 then bytesLE n v else []) .gl)

/-- GLD. -/
def execTGld (x : Site) (o : GLForm) (s : State) : Out := .next (glIssue x 0 o s)
/-- GST. -/
def execTGst (x : Site) (o : GLForm) (s : State) : Out := .next (glIssue x 1 o s)
/-- TAS. -/
def execTTas (x : Site) (o : GLForm) (s : State) : Out := .next (glIssue x 2 o s)
/-- LR. -/
def execTLr (x : Site) (o : GLForm) (s : State) : Out := .next (glIssue x 3 o s)
/-- SC. -/
def execTSc (x : Site) (o : GLForm) (s : State) : Out := .next (glIssue x 4 o s)

/-- PRIORITY_HOLD_END: the hold on a granule ends once its tile's reservation is gone or 4 µs have passed (R394). -/
def execPriorityHoldEnd (granule : BitVec 42) (s : State) : Out :=
  .next { s with mesh := { s.mesh with holds := s.mesh.holds.filter fun h =>
    !(h.granule == granule.toNat && (decide (s.now ≥ h.since + 4000) || !s.resvHeld h.key h.granule)) } }

end Sys2Proof.Machine
end

