-- ==== Sys2Proof/Machine/Decimal.lean ====
section
/-! DEFINITION. The decimal lane (R65 to R69, R85, R86, R109, R110), shared by the tiles and the field sequencers. -/

namespace Sys2Proof.Machine

open Sys2Proof

/-- The sign nibble of a D16 word (R65). -/
def d16Nib (v : Nat) : Nat := bitsOf v 60 4

/-- A valid sign nibble (R66). -/
def nibOk (n : Nat) : Bool := n == 0xC || n == 0xD || n == 0xF

/-- All fifteen digits are decimal. -/
def d16DigitsOk (v : Nat) : Bool := (upTo 15).all fun j => decide (bitsOf v (4 * j) 4 ≤ 9)

/-- A valid D16 word (R66). -/
def d16Ok (v : Nat) : Bool := nibOk (d16Nib v) && d16DigitsOk v

/-- The magnitude that `n` BCD digits spell. -/
def bcdVal : Nat → Nat → Nat
  | 0, _ => 0
  | n + 1, v => v % 16 + 10 * bcdVal n (v / 16)

/-- The BCD digits of a magnitude. -/
def bcdOf : Nat → Nat → Nat
  | 0, _ => 0
  | n + 1, v => v % 10 + 16 * bcdOf n (v / 10)

/-- The value of a valid D16 word in units of its scale. -/
def d16Val (v : Nat) : Int := if d16Nib v = 0xD then -(bcdVal 15 v : Int) else (bcdVal 15 v : Int)

/-- The largest magnitude (R65). -/
def d16Max : Nat := 999999999999999

/-- A D16 word from a sign nibble and a magnitude. -/
def d16Word (nib m : Nat) : Nat := nib * 2 ^ 60 + bcdOf 15 m

/-- Round num ÷ den under a rounding mode of R85; den is positive. -/
def decRound (rnd : Nat) (num : Int) (den : Nat) : Int :=
  let m := num.natAbs
  let q := m / den
  let r := m % den
  let neg := decide (num < 0)
  let up :=
    if rnd = 0 then decide (2 * r > den) || (2 * r == den && q % 2 == 1)
    else if rnd = 1 then decide (2 * r ≥ den)
    else if rnd = 2 then decide (2 * r > den)
    else if rnd = 3 then false
    else if rnd = 4 then r != 0
    else if rnd = 5 then r != 0 && neg
    else r != 0 && !neg
  let a : Int := ((if up then q + 1 else q : Nat) : Int)
  if neg then -a else a

/-- What a decimal operation writes, its flags, and whether it is a decimal fault. -/
structure Dec where
  v : Nat
  g : Flg
  fault : Bool
  deriving DecidableEq, Repr

/-- The flags of a written D16 word (R86). -/
def d16Flags (v : Nat) (fault : Bool) : Flg := ⟨decide (bcdVal 15 v = 0), decide (d16Nib v = 0xD), false, fault⟩

/-- The sign nibble of a result (R66): `srcF` when there is a D16 source and every one carries 0xF. -/
def resNib (srcF neg : Bool) : Nat := if neg then 0xD else if srcF then 0xF else 0xC

/-- Round an exact result num ÷ den at the destination scale and check the 15-digit limit (R67, R68). -/
def decFinish (srcF : Bool) (rnd : Nat) (num : Int) (den : Nat) : Dec :=
  let r := decRound rnd num den
  if r.natAbs > d16Max then
    let w := d16Word (resNib srcF (decide (num < 0))) d16Max
    ⟨w, d16Flags w true, true⟩
  else
    let w := d16Word (resNib srcF (decide (r < 0))) r.natAbs
    ⟨w, d16Flags w false, false⟩

/-- The result of an invalid input (R68): `srcs` in the order of evaluation. -/
def decInvalid (srcs : List Nat) : Dec :=
  let nib := match srcs.find? (fun v => nibOk (d16Nib v)) with
    | some v => d16Nib v
    | none => 0xC
  let w := d16Word nib d16Max
  ⟨w, d16Flags w true, true⟩

/-- ADD, SUB, MUL and DIV of x at scale sx and y at scale sy to scale sd: op 0 to 3 (R85, R110). `srcs` are the
sources in the order of evaluation. -/
def decOp (op : Nat) (srcs : List Nat) (x sx y sy sd rnd : Nat) : Dec :=
  if srcs.all d16Ok then
    let f := srcs.all fun v => d16Nib v == 0xF
    let a := d16Val x
    let b := d16Val y
    if op = 0 then decFinish f rnd ((a * 10 ^ sy + b * 10 ^ sx) * 10 ^ sd) (10 ^ (sx + sy))
    else if op = 1 then decFinish f rnd ((a * 10 ^ sy - b * 10 ^ sx) * 10 ^ sd) (10 ^ (sx + sy))
    else if op = 2 then decFinish f rnd (a * b * 10 ^ sd) (10 ^ (sx + sy))
    else if b = 0 then
      let w := d16Word (resNib f (decide (a < 0))) d16Max
      ⟨w, d16Flags w true, true⟩
    else decFinish f rnd ((if b < 0 then -a else a) * 10 ^ (sy + sd)) (b.natAbs * 10 ^ sx)
  else decInvalid srcs

/-- Rescale a D16 word from scale sa to sd. -/
def decRescale (a sa sd rnd : Nat) : Dec :=
  if d16Ok a then decFinish (d16Nib a == 0xF) rnd (d16Val a * 10 ^ sd) (10 ^ sa) else decInvalid [a]

/-- Compare x with y exactly (R86); an invalid input gives V (R68). -/
def decCmp (x sx y sy : Nat) : Flg × Bool :=
  if d16Ok x && d16Ok y then
    (⟨decide (d16Val x * 10 ^ sy = d16Val y * 10 ^ sx), decide (d16Val x * 10 ^ sy < d16Val y * 10 ^ sx), false, false⟩, false)
  else (⟨false, false, false, true⟩, true)

/-! ### Conversions (Table 4.13, R69) -/

/-- Width and fraction bits of a binary kind 0 to 3. -/
def convFmt (kind : Nat) : AccW × Nat :=
  if kind = 0 then (.w32, 0) else if kind = 1 then (.w16, 15) else if kind = 2 then (.w32, 16) else (.w32, 31)

/-- The three digits of a 10-bit DPD declet (IEEE 754). -/
def declet (d : Nat) : Nat :=
  let b (i : Nat) : Nat := bitsOf d i 1
  let hi := 4 * b 9 + 2 * b 8 + b 7
  let mid := 4 * b 6 + 2 * b 5 + b 4
  let lo := 4 * b 2 + 2 * b 1 + b 0
  if b 3 = 0 then 100 * hi + 10 * mid + lo
  else if b 2 = 0 ∧ b 1 = 0 then 100 * hi + 10 * mid + 8 + b 0
  else if b 2 = 0 then 100 * hi + 10 * (8 + b 4) + 4 * b 6 + 2 * b 5 + b 0
  else if b 1 = 0 then 100 * (8 + b 7) + 10 * mid + 4 * b 9 + 2 * b 8 + b 0
  else
    let e := 2 * b 6 + b 5
    if e = 0 then 100 * (8 + b 7) + 10 * (8 + b 4) + 4 * b 9 + 2 * b 8 + b 0
    else if e = 1 then 100 * (8 + b 7) + 10 * (4 * b 9 + 2 * b 8 + b 4) + 8 + b 0
    else if e = 2 then 100 * hi + 10 * (8 + b 4) + 8 + b 0
    else 100 * (8 + b 7) + 10 * (8 + b 4) + 8 + b 0

/-- A declet is canonical: with three large digits its two free bits are 0. -/
def decletOk (d : Nat) : Bool :=
  !(bitsOf d 1 3 == 7 && bitsOf d 5 2 == 3) || bitsOf d 8 2 == 0

/-- A decimal64 word, DPD or BID: none for an infinity or NaN, else sign, coefficient and exponent; a non-canonical
encoding reads as zero (R69). The layout is that of IEEE 754. -/
def decimal64 (bid : Bool) (v : Nat) : Option (Bool × Nat × Int) :=
  let neg := bitsOf v 63 1 == 1
  let comb := bitsOf v 58 5
  if comb ≥ 30 then none
  else if bid then
    let big := bitsOf v 61 2 == 3
    let e := if big then bitsOf v 51 10 else bitsOf v 53 10
    let c := if big then 2 ^ 53 + bitsOf v 0 51 else bitsOf v 0 53
    some (neg, if c ≥ 10 ^ 16 then 0 else c, (e : Int) - 398)
  else
    let big := comb ≥ 24
    let msd := if big then 8 + comb % 2 else comb % 8
    let e := (if big then comb / 2 % 4 else comb / 8) * 256 + bitsOf v 50 8
    let ds := (upTo 5).map fun i => bitsOf v (10 * i) 10
    let c := (ds.reverse.foldl (fun a d => a * 1000 + declet d) msd)
    some (neg, if ds.all decletOk then c else 0, (e : Int) - 398)

/-- DCIN: the D16 word at scale s of a value of a kind. -/
def decIn (kind s rnd a : Nat) : Dec :=
  if kind < 4 then
    let f := convFmt kind
    decFinish false rnd (sx f.1 a * 10 ^ s) (2 ^ f.2)
  else match decimal64 (kind == 5) a with
    | none => decInvalid []
    | some (neg, c, e) =>
      let n : Int := if neg then -(c : Int) else c
      decFinish false rnd (n * 10 ^ (s + e.toNat)) (10 ^ (-e).toNat)

/-- DCOUT: the value of a kind of a valid D16 word at scale s: round, then saturate. -/
def decOut (kind s rnd a : Nat) : Dec :=
  let f := convFmt kind
  let n := AccW.bits f.1
  let r := decRound rnd (d16Val a * 2 ^ f.2) (10 ^ s)
  let w := wrapN n (clampN n r)
  ⟨w, flagsOf n w false (outOfRange n r), outOfRange n r⟩

/-! ### Tile instructions -/

/-- A decimal fault in a tile: the sticky bit, and under DEC_PROP the first one of a firing sends a DECIMAL event, by which the
request takes status 0x21 (R69). -/
def decFaultTile (x : Site) (e : Ev) (fault : Bool) : Ev :=
  if !fault then e
  else
    let c := e.s.core x
    let e1 := e.mapCore x fun c => { (c.tsPut 5 1 1) with decSeen := true }
    match x with
    | .sloe => e1
    | .tile f t =>
      if c.decProp && !c.decSeen then
        let tn := e1.s.actTenant f.val
        let k := e1.s.reqOf f.val tn
        { e1 with s := (e1.s.addStat k 0x21).seqEvent f.val { kind := 3, tenant := tn, tile := t.val, arg := k.getD 0 } }
      else e1

/-- Flags and decimal fault of a DX instruction. -/
def decEnd (x : Site) (e : Ev) (g : Flg) (fault : Bool) : Ev := (decFaultTile x (e.flags x (some g) false) fault)

/-- A DX instruction (R85; the service profile keeps it, R95); rnd 7 and `bad` are illegal. -/
def dx (x : Site) (o : DXForm) (bad : Bool) (s : State) (body : Ev → Except TFault Ev) : State :=
  instr x true 4 s fun e =>
    if o.rnd = 7 ∨ bad then .error (illegalAt (e.s.core x).pc.toNat) else body e

/-- D := D op A; the scale code is SA × 9 + SD (R85). -/
def dxArith (x : Site) (o : DXForm) (op : Nat) (s : State) : State :=
  let sa := o.sc.toNat / 9
  let sd := o.sc.toNat % 9
  dx x o (decide (o.sc.toNat > 80)) s fun e =>
    match readOp x .w64 o.a.toNat 0 e with
    | .error fl => .error fl
    | .ok (a, e1) =>
      match readDst x .w64 o.d.toNat 0 e1 with
      | .error fl => .error fl
      | .ok ((d, pl), e2) =>
        let r := decOp op [a, d] d sd a sa sd o.rnd.toNat
        match writePlace x .w64 e2 pl r.v with
        | .error fl => .error fl
        | .ok e3 => .ok (decEnd x e3 r.g r.fault)

/-- DADD. -/
def execTDadd (x : Site) (o : DXForm) (s : State) : Out := .next (dxArith x o 0 s)
/-- DSUB. -/
def execTDsub (x : Site) (o : DXForm) (s : State) : Out := .next (dxArith x o 1 s)
/-- DMUL. -/
def execTDmul (x : Site) (o : DXForm) (s : State) : Out := .next (dxArith x o 2 s)

/-- DCMP: rnd must be 0. -/
def execTDcmp (x : Site) (o : DXForm) (s : State) : Out :=
  .next (dx x o (decide (o.sc.toNat > 80) || o.rnd != 0) s fun e =>
    match readOp x .w64 o.a.toNat 0 e with
    | .error fl => .error fl
    | .ok (a, e1) =>
      match readOp x .w64 o.d.toNat 0 e1 with
      | .error fl => .error fl
      | .ok (d, e2) =>
        let r := decCmp d (o.sc.toNat % 9) a (o.sc.toNat / 9)
        .ok (decEnd x e2 r.1 r.2))

/-- A DX operation D := f A, A read at width `wa`, D written at width `wd`. -/
def dxConv (x : Site) (o : DXForm) (bad : Bool) (wa wd : AccW) (f : Nat → Dec) (s : State) : State :=
  dx x o bad s fun e =>
    match readOp x wa o.a.toNat 0 e with
    | .error fl => .error fl
    | .ok (a, e1) =>
      let r := f a
      match writeOp x wd o.d.toNat 0 e1 r.v with
      | .error fl => .error fl
      | .ok e2 => .ok (decEnd x e2 r.g r.fault)

/-- DRSC. -/
def execTDrsc (x : Site) (o : DXForm) (s : State) : Out :=
  .next (dxConv x o (decide (o.sc.toNat > 80)) .w64 .w64
    (fun a => decRescale a (o.sc.toNat / 9) (o.sc.toNat % 9) o.rnd.toNat) s)

/-- DCIN: kinds 0 to 5. -/
def execTDcin (x : Site) (o : DXForm) (s : State) : Out :=
  let kind := o.sc.toNat / 16
  let sc := o.sc.toNat % 16
  .next (dxConv x o (decide (kind > 5) || decide (sc > 8)) (if kind < 4 then (convFmt kind).1 else .w64) .w64
    (fun a => decIn kind sc o.rnd.toNat a) s)

/-- DCOUT: kinds 0 to 3. Of an invalid D16 word the spec states no result: the value is free (assumption 15), and Z and N
are taken from it. -/
def execTDcout (x : Site) (o : DXForm) (s : State) : Out :=
  let kind := o.sc.toNat / 16
  let sc := o.sc.toNat % 16
  let w := (convFmt kind).1
  .next (dx x o (decide (kind > 3) || decide (sc > 8)) s fun e =>
    match readOp x .w64 o.a.toNat 0 e with
    | .error fl => .error fl
    | .ok (a, e1) =>
      let d := e1.s.draw
      let r : Dec × Ev :=
        if d16Ok a then (decOut kind sc o.rnd.toNat a, e1)
        else
          let v := lowW w d.1.toNat
          (⟨v, flagsOf (AccW.bits w) v false true, true⟩, { e1 with s := d.2 })
      match writeOp x w o.d.toNat 0 r.2 r.1.v with
      | .error fl => .error fl
      | .ok e2 => .ok (decEnd x e2 r.1.g r.1.fault))

end Sys2Proof.Machine
end

