-- ==== Sys2Proof/Machine/TileEvents.lean ====
section
/-! DEFINITION. What happens to a tile from outside its instructions: firing (R121 to R124, R279), queue arrivals (R126),
events (R70), outside writes (R50), remote accesses (R137) and the returns of its own accesses (R89, R90, R136). -/

namespace Sys2Proof.Machine

open Sys2Proof

/-! ### Firing and sampling -/

/-- A physical tile is in the suspect table (R286). -/
def State.suspectTile (s : State) (pf pt : Nat) : Bool :=
  (upTo 128).any fun i => s.flag F.rasSuspect_VALID i && s.getF F.rasSuspect_PFIELD i == pf && s.getF F.rasSuspect_PTILE i == pt

/-- log2 of the sampling interval of a tile's firing, none when its tenant samples nothing (R279, Table 13.7). -/
def State.sampleLog (s : State) (f t tn : Nat) : Option Nat :=
  let r := s.getF F.rasWitRate_RATE tn
  if s.suspectTile (s.pfield f) (s.ptile f t) then some 4
  else if r = 0 then none
  else some (if r < 8 then 8 else if r > 16 then 16 else r)

/-- Begin the trace of a sampled firing (R280): its head. -/
def State.newTrace (s : State) (f t slot : Nat) : Trace :=
  let c := s.tile f t
  let tn := s.actTenant f
  { tenant := tn, seqNo := ((s.hub.reqs.find? fun r => r.out && some r.slot == s.reqOf f tn).map (·.seqNo)).getD 0,
    f := f, t := t, pf := s.pfield f, pt := s.ptile f t, slot := slot, entry := bitsOf (c.descr slot) 0 16,
    regs := (upTo 8).map c.breg ++ [c.acc0.toNat, c.acc1.toNat, c.tsGet 0 4, c.mode.toNat, c.circ0.toNat, c.circ1.toNat],
    log := [], crc := BitVec.ofNat 64 (2 ^ 64 - 1), start := s.fieldCyc f }

/-- The sampling LFSR of a physical tile, seeded at boot (R279, assumption 109). -/
def State.lfsr (s : State) (pf pt : Nat) : BitVec 32 := Tab.get (fun k => Config.lfsrSeed (k / 5184) (k % 5184)) s.ras.lfsr (pf * 5184 + pt)

/-- The LFSR of a physical tile takes its next state. -/
def State.lfsrStep (s : State) (pf pt : Nat) : State :=
  { s with ras := { s.ras with lfsr := Tab.insert s.ras.lfsr (pf * 5184 + pt) (Config.lfsrNext (s.lfsr pf pt)) } }

/-- KERNEL_FIRE: an idle tile fires the lowest-numbered armed slot whose needs hold: FIRED, SLOT, PC (R121). The firing is
sampled when the low bits of the tile's LFSR, one for each halving of the rate, are 0, or when the last sample was dropped
(R279, R281). -/
def execKernelFire (f : FieldNo) (t : TileNo) (s : State) : Out :=
  .next (
    let c := s.tile f.val t.val
    if !c.idle || (s.field f.val).freezing || !s.released then s
    else match s.readySlot f.val t.val with
      | none => s
      | some i =>
        let pf := s.pfield f.val
        let pt := s.ptile f.val t.val
        let want := match s.sampleLog f.val t.val (s.actTenant f.val) with
          | some k => c.sampleNext || (s.lfsr pf pt).toNat % 2 ^ k == 0
          | none => false
        let busy := c.trace.isSome
        let tr := if want && !busy then some (s.newTrace f.val t.val i) else c.trace
        let c1 := { (c.tsPut 16 3 i).tsPut 19 1 1 with
          pc := BitVec.ofNat 16 (bitsOf (c.descr i) 0 16), trace := tr, sampleNext := c.sampleNext && !want, decSeen := false }
        let s1 := ((((s.lfsrStep pf pt).setTile f.val t.val c1).progress f.val).wake f.val)
        if want && busy then s1.countF F.rasWitErr_SKIPPED 1 else s1)

/-- QUEUE_ENTRY_ARRIVAL: the oldest entry in the pass-through registers toward an input queue enters it (R126). -/
def execQueueEntryArrival (f : FieldNo) (t : TileNo) (d : Dir) (s : State) : Out :=
  let q := match d with
    | .n => 0
    | .e => 1
    | .s => 2
    | .w => 3
  let c := s.tile f.val t.val
  .next (match c.pass q with
    | [] => s
    | v :: r => s.setTile f.val t.val ((c.setPass q r).setQueue q (c.queue q ++ [v])))

/-- QSTALL_RESUME: a stalled tile is ungated and its instruction starts again from PC (R59). -/
def execQstallResume (f : FieldNo) (t : TileNo) (s : State) : Out :=
  let c := s.tile f.val t.val
  .next (if c.qstall && !c.frozen then (s.setTile f.val t.val (c.tsPut 21 1 0)).wake f.val else s)

/-! ### Events (R70) -/

/-- The 64-bit words of a list of bytes. -/
def words64 (bs : List Byte) : List Nat := (List.range ((bs.length + 7) / 8)).map fun i => natLE ((bs.drop (8 * i)).take 8)

/-- Log a gather element: its words as read at `ga`, then as written at `dst` (R280). -/
def Tile.logGather (c : Tile) (ga dst : Nat) (bs : List Byte) : Tile :=
  let ws := (words64 bs).zipIdx
  ws.foldl (fun c w => c.logWrite (dst + 8 * w.2) w.1) (ws.foldl (fun c w => c.logRead (ga + 8 * w.2) w.1) c)

/-- The gather elements of a tile not yet written are dropped, with their accesses. -/
def State.dropGather (s : State) (f t : Nat) : State :=
  let c := s.tile f t
  ({ s with mesh := { s.mesh with outst := s.mesh.outst.filter fun a => !(c.gath.any fun e => e.access == a.id) } }).setTile f t
    { c with gath := [] }

/-- Write the leading gather elements that have returned whole, in element order (R89); a bad one faults at its element. -/
def gatherFlush (x : Site) (f t : Nat) : Nat → State → State
  | 0, s => s
  | k + 1, s =>
    let c := s.tile f t
    match c.gath with
    | [] => s
    | g :: r =>
      match g.bad with
      | some cf =>
        (s.dropGather f t).tileFault x (gaFault cf g.ga false) (16 - c.cnt.toNat)
      | none =>
        if g.data.length < g.len then s
        else
          let c1 : Tile := { c.putSram g.dst g.data with
            gath := r, cnt := c.cnt - 1, sptr := c.sptr + 4, dptr := c.dptr + c.step }
          let s1 := (s.setTile f t (c1.logGather g.ga g.dst g.data)).breakResv
            (2 ^ 44 + f * 2 ^ 37 + t * 2 ^ 24 + g.dst) g.len (some (tkey f t))
          if c1.cnt = 0 then Ev.repDone x { s := s1 } else gatherFlush x f t k s1

/-- A tile can take an event now: at a boundary, in a stall or wait, and with its oldest gather element returned (R70, R90). -/
def Tile.canTake (c : Tile) : Bool :=
  (match c.wait with
   | .gl _ => false
   | .get => false
   | .cellAck _ => false
   | _ => true) && (match c.gath with
   | [] => true
   | g :: _ => decide (g.len ≤ g.data.length) || g.bad.isSome)

/-- A reservation lost to an event (R91). -/
def Tile.loseEvent (c : Tile) : Tile :=
  match c.resv with
  | .held _ _ => { c with resv := .lost true }
  | _ => c

/-- A tile takes an event: returned gather elements are written and the rest dropped, the reservation is lost, the sample is
dropped, and the tile stops as `h` says; the instruction under way is fetched again when it goes on. -/
def State.takeEvent (s : State) (f : FieldNo) (t : TileNo) (h : Tile → Tile) : State :=
  let x : Site := .tile f t
  if !(s.tile f.val t.val).canTake then s
  else
    let s1 := ((gatherFlush x f.val t.val 4 s).dropGather f.val t.val).dropTrace x
    s1.setTile f.val t.val (h { (s1.tile f.val t.val).loseEvent with ir := none })

/-- CONTEXT_SWITCH_EVENT: a tile with a pending context-switch request takes it. -/
def execContextSwitchEvent (f : FieldNo) (t : TileNo) (s : State) : Out :=
  .next (if (s.field f.val).switching.isSome then
      s.takeEvent f t fun c => { c with frozen := true }
    else s)

/-- FREEZE: a tile of a field that is being frozen takes the freeze. -/
def execFreeze (f : FieldNo) (t : TileNo) (s : State) : Out :=
  .next (if (s.field f.val).freezing then s.takeEvent f t fun c => { c with frozen := true } else s)

/-- A tile takes a debug halt, or keeps it waiting until it can (R70). -/
def State.haltTile (s : State) (f : FieldNo) (t : TileNo) : State :=
  let c := s.tile f.val t.val
  if c.canTake then s.takeEvent f t fun c => { c with debugHalted := true, haltReq := false }
  else s.setTile f.val t.val { c with haltReq := true }

/-- DEBUG_HALT: a tile takes a debug halt; with DEBUG_DIS none is ever raised (Table 15.4). -/
def execDebugHalt (f : FieldNo) (t : TileNo) (s : State) : Out :=
  .next (if s.flag F.secBootStat_DEBUG_DIS then s else s.haltTile f t)

/-! ### Access from outside -/

/-- The port that owns a tenant, none when the tenant is FREE; an owner that a REASSIGN of this Hub cycle replaced stands until
the next one (R217). -/
def State.ownerOf (s : State) (t : Nat) : Option Nat :=
  if let some x := s.bus.moved.find? (fun x => x.1 == t) then some x.2
  else if s.flag F.hubTenStat_OWNED t then some (s.getF F.hubTenStat_OWNER t) else none

/-- A source may reach a field's tiles: the Sloe and Hub firmware always, a host port when it owns the tenant whose context
holds the field (R52). -/
def State.mayReach (s : State) (src : Source) (f : Nat) : Bool :=
  match src with
  | .sloe => true
  | .hub => true
  | .host p =>
    (match (s.field f).resident with
     | some t => s.ownerOf t == some p.val
     | none => false)

/-- FAULT_CLEAR: an outside write of 1 to TS.FAULT, the flags written back as they stand: the tile resumes at PC and
`TIL_FAULT_INFO` reads 0 (R71, R73). -/
def execFaultClear (src : Source) (f : FieldNo) (t : TileNo) (s : State) : Out :=
  .next (if s.mayReach src f.val then s.ctlWriteOut f t 0 (0x40 + (s.tile f.val t.val).tsGet 0 4) false else s)

/-- TILE_OUTSIDE_WRITE: a write to a tile's control space through global tile space (R50), by the field sequencer
where `seq`. To a tile of an offline field nothing is delivered: the issuing agent has faulted (R43, `State.gaValid`). -/
def execTileOutsideWrite (f : FieldNo) (t : TileNo) (off : BitVec 12) (v : DWord) (seq : Bool) (s : State) : Out :=
  .next (if s.offline f.val then s else s.ctlWriteOut f t off.toNat v.toNat seq)

/-- The bytes that a read of control space from outside gives: register by register, 0 at an unlisted offset (R49, R50). -/
def State.ctlBytes (s : State) (x : Site) (o len : Nat) : List Byte :=
  ((List.range ((o % 8 + len + 7) / 8)).flatMap fun i => bytesLE 8 ((s.ctlRead x (o / 8 * 8 + 8 * i)).getD 0)).drop (o % 8) |>.take len

/-- Serve one request packet at a tile (R137): a read or write of SRAM or control space, or an atomic on SRAM. A tenant's
packet needs its tenant resident in the field (chapter 6, Corners); in an offline field no tile answers but with a protection
failure (R43). -/
def State.serveTile (s : State) (f : FieldNo) (t : TileNo) (p : Packet) : State :=
  let c := s.tile f.val t.val
  let o := gaOff p.ga
  let wr := match p.op with
    | .write => true
    | .posted => true
    | _ => false
  if s.offline f.val || (!p.sys && !s.residentIs f.val p.tenant) then s.respond p (if wr then .writeAck else .readData) .protection [] true false
  else if p.err != .ok then s.respond p (if wr then .writeAck else .readData) .poison [] true false
  else if 0xC000 ≤ o then
    let co := (o - 0xD000) / 8 * 8
    let old := (s.ctlRead (.tile f t) co).getD 0
    if wr then (s.ctlWriteOut f t co (ctlMerge (o - 0xD000) p.len old (natLE p.data)) (match p.src with
      | .seq _ => true
      | _ => false)).respond p .writeAck .ok [] true false
    else s.respond p .readData .ok (s.ctlBytes (.tile f t) (o - 0xD000) p.len) true false
  else if wr then ((s.setTile f.val t.val (c.putSram o p.data)).breakResv p.ga p.len p.srcKey).respond p .writeAck .ok [] true false
  else
    let k := c.errSpan o p.len
    if k = 2 then (s.sramErrCount f.val 2).respond p .readData .poison [] true false
    else
      let s0 := (s.setTile f.val t.val (c.fixSpan o p.len)).sramErrCount f.val k
      match p.op with
      | .atomic a =>
        let old := c.rdSram o p.len
        let r := atomHome a (8 * p.len) old (s0.scHome p)
        let cont := s0.scContend p
        let s1 := match r.1 with
          | some v => (s0.setTile f.val t.val ((c.fixSpan o p.len).wrSram o p.len v)).breakResv p.ga p.len p.srcKey
          | none => s0
        (s1.homeResv p).respond p .readData .ok (bytesLE p.len old) r.2 cont
      | _ => s0.respond p .readData .ok (Tab.readBytes zeroByte c.sram o p.len) true false

/-- The oldest request that has reached an agent and that no hold delays (R393, R394). -/
def State.inboxReq (s : State) (a : Agent) : Option Packet :=
  s.mesh.pkts.find? fun p => p.arrived && p.dst == a && p.op != .readData && p.op != .writeAck && !s.held p

/-- REMOTE_SRAM_ACCESS: the oldest access that has reached a tile is performed. -/
def execRemoteSramAccess (f : FieldNo) (t : TileNo) (s : State) : Out :=
  .next (match s.inboxReq (.tile f.val t.val) with
    | some p => (s.dropPkt p.id).serveTile f t p
    | none => s)

/-! ### The returns of a tile's accesses -/

/-- The oldest response that has reached an agent, for a purpose. -/
def State.inboxResp (s : State) (a : Agent) (want : Purpose → Bool) : Option Packet :=
  s.mesh.pkts.find? fun p => p.arrived && p.dst == a && (p.op == .readData || p.op == .writeAck) && want p.purpose

/-- The access a response answers is still awaited. -/
def State.awaited (s : State) (id : Nat) : Bool := s.mesh.outst.any fun a => a.id == id

/-- The fault cause of a failed response. -/
def respCause : RespErr → Cause
  | .protection => .protection
  | _ => .poison

/-- POSTED_STORE_ACK: a posted store is acknowledged, or its failure is kept for the waiting instruction (R137). -/
def execPostedStoreAck (f : FieldNo) (t : TileNo) (s : State) : Out :=
  let isPut : Purpose → Bool := fun p => match p with
    | .put _ => true
    | _ => false
  .next (match s.inboxResp (.tile f.val t.val) isPut with
    | none => s
    | some p =>
      let s1 := (s.dropPkt p.id).closeAccess p.access
      let c := s1.tile f.val t.val
      let ps := if p.err = .ok then c.posts.filter fun x => x.access != p.access
        else c.posts.map fun x => if x.access = p.access then { x with failed := some (respCause p.err) } else x
      s1.setTile f.val t.val { c with posts := ps })

/-- Complete a GL access with its response (R90, R91): the local operand, the flags, the reservation. -/
def State.glComplete (s : State) (f : FieldNo) (t : TileNo) (g : GlWait) (p : Packet) : State :=
  let x : Site := .tile f t
  let wr := g.sub == 1 || g.sub == 2 || g.sub == 4
  let c := s.tile f.val t.val
  let s0 := s.setTile f.val t.val { c with wait := .none }
  if p.err ≠ .ok then s0.tileFault x (gaFault (respCause p.err) g.ga wr)
  else
    let v := natLE p.data
    match glLocal x g.w (g.sub == 1 || g.sub == 4) g.l.toNat v { s := s0 } with
    | .error fl => s0.tileFault x fl
    | .ok (_, e) =>
      let e1 := e.mapCore x fun c =>
        if g.sub = 2 then c.setFlg { c.flg with z := v == 0 }
        else if g.sub = 3 ∧ p.unit ≠ 256 then { c with resv := .held ((p.unit + 1) * 2 ^ 48 + p.ga / 64) 0 }
        else if g.sub = 4 then
          { (c.scFlags p.okBit (!p.contend)).countSc (g.ga / 64) p.okBit p.contend with resv := .none }
        else c
      let e2 := e1.mapCore x fun c =>
        if g.sub = 1 then c.logWrite g.ga g.val
        else if g.sub = 4 then (let c1 := c.logRead g.ga (bit p.okBit); if p.okBit then c1.logWrite g.ga g.val else c1)
        else c.logRead g.ga v
      e2.complete x 4

/-- GLOBAL_RESPONSE: the response of a GL or GET access reaches its tile. -/
def execGlobalResponse (f : FieldNo) (t : TileNo) (s : State) : Out :=
  let want : Purpose → Bool := fun p => match p with
    | .gl => true
    | .get => true
    | _ => false
  .next (match s.inboxResp (.tile f.val t.val) want with
    | none => s
    | some p =>
      let s1 := (s.dropPkt p.id).closeAccess p.access
      if !s.awaited p.access then s1
      else
        let c := s1.tile f.val t.val
        match c.wait with
        | .gl g => s1.glComplete f t g p
        | .get =>
          s1.setTile f.val t.val { c with wait := .none, got := c.got ++ [(BitVec.ofNat 64 (natLE p.data), p.err)] }
        | _ => s1)

/-- GATHER_ELEMENT_RETURN: data of a gather element arrives; elements are written in element order (R89). Where an event waits,
the tile waits for its oldest element, writes those already returned after it and drops the rest (R70). -/
def execGatherElementReturn (f : FieldNo) (t : TileNo) (s : State) : Out :=
  let want : Purpose → Bool := fun p => match p with
    | .gather _ => true
    | _ => false
  .next (match s.inboxResp (.tile f.val t.val) want with
    | none => s
    | some p =>
      let s1 := s.dropPkt p.id
      if !s.awaited p.access then s1
      else
        let c := s1.tile f.val t.val
        let g := c.gath.map fun e =>
          if e.access = p.access then
            { e with data := e.data ++ p.data, bad := if p.err = .ok then e.bad else some (respCause p.err) } else e
        let whole := g.any fun e => e.access == p.access && (decide (e.len ≤ e.data.length) || e.bad.isSome)
        let s2 := if whole then s1.closeAccess p.access else s1
        let s3 := gatherFlush (.tile f t) f.val t.val 4 (s2.setTile f.val t.val { c with gath := g })
        if s.eventWaits f.val t.val && decide ((s3.tile f.val t.val).gath.length < g.length) then s3.dropGather f.val t.val else s3)

/-- SIGNAL_WAKE: an SWAIT whose signal has become 1 completes, unless the tile is frozen (R189, R205). -/
def execSignalWake (f : FieldNo) (t : TileNo) (s : State) : Out :=
  let c := s.tile f.val t.val
  .next (match c.wait with
    | .sig _ true =>
      if c.frozen || (s.field f.val).freezing then s
      else (Ev.complete (.tile f t) { s := s.setTile f.val t.val { (c.tsPut 20 1 0) with wait := .none } } 2).wake f.val
    | _ => s)

end Sys2Proof.Machine
end

