-- ==== Sys2Proof/Machine/Requests.lean ====
section
/-! DEFINITION. Requests in flight (R100, R182, R245 to R251): looking them up, ending them, what their end writes. -/

namespace Sys2Proof.Machine

open Sys2Proof

/-- A field of a descriptor (Table 11.4). -/
def Req.dget (r : Req) (a n : Nat) : Nat := natLE ((r.desc.drop a).take n)

/-- OUT_K, CAND_COUNT, CTX_LEN, DEADLINE and NO_FALLBACK. -/
def Req.outK (r : Req) : Nat := r.dget 0x1C 2
def Req.candCount (r : Req) : Nat := r.dget 0x18 2
def Req.ctxLen (r : Req) : Nat := r.dget 0x1A 2
def Req.deadline (r : Req) : Nat := r.dget 0x20 4
def Req.noFallback (r : Req) : Bool := bitsOf (r.dget 0x1E 1) 0 1 == 1

/-- The lead field: the lowest-numbered one chosen (R249). -/
def Req.lead (r : Req) : Nat := r.fields.foldl min (r.fields.headD 0)

/-- The request in flight that holds a slot. -/
def State.bySlot (s : State) (slot : Nat) : Option Req := s.hub.reqs.find? fun r => r.out && r.slot == slot

/-- Change the request in flight that holds a slot. -/
def State.mapReq (s : State) (slot : Nat) (h : Req → Req) : State :=
  { s with hub := { s.hub with reqs := s.hub.reqs.map fun r => if r.out && r.slot == slot then h r else r } }

/-- Requests of a tenant in flight in a field (R182). -/
def State.inField (s : State) (t f : Nat) : List Req :=
  s.hub.reqs.filter fun r => r.fliesIn t f

/-- The tenant is resident in every field of the request (R221). -/
def State.allResident (s : State) (r : Req) : Bool := r.fields.all fun f => s.residentIs f r.tenant

/-- A request starts when it is admitted, its tenant is resident in all its fields and no slice of them has expired (R221). -/
def State.mayStart (s : State) (r : Req) : Bool :=
  r.out && r.admitted && !r.started && s.allResident r && r.fields.all fun f => (s.field f).sliceTo.isNone

/-- Start the requests that may start, in arrival order (R222). -/
def State.startReqs (s : State) : State :=
  { s with hub := { s.hub with reqs := s.hub.reqs.map fun r => if s.mayStart r then { r with started := true } else r } }

/-- The status of an admitted request (R19): the first of 0x3F, 0x20, 0x30, 0x21, then late and fallback. A status outside
Table 0.9 counts as 0x3F. -/
def pickStatus (stats : List Nat) (late fb : Bool) : Nat :=
  let fam (v : Nat) : Bool := decide (v < 4)
  if stats.any (fun v => !(fam v || v == 0x20 || v == 0x21 || v == 0x30)) then 0x3F
  else if stats.contains 0x20 then 0x20
  else if stats.contains 0x30 then 0x30
  else if stats.contains 0x21 then 0x21
  else bit (late || stats.any fun v => v == 1 || v == 3) + 2 * bit (fb || stats.any fun v => v == 2 || v == 3)

/-- A status that returns records (Table 0.9). -/
def returnsRecords (st : Nat) : Bool := decide (st < 4) || st == 0x21

/-- `n` free bytes. -/
def State.freeBytes (s : State) (n : Nat) : List Byte × State :=
  ((upTo n).map fun i => Config.freeByte (s.freeCtr + i), { s with freeCtr := s.freeCtr + n })

/-- Pages and REJECT words of a tenant that wait on a port. -/
def PortSt.waiting (x : PortSt) (t : Nat) : Nat :=
  (x.pages.filter fun g => g.tenant == t).length + (x.rejs.filter fun r => r.tenant == t).length

/-- A tenant with nothing waiting begins to wait now (R255). -/
def PortSt.beginWait (x : PortSt) (t now : Nat) : PortSt :=
  if x.waiting t = 0 then { x with sentAt := Tab.insert x.sentAt t now } else x

/-- An index of a tenant page: 0 RQ_TAIL, 1 RQ_HEAD, 2 RS_HEAD, 3 RS_TAIL (Table 11.3). -/
def PortSt.index (x : PortSt) (t k : Nat) : Nat := Tab.get (fun _ => 0) x.idx (t * 4 + k)
def PortSt.setIndex (x : PortSt) (t k v : Nat) : PortSt :=
  { x with idx := Tab.set (fun _ => 0) x.idx (t * 4 + k) (v % 2 ^ 32) }

/-- RQ_HEAD passes the slots that are returned, up to the first that is not (R245); passing a slot with a REJECT word makes the
ring's message due (R259). -/
def PortSt.passHead : Nat → Nat → PortSt → PortSt
  | 0, _, x => x
  | n + 1, t, x =>
    let h := x.index t 1
    if x.returned.contains (t, h) then
      let rej := x.rejected.contains (t, h)
      let x1 := { x.setIndex t 1 (h + 1) with
        returned := x.returned.erase (t, h), rejected := x.rejected.erase (t, h),
        irqDue := if rej then x.irqDue ++ [t] else x.irqDue }
      PortSt.passHead n t x1
    else x

/-- A slot is returned; `rej` says that a REJECT word was written into it. -/
def PortSt.returnSlot (x : PortSt) (t i : Nat) (rej : Bool) : PortSt :=
  PortSt.passHead 65536 t { x with
    returned := x.returned ++ [(t, i)], rejected := if rej then x.rejected ++ [(t, i)] else x.rejected }

/-- Queue a REJECT word (R246); it is written when posted credit allows. -/
def State.rejectReq (s : State) (r : Req) (st : Nat) : State :=
  let p := (s.port r.port).beginWait r.tenant s.now
  let s1 := s.setPort r.port { p with rejs := p.rejs ++ [⟨r.tenant, r.ringSlot, st, r.seqNo⟩] }
  { s1 with hub := { s1.hub with reqs := s1.hub.reqs.filter fun q => !(q.tenant == r.tenant && q.seqNo == r.seqNo) } }

/-- The header of a result page but for ISSUED, which the port fills as it begins to write (Table 11.5). -/
def pageHead (r : Req) (st count : Nat) : List Byte :=
  r.desc.take 8 ++ bytesLE 8 r.seqNo ++ bytesLE 8 r.arrival ++ bytesLE 8 0 ++ [BitVec.ofNat 8 st, BitVec.ofNat 8 r.variant]
    ++ bytesLE 2 count ++ bytesLE 4 r.epoch ++ bytesLE 0x18 0

/-- Entry of a result page (Table 11.5) for a candidate that the merge puts next. Which one, its SCORE and its VALUE are free
values (assumption 16): POS is an index of the list, ITEM the identifier there, VALUE a D16 word or 0. -/
def State.resultEntry (s : State) (r : Req) : List Byte × State :=
  let v (i : Nat) : Nat := (Config.freeValue (s.freeCtr + i)).toNat
  let pos := v 0 % max 1 r.candCount
  let item := (r.cands.drop (8 * pos)).take 8
  let val := if d16Ok (v 2) then v 2 else 0
  ((if item.length = 8 then item else bytesLE 8 (v 3)) ++ bytesLE 4 (v 1) ++ bytesLE 4 pos ++ bytesLE 8 val,
    { s with freeCtr := s.freeCtr + 4 })

/-- The entries of a result page, `n` of them. -/
def State.resultEntries (r : Req) : Nat → State → List Byte × State
  | 0, s => ([], s)
  | n + 1, s =>
    let e := s.resultEntry r
    let m := State.resultEntries r n e.2
    (e.1 ++ m.1, m.2)

/-- A request leaves flight (R182): an admitted one queues its result page, another one a REJECT word. -/
def State.leaveFlight (s : State) (r : Req) : State :=
  let late := decide (s.now > r.arrival + r.deadline * 1000)
  let st := pickStatus r.stats late (r.variant == 1)
  if !r.admitted then s.rejectReq r st
  else
    let count := if returnsRecords st then min r.outK r.candCount else 0
    let d := State.resultEntries r count s
    let s1 := d.2
    let p := (s1.port r.port).beginWait r.tenant s.now
    let pg : Page :=
      { tenant := r.tenant, bytes := pageHead r st count ++ d.1, count := count, lead := r.lead, outK := max r.outK 1,
        status := st, seqNo := r.seqNo }
    let s2 := s1.setPort r.port { p with pages := p.pages ++ [pg] }
    let s3 := { s2 with hub := { s2.hub with
      reqs := s2.hub.reqs.filter fun q => !(q.tenant == r.tenant && q.seqNo == r.seqNo) } }
    if st = 1 ∨ st = 3 then s3.count48 .seqCnt 1 r.lead 3 else s3

/-- RQEND of a request in one field (R182): it leaves flight when every field has ended it. -/
def State.endIn (s : State) (f slot st : Nat) : State :=
  match s.bySlot slot with
  | none => s
  | some r =>
    if !r.fields.contains f || r.ended.contains f then s
    else
      let r1 := { r with ended := r.ended ++ [f], stats := r.stats ++ [st] }
      if r.fields.all fun g => r1.ended.contains g then s.leaveFlight r1 else s.mapReq slot fun _ => r1

/-- End a request at once in every field it was sent to (R26, R117, R185, R206). -/
def State.endAll (s : State) (slot st : Nat) : State :=
  match s.bySlot slot with
  | none => s
  | some r => s.leaveFlight { r with ended := r.fields, stats := r.stats ++ [st] }

/-- End the request in a slot, where one is named. -/
def State.endSlot (s : State) (slot : Option Nat) (st : Nat) : State :=
  match slot with
  | some k => s.endAll k st
  | none => s

/-- End every request of a tenant in flight in a field. -/
def State.endTenantIn (s : State) (t f st : Nat) : State := (s.inField t f).foldl (fun s r => s.endAll r.slot st) s

/-- End every request in flight in a field. -/
def State.endField (s : State) (f st : Nat) : State := (upTo 16).foldl (fun s t => s.endTenantIn t f st) s

end Sys2Proof.Machine
end

