-- ==== Sys2Proof/Machine/Context.lean ====
section
/-! DEFINITION. Context images (R48, R200, R222 to R224), clean loads and TRST (R113), the replay of bound cells (R192),
and what stops a field's engines (R159, R205). -/

namespace Sys2Proof.Machine

open Sys2Proof

/-! ### Dense block -/

/-- The dense block is idle in the sense of DWAIT (R161). -/
def Dense.idle (d : Dense) : Bool :=
  d.queue.isEmpty && d.running.isNone && d.conv.isEmpty && d.drainIn.isEmpty && d.wload.isEmpty

/-- Both banks cleared, column tops included, and every lane emptied (R141, R151, R159). -/
def Dense.clearBanks (d : Dense) : Dense := { d with acc := [], tops := [], feed := [], feedIn := [], drain := [], drainIn := [] }

/-- TRST or a quiesce cancels every pass, conversion and WLOAD (R159). -/
def Dense.cancel (d : Dense) : Dense :=
  { d.clearBanks with
    queue := [], running := none, ending := [], conv := [], wload := [], next := {}, nextLoaded := false, vec := 0 }

/-! ### Cells -/

/-- A cell of a field's pool. -/
def State.cell (s : State) (f i : Nat) : Cell := Tab.get (fun _ => {}) (s.field f).cells i

/-- Replace a cell. -/
def State.setCell (s : State) (f i : Nat) (c : Cell) : State :=
  s.setField f { s.field f with cells := Tab.set (fun _ => {}) (s.field f).cells i c }

/-- A tenant's allotment in a field: first cell and number of cells (R190). -/
def State.allot (s : State) (f t : Nat) : Nat × Nat :=
  (s.getF F.fldCellAllot_BASE f t * 64, s.getF F.fldCellAllot_COUNT f t * 64)

/-- Set or clear the signal that a cell is bound to (R192). -/
def State.bindSignal (s : State) (f : Nat) (c : Cell) (v : Bool) : State :=
  if c.bound then s.setTile f c.tile ((s.tile f c.tile).putSig c.sig v) else s

/-- The pool replays every bound cell of a tenant that is set onto its signal (R192). -/
def State.replayCells (s : State) (f t : Nat) : State :=
  (upTo (s.allot f t).2).foldl (fun s i =>
    let c := s.cell f ((s.allot f t).1 + i)
    if c.set then s.bindSignal f c true else s) s

/-- Forget the registered waiters of a tenant's cells: each issues its wait again (R194, R200). -/
def State.dropWaiters (s : State) (f t : Nat) : State :=
  (upTo (s.allot f t).2).foldl (fun s i =>
    let k := (s.allot f t).1 + i
    let c := s.cell f k
    if c.waiters.isEmpty then s else s.setCell f k { c with waiters := [] }) s

/-- Load a binding; one outside the allotment is skipped. -/
def State.loadBind (s : State) (f t : Nat) (b : Nat × Nat × Nat) : State :=
  if b.1 < (s.allot f t).2 ∧ b.2.2 < 4900 then
    let k := (s.allot f t).1 + b.1
    s.setCell f k { s.cell f k with bound := true, sig := b.2.1, tile := b.2.2 }
  else s

/-! ### Tile contexts -/

/-- Copy `n` bytes at `a` of one memory over another. -/
def copyBytes (src dst : Tab Byte) (a n : Nat) : Tab Byte :=
  Tab.writeBytes zeroByte dst a (Tab.readBytes zeroByte src a n)

/-- Copy the slices of tile `t` of a slice list. -/
def copySlices (sl : List (Nat × Nat × Nat)) (t : Nat) (src dst : Tab Byte) : Tab Byte :=
  sl.foldl (fun m x => if x.1 = t then copyBytes src m x.2.1 x.2.2 else m) dst

/-- What a context image holds of a tile (R48, R416): entries on their way arrive in their queues; a waiter at a signal or a
cell is saved with PC on its wait (R200). Beside the image the model keeps, for the context to find again, how its reservation
was lost (R91), whether its firing has sent a DECIMAL event (R69), `TIL_FAULT_INFO` and EXT_DENY (assumption 120). -/
def Tile.toImage (c : Tile) (sl : List (Nat × Nat × Nat)) (t : Nat) : Tile :=
  let keep := match c.wait with
    | .barF _ _ => true
    | .barW _ _ => true
    | _ => false
  { b := c.b, acc0 := c.acc0, acc1 := c.acc1, ts := if keep then c.ts else (c.tsPut 20 1 0).ts, pc := c.pc, cnt := c.cnt,
    sptr := c.sptr, dptr := c.dptr, step := c.step, qn := c.qn ++ c.pn, qe := c.qe ++ c.pe, qs := c.qs ++ c.ps,
    qw := c.qw ++ c.pw, ql := c.ql, desc := c.desc, armed := c.armed, mode := c.mode, circ0 := c.circ0, circ1 := c.circ1,
    wait := if keep then c.wait else .none, sram := copySlices sl t c.sram [],
    resv := c.loseEvent.resv, decSeen := c.decSeen, faultInfo := c.faultInfo, extDeny := c.extDeny }

/-- A tile after a context load (R48, R69): signals cleared, DEC_PROP from the tenant's configuration. What no image holds comes
with the context as it was saved, and stands at its reset value in a clean one (assumption 120); a record that awaits its transfer stays in the trace buffer (R280). -/
def Tile.fromImage (c i : Tile) (sl : List (Nat × Nat × Nat)) (t : Nat) (dec : Bool) : Tile :=
  { i with
    sram := copySlices sl t i.sram c.sram, sramErr := c.sramErr, sramInj := c.sramInj, sig := 0,
    mode := BitVec.ofNat 64 (putBits i.mode.toNat 3 1 (bit dec)), posts := c.posts, trace := c.trace.filter (·.done),
    sampleNext := c.sampleNext }

/-! ### Images of a field -/

/-- The key of the image of tenant `t` in field `f`. -/
def imgKey (t f : Nat) : Nat := t * 92 + f

/-- The clean context that the tenant's package gives the field (R215). -/
def State.cleanImage (s : State) (t f : Nat) : Image := Tab.get (fun _ => {}) s.hub.clean (imgKey t f)

/-- The first address of the tenant area of a sequencer's store (Table 5.1). -/
def tenantArea : Nat := 0x20000

/-- The registers that CTXSAVE keeps: T-mode pc, rpt, flags, windows and slice (Table 10.2). -/
def State.seqRegs (s : State) (f : Nat) : List Nat :=
  [s.reg .seqTpc f 0 0, s.reg .seqRpt f 0 0, s.getF F.seqStat_Z f + 2 * s.getF F.seqStat_N f + 4 * s.getF F.seqStat_C f
    + 8 * s.getF F.seqStat_V f] ++ (upTo 8).map (fun w => s.reg .seqHwin f w 0) ++ [s.reg .seqTstore f 0 0]

/-- Put back the registers that CTXSAVE kept. -/
def State.putSeqRegs (s : State) (f : Nat) (l : List Nat) : State :=
  let s1 := (s.setReg .seqTpc f 0 0 (l[0]?.getD 0)).setReg .seqRpt f 0 0 (l[1]?.getD 0)
  let g := l[2]?.getD 0
  let s2 := (((s1.setF F.seqStat_Z (bitsOf g 0 1) f).setF F.seqStat_N (bitsOf g 1 1) f).setF F.seqStat_C (bitsOf g 2 1) f).setF
    F.seqStat_V (bitsOf g 3 1) f
  let s3 := (upTo 8).foldl (fun s w => s.setReg .seqHwin f w 0 (l[3 + w]?.getD 0)) s2
  s3.setReg .seqTstore f 0 0 (l[11]?.getD 0)

/-- The image of the context that a field holds (R223). -/
def State.takeImage (s : State) (f t : Nat) : Image :=
  let c := s.cleanImage t f
  let q := s.seq f
  { tiles := (upTo 4900).foldl (fun m k => Tab.set (fun _ => Tile.reset) m k ((s.tile f k).toImage c.slices k)) []
    store := q.store.filter fun x => decide (tenantArea ≤ x.1)
    p := q.p, regs := s.seqRegs f, bars := (s.field f).bars
    wsense := (upTo 64).foldl (fun m g => Tab.set (fun _ => 0) m g (s.getF F.hubWbar_SENSE g)) []
    live := c.live, binds := [], waits := q.twait, slices := c.slices, clean := false }

/-- Load the tile contexts of an image. -/
def State.loadTiles (s : State) (f : Nat) (i : Image) (dec : Bool) : State :=
  (upTo 4900).foldl (fun s k =>
    s.setTile f k ((s.tile f k).fromImage (Tab.get (fun _ => Tile.reset) i.tiles k) i.slices k dec)) s

/-- Barrier groups of a field after a load (R200): a saved image restores them; a clean load sets EXPECT and CNT := 0 and
keeps SENSE. -/
def loadBars (cur : Tab Bar) (i : Image) : Tab Bar :=
  if i.clean then
    (upTo 256).foldl (fun m g =>
      let b := Tab.get (fun _ => (⟨0, 0, false, 0, false⟩ : Bar)) cur g
      let e := (Tab.get (fun _ => (⟨0, 0, false, 0, false⟩ : Bar)) i.bars g).expect
      Tab.set (fun _ => (⟨0, 0, false, 0, false⟩ : Bar)) m g ⟨e, 0, b.sense, 0, false⟩) []
  else i.bars

/-- Load a context image of tenant `t` into a field (R200, R222): tiles, sequencer state, barriers, bindings and the replay
of bound cells; a clean image also names its bindings and its slice of the store. Waits and tests on their way to the pool and its
answers are dropped: a tile or sequencer that waits for one issues its instruction again. -/
def State.loadImage (s : State) (f t : Nat) (i : Image) : State :=
  let dec := s.flag F.hubTenCfg_DEC_PROP t
  let s0 := (s.dropWaiters f t).loadTiles f i dec
  let s1 := if i.clean then s0.setReg .seqTstore f 0 0 (i.regs.headD (s0.reg .seqTstore f 0 0)) else s0
  let q := s1.seq f
  let st := if i.clean then
      copyBytes i.store q.store (s1.getF F.seqTstore_BASE f * 4096) (s1.getF F.seqTstore_SIZE f * 4096)
    else q.store.filter (fun x => decide (x.1 < tenantArea)) ++ i.store.filter (fun x => decide (tenantArea ≤ x.1))
  let again : SWait := match q.wait with
    | .cell _ => .none
    | .cellAck _ => .none
    | w => w
  let q1 : Seq := if i.clean then { q with store := st, wait := .none, got := [], twait := .none }
    else { q with store := st, p := i.p, got := [], twait := i.waits, wait := again, incs := if again = q.wait then q.incs else [] }
  let s2 := s1.setSeq f q1
  let s3 := if i.clean then s2 else s2.putSeqRegs f i.regs
  let s4 := s3.setField f { s3.field f with
    bars := loadBars (s3.field f).bars i, cellAcks := [], cellWakes := []
    cellOps := (s3.field f).cellOps.filter fun r => r.op == .set || r.op == .clear }
  let s5 := i.binds.foldl (fun s b => s.loadBind f t b) s4
  (s5.setF F.seqStat_TENANT t f).replayCells f t

/-- A field in which some tile is not gated is awake (R202). -/
def State.wakeIfRuns (s : State) (f : Nat) : State := if (upTo 4900).any fun k => !s.gated f k then s.wake f else s

/-- TRST (R113, R159, R200): in every tile of the tenant in the field the queues, repeat state, fault and signals are
cleared, and the firing table and clean context reloaded; the dense block is cancelled. -/
def State.trst (s : State) (f t : Nat) : State :=
  let i := s.cleanImage t f
  let s1 := s.setDense f (s.dense f).cancel
  let s2 := { s1 with mesh := { s1.mesh with
    outst := s1.mesh.outst.filter fun a =>
      !(match a.agent, a.purpose with
        | .tile _ _, .put _ => false
        | .tile g _, _ => g == f
        | .dense g, _ => g == f
        | _, _ => false) } }
  let s3 := s2.loadImage f t i
  ((upTo 4900).foldl (fun s' k =>
    s'.setTile f k { (s'.tile f k) with frozen := false, debugHalted := false, resv := (s.tile f k).loseEvent.resv }) s3).wakeIfRuns f

/-- A tenant's TRST in a field: it waits, or it has been run and takes 60 µs (R113, assumption 122). -/
def State.markTrst (s : State) (f t : Nat) (end_ : Option Nat) : State :=
  let x := s.field f
  s.setField f { x with trst := (x.trst.filter fun y => y.1 != t) ++ [(t, end_)] }

/-- The rest of a tenant's TRST in a field (R113). -/
def State.trstTerm (s : State) (f t : Nat) : Nat :=
  match (s.field f).trst.find? (fun y => y.1 == t) with
  | some (_, some e) => e - s.now
  | some (_, none) => 60000
  | none => 0

/-- Freeze every tile of a field (R70, R205): each takes the event and holds its state; one that cannot take it yet stops issuing,
and its access under way still completes. -/
def State.freezeAll (s : State) (f : FieldNo) : State :=
  (List.finRange 4900).foldl (fun s t =>
    let c := s.tile f.val t.val
    if c.frozen then s
    else if c.canTake then s.takeEvent f t fun c => { c with frozen := true }
    else s.setTile f.val t.val { c.loseEvent with frozen := true }) s

/-- Thaw every tile of a field; one that goes on is a wake (R202). -/
def State.thawTiles (s : State) (f : Nat) : State :=
  ((upTo 4900).foldl (fun s k =>
    let c := s.tile f k
    if c.frozen then s.setTile f k { c with frozen := false } else s) s).wakeIfRuns f

/-- Every tile of a field can take an event now (R70). -/
def State.allCanTake (s : State) (f : Nat) : Bool :=
  s.tiles.all fun x => decide (x.1 / 4900 ≠ f) || x.2.canTake

/-- Queue entries present in a field, in bytes (Table 10.2). -/
def State.queueBytes (s : State) (f : Nat) : Nat :=
  s.tiles.foldl (fun a x =>
    if x.1 / 4900 = f then
      a + 8 * (x.2.qn.length + x.2.qe.length + x.2.qs.length + x.2.qw.length + x.2.ql.length + x.2.pn.length
        + x.2.pe.length + x.2.ps.length + x.2.pw.length)
    else a) 0

end Sys2Proof.Machine
end

