-- ==== Sys2Proof/Machine/SeqOps.lean ====
section
/-! DEFINITION. What every sequencer instruction shares (R99 to R108, R116 to R118): operands, legality, faults, completion. -/

namespace Sys2Proof.Machine

open Sys2Proof

/-- An instruction in evaluation: the state so far, the responses still to use, the base registers to advance and then the
registers to write (R105). -/
structure SEv where
  s : State
  got : List (List Byte × RespErr × Bool)
  incs : List (Nat × Nat) := []
  wr : List (Nat × Nat) := []
  jump : Option Nat := none
  deriving DecidableEq, Repr

/-- How an evaluation stands: a value; a fault; a global access that must be issued and awaited; a check held under R229 or a
wait that changes nothing; or a wait in a new state. -/
inductive SRes (α : Type) where
  | ok (a : α) (e : SEv)
  | fault (fl : TFault)
  | issue (op : PktOp) (ga len : Nat) (data : List Byte)
  | hold
  | stay (s : State)
  deriving DecidableEq, Repr

/-- Go on with the value of an evaluation. -/
def SRes.bind {α β : Type} (r : SRes α) (g : α → SEv → SRes β) : SRes β :=
  match r with
  | .ok a e => g a e
  | .fault fl => .fault fl
  | .issue op ga len data => .issue op ga len data
  | .hold => .hold
  | .stay s => .stay s

/-- Where a sequencer operand lies. -/
inductive SPlace where
  | reg (k : Nat)
  | store (a : Nat)
  | sreg (o : Nat)
  | glob (ga : Nat)
  | imm (v : Nat)
  deriving DecidableEq, Repr

/-! ### Registers -/

/-- p`k`. -/
def Seq.preg (q : Seq) (k : Nat) : Nat := (Tab.get (fun _ => (0 : DWord)) q.p k).toNat

/-- Set p`k`. -/
def Seq.setP (q : Seq) (k v : Nat) : Seq := { q with p := Tab.set (fun _ => (0 : DWord)) q.p k (BitVec.ofNat 64 v) }

/-- Set p`k` of a field's sequencer. -/
def State.setP (s : State) (f k v : Nat) : State := s.setSeq f ((s.seq f).setP k v)

/-- pc, and moving it. -/
def State.spc (s : State) (f : Nat) : Nat := s.getF F.seqPc_PC f
def State.setSpc (s : State) (f v : Nat) : State := s.setF F.seqPc_PC (v % 2 ^ 24) f

/-- T mode (R98). -/
def State.tmode (s : State) (f : Nat) : Bool := s.flag F.seqStat_MODE f

/-- The tenant an instruction acts for: `SEQ_STAT`.TENANT in T mode, the prefix in M mode, none for system traffic (R99). -/
def State.seqActs (s : State) (f : Nat) (i : SeqInstr) : Option Nat :=
  if s.tmode f then some (s.getF F.seqStat_TENANT f) else i.tenant.map (·.val)

/-- The tenant that cells, wafer groups and tables are named for: the acting one, else the one whose context holds the field. -/
def State.seqNames (s : State) (f : Nat) (i : SeqInstr) : Nat := (s.seqActs f i).getD (s.actTenant f)

/-- The flags of `SEQ_STAT`. -/
def State.seqFlg (s : State) (f : Nat) : Flg :=
  ⟨s.flag F.seqStat_Z f, s.flag F.seqStat_N f, s.flag F.seqStat_C f, s.flag F.seqStat_V f⟩

/-- Set the flags of `SEQ_STAT`. -/
def State.setSeqFlg (s : State) (f : Nat) (g : Flg) : State :=
  (((s.setF F.seqStat_Z (bit g.z) f).setF F.seqStat_N (bit g.n) f).setF F.seqStat_C (bit g.c) f).setF F.seqStat_V (bit g.v) f

/-- A SEQ_ register by its page offset, a multiple of 8; unassigned ones read 0 (Table 5.8). -/
def State.sregRead (s : State) (f o : Nat) : Nat :=
  if o = 0x00 then s.reg .seqStat f 0 0
  else if o = 0x08 then s.reg .seqPc f 0 0
  else if o = 0x10 then s.reg .seqTpc f 0 0
  else if o = 0x18 then s.reg .seqRpt f 0 0
  else if o = 0x20 then s.reg .seqFaultInfo f 0 0
  else if o = 0x28 then s.reg .seqTstore f 0 0
  else if 0x40 ≤ o ∧ o < 0x80 then s.reg .seqHwin f ((o - 0x40) / 8) 0
  else if 0x100 ≤ o ∧ o < 0x120 then s.reg .seqCnt f ((o - 0x100) / 8) 0
  else 0

/-- The W1C bits of a SEQ_ register (Tables 5.9, 5.12). -/
def sregW1c (o : Nat) : Nat := if o = 0x00 then 2 ^ 4 else if 0x100 ≤ o ∧ o < 0x120 then 2 ^ 63 else 0

/-- A read of `n` bytes of a SEQ_ register by sequencer code at page offset `o`: a 32-bit read of a counter's low word latches the
whole register, and one of its high word gives the latched half (Table 5.12, R319). -/
def State.sregGet (s : State) (f o n : Nat) : Nat × State :=
  let r := o / 8 * 8
  let v := s.sregRead f r
  let k := (o - 0x100) / 8
  let q := s.seq f
  if n = 4 ∧ 0x100 ≤ o ∧ o < 0x120 then
    if o % 8 = 0 then (v % 2 ^ 32, s.setSeq f { q with latch := Tab.set (fun _ => (0 : DWord)) q.latch k (BitVec.ofNat 64 v) })
    else (bitsOf (Tab.get (fun _ => (0 : DWord)) q.latch k).toNat 32 32, s)
  else (bitsOf v (8 * (o % 8)) (8 * n), s)

/-- A write of sequencer code to a SEQ_ register (R116, Tables 5.9 to 5.12); a write of `SEQ_PC` is a jump. -/
def sregWrite (e : SEv) (f o v : Nat) : SEv :=
  let s := e.s
  let up (t : State) : SEv := { e with s := t }
  if o = 0x00 then
    let s1 := s.setSeqFlg f (Flg.of v)
    up (if bitsOf v 4 1 = 1 then s1.setF F.seqStat_DECIMAL_FAULT 0 f else s1)
  else if o = 0x08 then { e with jump := some (v % 2 ^ 24) }
  else if o = 0x10 then up (s.setF F.seqTpc_PC (v % 2 ^ 24) f)
  else if o = 0x18 then up (s.setF F.seqRpt_RPT (v % 2 ^ 32) f)
  else if o = 0x20 then up (s.setReg .seqFaultInfo f 0 0 0)
  else if o = 0x28 then up ((s.setF F.seqTstore_BASE (bitsOf v 0 6) f).setF F.seqTstore_SIZE (bitsOf v 8 7) f)
  else if 0x40 ≤ o ∧ o < 0x80 then up (s.setReg .seqHwin f ((o - 0x40) / 8) 0 (bitsOf v 0 25))
  else if 0x100 ≤ o ∧ o < 0x120 then
    up (if bitsOf v 63 1 = 1 then s.setF F.seqCnt_OVF 0 f ((o - 0x100) / 8) else s)
  else e

/-! ### The store -/

/-- The error mark of the 64-bit word that holds a store address. -/
def Seq.errAt (q : Seq) (a : Nat) : Nat := Tab.get (fun _ => 0) q.storeErr (a / 8)

/-- Count an error of a sequencer store (Table 13.4). -/
def State.storeErrCount (s : State) (f kind : Nat) : State :=
  if kind = 1 then s.countF F.rasFldErr_SEQ_CORR 1 f
  else if kind = 2 then (s.countF F.rasFldErr_SEQ_UNCORR 1 f).poisonEvent 0x11 f true
  else s

/-- Read bytes of a store word: a single-bit error is corrected, an uncorrectable one is POISON. -/
def storeRead (e : SEv) (f a n : Nat) : SRes Nat :=
  let q := e.s.seq f
  let k := q.errAt a
  if k = 2 then .fault { cause := .poison, addr := a }
  else
    let s1 := if k = 1 then
        (e.s.setSeq f { q with storeErr := Tab.set (fun _ => 0) q.storeErr (a / 8) 0 }).storeErrCount f 1
      else e.s
    .ok (Tab.readLE zeroByte q.store a n) { e with s := s1 }

/-- Write bytes of a store word; an armed injection marks it (R297 0x10, 0x11). -/
def State.storeWrite (s : State) (f a n v : Nat) : State :=
  let q := s.seq f
  let mark := if q.storeInj ≠ 0 then q.storeInj else if n = 8 then 0 else q.errAt a
  s.setSeq f { q with
    store := Tab.writeLE zeroByte q.store a n v, storeInj := 0, storeErr := Tab.set (fun _ => 0) q.storeErr (a / 8) mark }

/-- Write bytes into the store from address `a`, whole words where they are aligned. -/
def State.storeBytes (s : State) (f a : Nat) (d : List Byte) : State :=
  if a % 8 = 0 then (upTo (d.length / 8)).foldl (fun s k => s.storeWrite f (a + 8 * k) 8 (natLE ((d.drop (8 * k)).take 8))) s
  else (upTo d.length).foldl (fun s k => s.storeWrite f (a + k) 1 (natLE ((d.drop k).take 1))) s

/-- A store or register address in the present mode (Table 5.1, R118): none when it may be used. -/
def State.saCheck (s : State) (f a pc : Nat) : Option TFault :=
  let bad : Option TFault := some { cause := .localAddr, addr := a }
  if a < 0x40000 then
    if !s.tmode f then none
    else
      let b := s.getF F.seqTstore_BASE f
      let n := s.getF F.seqTstore_SIZE f
      if b < 32 ∨ b + n > 63 ∨ a < b * 4096 ∨ (b + n) * 4096 ≤ a then bad else none
  else if 0x800000 ≤ a ∧ a < 0x801000 then
    let o := a - 0x800000
    if !s.tmode f ∨ (0x40 ≤ o ∧ o < 0x80) ∨ (0x18 ≤ o ∧ o < 0x20) then none
    else some { cause := .priv, addr := pc }
  else bad

/-! ### Operands (R103 to R105) -/

/-- The sign-extended value of an extension of `k` bytes. -/
def sExt (k v : Nat) : Int := signedOf (8 * k) v

/-- Locate an operand: where it lies, and the base register it advances. `isD` bars immediates. A local sum that leaves the
24 bits of an SA is SEQ_ADDR, a global one wraps modulo 2^48 (assumption 125). -/
def locS (e : SEv) (f : Nat) (i : SeqInstr) (o : SeqOperand) (isD : Bool) : SRes (SPlace × List (Nat × Nat)) :=
  let s := e.s
  let q := s.seq f
  let pc := s.spc f
  let os := o.os.toNat
  let m := bitsOf os 5 3
  let g := bitsOf os 3 1 == 1
  let k := bitsOf os 0 3
  let v := q.preg k
  let n := i.width.bytes
  let ill : SRes (SPlace × List (Nat × Nat)) := .fault { cause := .illegal, addr := pc }
  let at_ (a : Int) (incs : List (Nat × Nat)) : SRes (SPlace × List (Nat × Nat)) :=
    if g then
      if bitsOf v 48 16 ≠ 0 then .fault { cause := .localAddr, glob := true, addr := v % 2 ^ 48 }
      else .ok (.glob ((a % (2 ^ 48 : Int)).toNat), incs) e
    else if bitsOf v 24 40 ≠ 0 then .fault { cause := .localAddr, addr := v % 2 ^ 48 }
    else if a < 0 ∨ (2 ^ 24 : Int) ≤ a then .fault { cause := .localAddr, addr := (a % (2 ^ 24 : Int)).toNat }
    else if a < 0x800000 then .ok (.store a.toNat, incs) e else .ok (.sreg a.toNat, incs) e
  if bitsOf os 4 1 ≠ 0 then ill
  else if m = 0 then (if g then ill else .ok (.reg k, []) e)
  else if m = 1 then at_ v []
  else if m = 2 then at_ (v + sExt 1 o.ext.toNat * n) []
  else if m = 3 then at_ (v + sExt 4 o.ext.toNat * n) []
  else if m = 4 then at_ v [(k, n)]
  else if m = 5 then
    if g ∨ k ≠ 0 then ill
    else if o.ext.toNat % 2 ^ 24 < 0x800000 then .ok (.store (o.ext.toNat % 2 ^ 24), []) e
    else .ok (.sreg (o.ext.toNat % 2 ^ 24), []) e
  else if m = 6 then
    if g ∨ k ≠ 0 ∨ isD then ill
    else .ok (.imm (if i.width = .w64 then wrapN 64 (sExt 4 o.ext.toNat) else o.ext.toNat), []) e
  else
    if g then ill
    else if s.getF F.seqHwin_VALID f k = 0 then
      .fault { cause := .localAddr, glob := true, addr := s.getF F.seqHwin_PAGE f k * 65536 + o.ext.toNat % 2 ^ 16 }
    else .ok (.glob (s.getF F.seqHwin_PAGE f k * 65536 + o.ext.toNat % 2 ^ 16), []) e

/-- The check of a global operand (R99, R104, R118). -/
def globCheck (s : State) (f : Nat) (i : SeqInstr) (ga len : Nat) (k : Kind) : Option TFault :=
  let gf (c : Cause) : TFault := { cause := c, glob := true, addr := ga }
  if ga % len ≠ 0 then some (gf .misaligned)
  else if (gaSpace ga = 2 ∨ gaSpace ga = 3) ∧ !i.far then some (gf .globalAddr)
  else if gaSpace ga = 3 ∧ s.tmode f then some { cause := .priv, addr := s.spc f }
  else match s.seqActs f i with
    | some t => (s.gaCheck false t ga len len k).map gf
    | none => (s.gaCheck true 0 ga len len k).map gf

/-- The checks of holding (R229). -/
def seqHolds (s : State) (f : Nat) (i : SeqInstr) : Bool :=
  match s.seqActs f i with
  | some t => s.holding t
  | none => false

/-- The check of a global operand is held: only its windows could still refuse it. -/
def globHeld (s : State) (f : Nat) (i : SeqInstr) (ga len : Nat) (k : Kind) : Bool :=
  seqHolds s f i && match globCheck s f i ga len k with
    | none => true
    | some fl => fl.cause == .protection

/-- Use the next response of a global access, or ask for it. -/
def viaMesh (e : SEv) (op : PktOp) (ga len : Nat) (data : List Byte) : SRes (List Byte × Bool) :=
  match e.got with
  | (d, .ok, ok) :: r => .ok (d, ok) { e with got := r }
  | (_, .poison, _) :: _ => .fault { cause := .poison, glob := true, addr := ga }
  | (_, .protection, _) :: _ => .fault { cause := .protection, glob := true, addr := ga }
  | [] => .issue op ga len data

/-- A global access of an operand: once answered, what came back; before, it is held or checked and then issued (R104, R229). -/
def globDo (e : SEv) (f : Nat) (i : SeqInstr) (k : Kind) (op : PktOp) (ga len : Nat) (data : List Byte) : SRes (List Byte × Bool) :=
  if !e.got.isEmpty then viaMesh e op ga len data
  else if globHeld e.s f i ga len k then .hold
  else match globCheck e.s f i ga len k with
    | some fl => .fault fl
    | none => .issue op ga len data

/-- The check of an access of `n` bytes at an SA. -/
def State.saFault (s : State) (f a n : Nat) : Option TFault :=
  match s.saCheck f a (s.spc f) with
  | some fl => some fl
  | none => if a % n ≠ 0 then some { cause := .misaligned, addr := a } else none

/-- Read `n` bytes at an SA: the store or a SEQ_ register (Table 5.1). -/
def readSA (e : SEv) (f a n : Nat) : SRes Nat :=
  match e.s.saFault f a n with
  | some fl => .fault fl
  | none =>
    if a < 0x800000 then storeRead e f a n
    else
      let r := e.s.sregGet f (a - 0x800000) n
      .ok r.1 { e with s := r.2 }

/-- Read a located operand at width W. -/
def readS (e : SEv) (f : Nat) (i : SeqInstr) (pl : SPlace) : SRes Nat :=
  let n := i.width.bytes
  match pl with
  | .reg k => .ok (lowW i.width ((e.s.seq f).preg k)) e
  | .imm v => .ok (lowW i.width v) e
  | .store a => readSA e f a n
  | .sreg a => readSA e f a n
  | .glob ga => (globDo e f i .read .read ga n []).bind fun d e1 => .ok (natLE d.1) e1

/-- Locate and read a source operand; its post-increment joins the side effects. -/
def srcS (e : SEv) (f : Nat) (i : SeqInstr) (o : Option SeqOperand) : SRes Nat :=
  match o with
  | none => .fault { cause := .illegal, addr := e.s.spc f }
  | some o =>
    (locS e f i o false).bind fun p e1 =>
      (readS e1 f i p.1).bind fun v e2 => .ok v { e2 with incs := e2.incs ++ p.2 }

/-- Locate the destination; a fault there is D's (Table 5.10 WRITE). -/
def dstS (e : SEv) (f : Nat) (i : SeqInstr) (o : Option SeqOperand) : SRes SPlace :=
  match o with
  | none => .fault { cause := .illegal, addr := e.s.spc f }
  | some o =>
    match locS e f i o true with
    | .ok p e1 => .ok p.1 { e1 with incs := e1.incs ++ p.2 }
    | .fault fl => .fault { fl with write := fl.cause != .illegal }
    | .issue op ga len d => .issue op ga len d
    | .hold => .hold
    | .stay s => .stay s

/-- The WRITE bit of a fault at D. -/
def onD {α : Type} (r : SRes α) : SRes α :=
  match r with
  | .fault fl => .fault { fl with write := fl.cause != .illegal && fl.cause != .priv }
  | x => x

/-- The check of a write to a located place. -/
def writable (s : State) (f : Nat) (i : SeqInstr) (pl : SPlace) : Option TFault :=
  match pl with
  | .reg _ => none
  | .imm _ => some { cause := .illegal, addr := s.spc f }
  | .store a => s.saFault f a i.width.bytes
  | .sreg a => s.saFault f a i.width.bytes
  | .glob ga => globCheck s f i ga i.width.bytes .write

/-- Write a located place at width W (R103). A narrow write of a SEQ_ register keeps the bytes it does not write; they write no 1
to a W1C bit. -/
def putS (e : SEv) (f : Nat) (i : SeqInstr) (pl : SPlace) (v : Nat) : SRes Unit :=
  let n := i.width.bytes
  let v := lowW i.width v
  match pl with
  | .glob ga => (globDo e f i .write .write ga n (bytesLE n v)).bind fun _ e1 => .ok () e1
  | _ =>
    match writable e.s f i pl, pl with
    | some fl, _ => .fault fl
    | none, .reg k => .ok () { e with wr := e.wr ++ [(k, v)] }
    | none, .store a => .ok () { e with s := e.s.storeWrite f a n v }
    | none, .sreg a =>
      let o := a - 0x800000
      let r := o / 8 * 8
      let old := e.s.sregRead f r
      .ok () (sregWrite e f r (putBits (old ^^^ (old &&& sregW1c r)) (8 * (o % 8)) (8 * n) v))
    | none, _ => .ok () e

/-- Write a located destination; a fault is D's (Table 5.10 WRITE). -/
def writeS (e : SEv) (f : Nat) (i : SeqInstr) (pl : SPlace) (v : Nat) : SRes Unit := onD (putS e f i pl v)

/-- An indivisible operation on a located destination: the old value (R106). `new` is the local effect. -/
def atomS (e : SEv) (f : Nat) (i : SeqInstr) (pl : SPlace) (a : Atom) (new : Nat → Option Nat) : SRes Nat :=
  let n := i.width.bytes
  match pl with
  | .glob ga =>
    onD ((globDo e f i .atomic (.atomic a) ga n []).bind fun d e1 => .ok (natLE d.1) e1)
  | _ =>
    (onD (readS e f i pl)).bind fun old e1 =>
      match new old with
      | none => .ok old e1
      | some v => (writeS e1 f i pl v).bind fun _ e2 => .ok old e2

/-! ### Issue, fault, completion -/

/-- A T-mode schedule must be preempted before its next instruction (R114); an event of these kinds that is still queued from M
mode counts too (assumption 130). -/
def Seq.mustPreempt (q : Seq) : Bool := q.events.any fun v => v.kind == 2 || v.kind == 8 || v.kind == 9

/-- The sequencer can start or retry an instruction. -/
def State.seqCan (s : State) (f : Nat) : Bool :=
  let q := s.seq f
  s.released && !s.offline f && !s.flag F.seqStat_HALTED f && !(s.tmode f && q.mustPreempt) &&
    (match q.wait with
     | .none => true
     | .ev => true
     | .dwait => true
     | .gstageFull => true
     | .dpassFull => true
     | _ => false)

/-- Leave T mode for the microcode event entry, pc saved in `SEQ_TPC` (R114); a barrier wait stays recorded (R200). -/
def State.toEventEntry (s : State) (f : Nat) : State :=
  let q := s.seq f
  let tw : SWait := match q.wait with
    | .barF g b => .barF g b
    | .barW g b => .barW g b
    | _ => .none
  let s1 := s.setF F.seqTpc_PC (s.spc f) f
  let s2 := ((s1.setF F.seqStat_MODE 0 f).setF F.seqStat_REPEAT 0 f).setSpc f Config.eventEntry.toNat
  s2.setSeq f { q with wait := .none, got := [], twait := tw }

/-- The running request of a schedule: the one it was called for, while that is in flight in the field. -/
def State.runningReq (s : State) (f : Nat) : Option Nat :=
  (s.seq f).curReq.filter fun k => s.hub.reqs.any fun r => r.slot == k && r.fliesIn (s.getF F.seqStat_TENANT f) f

/-- A precise fault of a sequencer (R117): in T mode it ends the running request and microcode recovers; in M mode it halts
the sequencer and ends every request in flight in the field. -/
def State.seqFault (s : State) (f : Nat) (fl : TFault) : State :=
  let t := s.tmode f
  let info := fl.cause.code + bit t * 2 ^ 8 + bit fl.glob * 2 ^ 9 + bit fl.write * 2 ^ 10 + (fl.addr % 2 ^ 48) * 2 ^ 16
  let s1 := s.setReg .seqFaultInfo f 0 0 info
  let s2 := if fl.cause = .poison ∧ !fl.glob ∧ !fl.sync then s1.storeErrCount f 2 else s1
  let q := s2.seq f
  let s3 := (s2.setSeq f { q with wait := .none, got := [] }).setF F.seqStat_REPEAT 0 f
  if t then (s3.endSlot (s3.runningReq f) fl.cause.seqStatus).toEventEntry f
  else (s3.setF F.seqStat_HALTED 1 f).endField f 0x3F

/-- Advance the base registers of post-increment operands. -/
def Seq.applyIncs (q : Seq) (l : List (Nat × Nat)) : Seq :=
  l.foldl (fun q x => q.setP x.1 ((q.preg x.1 + x.2) % 2 ^ 64)) q

/-- Write registers. -/
def Seq.applyWr (q : Seq) (l : List (Nat × Nat)) : Seq := l.foldl (fun q x => q.setP x.1 x.2) q

/-- Completion: side effects become visible and pc moves on or jumps. -/
def State.seqDone (s : State) (f : Nat) (e : SEv) (len : Nat) : State :=
  let s1 := e.s.setSeq f { (((e.s.seq f).applyIncs e.incs).applyWr e.wr) with wait := .none, got := [] }
  s1.setSpc f (e.jump.getD (s.spc f + len))

/-- The end of an evaluation; `fin` completes it. -/
def State.seqSettle (s : State) (f : Nat) (i : SeqInstr) (r : SRes Unit) (fin : SEv → State) : State :=
  match r with
  | .ok _ e => fin e
  | .fault fl => s.seqFault f fl
  | .hold => s
  | .stay s1 => s1
  | .issue op ga len data =>
    let s1 := s.setSeq f { s.seq f with wait := .glob }
    match s.seqActs f i with
    | some t => s1.issue (.seq f) false t op ga len data .seqOp
    | none => s1.issue (.seq f) true 0 op ga len data .seqOp

/-- The prefixes an instruction admits (Tables 5.3, 5.6). -/
structure Legal where
  atomic : Bool := false
  rep : Bool := false
  width : Bool := true
  mOnly : Bool := false
  tOnly : Bool := false
  deriving DecidableEq, Repr

/-- A specifier that makes the instruction illegal: a nonzero bit marked 0 in Table 5.2, or an immediate as D. -/
def osBad (isD : Bool) (o : Option SeqOperand) : Bool :=
  match o with
  | none => false
  | some o =>
    let os := o.os.toNat
    let m := bitsOf os 5 3
    bitsOf os 4 1 == 1 || ((m == 0 || decide (5 ≤ m)) && bitsOf os 3 1 == 1) || ((m == 5 || m == 6) && bitsOf os 0 3 != 0)
      || (isD && m == 6)

/-- The fault of the instruction as a whole: ILLEGAL, then bytes past the store (R106), then PRIV (R107, R118). -/
def legality (s : State) (f : Nat) (i : SeqInstr) (l : Legal) (bad : Bool) : Option TFault :=
  let pc := s.spc f
  let t := s.tmode f
  if (i.atomic && !l.atomic) || (i.rep && !l.rep) || (i.wpre && !l.width) || (l.tOnly && !t) || bad
      || osBad true i.d || osBad false i.a || osBad false i.b
      || (i.atomic && (i.width == .w8 || i.width == .w16 || i.d != i.a)) || (!t && (s.seq f).mfault) then
    some { cause := .illegal, addr := pc }
  else if 0x40000 < pc + i.len then some { cause := .length, addr := pc }
  else if t && (l.mOnly || i.tenant.isSome) then some { cause := .priv, addr := pc }
  else none

/-- An armed microcode fault (R297 0x12) is used up by the next M-mode instruction. -/
def State.useMfault (s : State) (f : Nat) : State :=
  let q := s.seq f
  if q.mfault && !s.tmode f then s.setSeq f { q with mfault := false, injFault := true } else s

/-- Run a sequencer instruction. -/
def seqRun (f : FieldNo) (i : SeqInstr) (l : Legal) (bad : Bool) (s : State) (body : SEv → SRes Unit) : State :=
  if !s.seqCan f.val then s
  else
    let q := s.seq f.val
    let s0 := s.useMfault f.val
    match legality s f.val i l bad with
    | some fl => s0.seqFault f.val fl
    | none => s0.seqSettle f.val i (body { s := s0, got := q.got }) fun e => s0.seqDone f.val e i.len

/-! ### REP (R108) -/

/-- The start of an instruction that may carry REP: under REP with rpt ≠ 0 its elements are SEQ_REP_ELEMENT. -/
def seqRepRun (f : FieldNo) (i : SeqInstr) (l : Legal) (bad : Bool) (s : State) (body : SEv → SRes Unit) : State :=
  if i.rep then
    if !s.seqCan f.val then s
    else match legality s f.val i l bad with
      | some fl => (s.useMfault f.val).seqFault f.val fl
      | none =>
        if s.getF F.seqRpt_RPT f.val = 0 then
          (s.setF F.seqStat_REPEAT 0 f.val).seqDone f.val { s := s.setF F.seqStat_REPEAT 0 f.val, got := [] } i.len
        else s.setF F.seqStat_REPEAT 1 f.val
  else seqRun f i l bad s body

/-- After an element: rpt − 1; at 0 the instruction completes. -/
def seqRepNext (f : Nat) (len : Nat) (e : SEv) : State :=
  let r := e.s.getF F.seqRpt_RPT f - 1
  let s1 := e.s.setF F.seqRpt_RPT r f
  let s2 := s1.setSeq f { (((s1.seq f).applyIncs e.incs).applyWr e.wr) with wait := .none, got := [] }
  if r = 0 then (s2.setF F.seqStat_REPEAT 0 f).setSpc f (s2.spc f + len) else s2

end Sys2Proof.Machine
end

