-- ==== Sys2Proof/Machine/HbmOps.lean ====
section
/-! DEFINITION. Reading and writing HBM and tile SRAM at their homes (R163 to R167, R174, R177). -/

namespace Sys2Proof.Machine

open Sys2Proof

/-- The 64-byte units of a range. -/
def unitsOf (a len : Nat) : List Nat := if len = 0 then [] else (upTo ((a + len - 1) / 64 - a / 64 + 1)).map (· + a / 64)

/-- The error mark of a 64-byte unit: 0 none, 1 one bit, 2 uncorrectable. -/
def State.hbmErrAt (s : State) (u : Nat) : Nat := Tab.get (fun _ => 0) s.hbm.err u

/-- Mark a 64-byte unit. -/
def State.hbmMark (s : State) (u v : Nat) : State :=
  { s with hbm := { s.hbm with err := Tab.set (fun _ => 0) s.hbm.err u v } }

/-- Correct single-bit errors of the units read, with write-back, and count them; count the uncorrectable (R164). -/
def State.hbmScan (s : State) (m : Nat) (us : List Nat) : State :=
  us.foldl (fun s u =>
    let k := s.hbmErrAt u
    if k = 1 then (s.hbmMark u 0).countF F.hbmErr_CORR 1 m
    else if k = 2 then (s.countF F.hbmErr_UNCORR 1 m).poisonEvent 0x0F 92 true
    else s) s

/-- Read HBM: none is poison, of an offline stack or an uncorrectable error (R164, R167). -/
def State.hbmRead (s : State) (a len : Nat) : Option (List Byte) × State :=
  let m := stackOf a
  if s.stackOff m then (none, s)
  else
    let us := unitsOf a len
    let bad := us.any fun u => s.hbmErrAt u == 2
    let s1 := (s.hbmScan m us).count48 .hbmCntRd us.length m 0
    (if bad then none else some (Tab.readBytes zeroByte s.hbm.bytes a len), s1)

/-- Write HBM; false when the stack is offline and the write is lost (R165, R167). A write of part of a unit reads it first;
a whole unit is written anew. An armed injection marks a unit it writes (R297 0x0E, 0x0F). -/
def State.hbmWrite (s : State) (a : Nat) (data : List Byte) : Bool × State :=
  let m := stackOf a
  if s.stackOff m then (false, s)
  else
    let us := unitsOf a data.length
    let whole (u : Nat) : Bool := decide (a ≤ u * 64) && decide (u * 64 + 64 ≤ a + data.length)
    let s1 := s.hbmScan m (us.filter fun u => !whole u && s.hbmErrAt u == 1)
    let s2 := (us.filter whole).foldl (fun s u => s.hbmMark u 0) s1
    let inj := Tab.get (fun _ => 0) s.hbm.inj m
    let s3 := if inj = 0 then s2
      else { s2.hbmMark (a / 64) inj with hbm := { (s2.hbmMark (a / 64) inj).hbm with inj := Tab.set (fun _ => 0) s.hbm.inj m 0 } }
    let s4 := { s3 with hbm := { s3.hbm with bytes := Tab.writeBytes zeroByte s3.hbm.bytes a data } }
    (true, s4.count48 .hbmCntWr us.length m 0)

/-- A registered local bank of some table covers part of an HBM range: tenant, table, bank (R172, R174). -/
def State.banksOver (s : State) (a len : Nat) : List (Nat × Nat × Bank) :=
  s.hub.tables.flatMap fun x =>
    let t := x.2
    let sz := bitsOf t.geom 0 9 * 8 * bitsOf t.geom 32 32
    let hit (b : Nat) : Bool := bitsOf b 44 2 == 0 && decide (bitsOf b 0 44 < a + len) && decide (a < bitsOf b 0 44 + sz)
    if !t.registered then []
    else (if hit t.baseA then [(x.1 / 256, x.1 % 256, Bank.a)] else []) ++ (if hit t.baseB then [(x.1 / 256, x.1 % 256, Bank.b)] else [])

/-- A request that an engine agent makes at tile SRAM, read directly. -/
def State.sramRead (s : State) (ga len : Nat) : Option (List Byte) :=
  let c := s.tile (gaField ga) (gaTile ga)
  if (upTo ((len + 7) / 8)).any fun i => c.errAt (gaOff ga + 8 * i) == 2 then none
  else some (Tab.readBytes zeroByte c.sram (gaOff ga) len)

/-- Read HBM or tile SRAM for an engine. -/
def State.memRead (s : State) (ga len : Nat) : Option (List Byte) × State :=
  if gaSpace ga = 0 then s.hbmRead ga len else (s.sramRead ga len, s)

/-- Write HBM for an agent that holds no reservation, breaking those of the tiles (R91). -/
def State.hbmStore (s : State) (a : Nat) (data : List Byte) : State := (s.hbmWrite a data).2.breakResv a data.length none

/-- Write tile SRAM, breaking reservations. -/
def State.sramWrite (s : State) (ga : Nat) (data : List Byte) : State :=
  let f := gaField ga
  let t := gaTile ga
  let c := s.tile f t
  (s.setTile f t (c.putSram (gaOff ga) data)).breakResv ga data.length none

end Sys2Proof.Machine
end

