-- ==== Sys2Proof/Machine/ImageArea.lean ====
section
/-! DEFINITION. Context images as bytes in their areas of the system region (R166, R214, R223, R416, Tables 10.2 and 10.10). -/

namespace Sys2Proof.Machine

open Sys2Proof

/-- A field of `n` bytes at `a` of a byte string. -/
def fieldAt (d : List Byte) (a n : Nat) : Nat := natLE ((d.drop a).take n)

/-! ### Tile records (Table 10.10) -/

/-- The tile that a record holds, without its queues; its accumulators keep their low 40 bits. -/
def recordTile (r : List Byte) : Tile :=
  let half (a : Nat) : Half := BitVec.ofNat 16 (fieldAt r a 2)
  let dw (a : Nat) : DWord := BitVec.ofNat 64 (fieldAt r a 8)
  let t : Tile :=
    { pc := half 0, cnt := half 2, sptr := half 4, dptr := half 6, step := half 8, ts := BitVec.ofNat 32 (fieldAt r 0x0C 4),
      mode := dw 0x10, circ0 := dw 0x18, circ1 := dw 0x20, acc0 := BitVec.ofNat 40 (fieldAt r 0x28 8),
      acc1 := BitVec.ofNat 40 (fieldAt r 0x30 8) }
  let t1 := (upTo 8).foldl (fun t k => t.setB k (fieldAt r (0x38 + 4 * k) 4)) t
  (upTo 8).foldl (fun t k =>
    (t.setDesc k (fieldAt r (0x80 + 16 * k) 8)).setArmed k (bitsOf (fieldAt r (0x88 + 16 * k) 8) 0 1 == 1)) t1

/-- The record of a tile, `words` its slots' state words. -/
def Tile.record (c : Tile) (words : List Nat) : List Byte :=
  [c.pc, c.cnt, c.sptr, c.dptr, c.step, 0].flatMap (fun h => bytesLE 2 h.toNat) ++ bytesLE 4 c.ts.toNat
    ++ [c.mode, c.circ0, c.circ1, c.acc0.signExtend 64, c.acc1.signExtend 64].flatMap (fun d => bytesLE 8 d.toNat)
    ++ (upTo 8).flatMap (fun k => bytesLE 4 (c.breg k))
    ++ [c.qn, c.qe, c.qs, c.qw, c.ql].map (fun q => BitVec.ofNat 8 q.length) ++ List.replicate 35 0
    ++ (upTo 8).flatMap fun k => bytesLE 8 (c.descr k) ++ bytesLE 8 (words[k]?.getD 0)

/-- The queue entries of a tile as an image lists them (R416). -/
def Tile.entries (c : Tile) : List Byte := (c.qn ++ c.qe ++ c.qs ++ c.qw ++ c.ql).flatMap fun d => bytesLE 8 d.toNat

/-- Entries of the five queues that a record counts; a count above 16 counts as 16. -/
def recordCounts (r : List Byte) : List Nat := (upTo 5).map fun k => min 16 (fieldAt r (0x58 + k) 1)

/-- The tile of a record whose queue entries are `q`; `old` gives what no image holds (assumption 120). -/
def restoreTile (r q : List Byte) (old : Tile) : Tile :=
  let n := recordCounts r
  let part (k : Nat) : List DWord :=
    (upTo (n[k]?.getD 0)).map fun i => BitVec.ofNat 64 (fieldAt q (8 * ((n.take k).foldl (· + ·) 0 + i)) 8)
  let t := recordTile r
  { t with
    qn := part 0, qe := part 1, qs := part 2, qw := part 3, ql := part 4,
    wait := (if bitsOf t.ts.toNat 20 1 = 1 then old.wait else .none), resv := old.resv, decSeen := old.decSeen,
    faultInfo := old.faultInfo, extDeny := old.extDeny }

/-! ### The image of a field (Table 10.2)

Table 10.2 names the parts of an image and R416 the order of the records and the queue entries. The order of the other parts (slices in
list order, the T-mode state, the barrier groups), the places in the register save page and the layout of the 2,048 bytes of barrier
groups and senses are a choice of the model (assumption 135). -/

/-- Bytes of the tile records of a field. -/
def contextBytes : Nat := 1254400

/-- The register save page: p0 to p7, then pc, rpt, the flags, `SEQ_HWIN` and `SEQ_TSTORE`, 8 bytes each. -/
def savePage : Nat := 0x3F000

/-- The bytes that CTXSAVE puts into the save page. -/
def pageBytes (p regs : List Nat) : List Byte := (p ++ regs).flatMap (bytesLE 8)

/-- One barrier group in 8 bytes: EXPECT, CNT, SENSE at bit 32, and the tenant's sense of the wafer group of that number at bit 33. -/
def barWord (i : Image) (g : Nat) : Nat :=
  let b := Tab.get (fun _ => (⟨0, 0, false, 0, false⟩ : Bar)) i.bars g
  b.expect % 2 ^ 16 + b.cnt % 2 ^ 16 * 2 ^ 16 + bit b.sense * 2 ^ 32 + Tab.get (fun _ => 0) i.wsense g % 2 * 2 ^ 33

/-- The bytes of an image, `words` the state words of each tile's slots. -/
def Image.layout (i : Image) (words : Nat → List Nat) : List Byte :=
  let tile (k : Nat) : Tile := Tab.get (fun _ => Tile.reset) i.tiles k
  (upTo 4900).flatMap (fun k => (tile k).record (words k)) ++ (upTo 4900).flatMap (fun k => (tile k).entries)
    ++ i.slices.flatMap (fun x => Tab.readBytes zeroByte (tile x.1).sram x.2.1 x.2.2)
    ++ Tab.readBytes zeroByte i.store 0x20000 0x20000 ++ (upTo 256).flatMap fun g => bytesLE 8 (barWord i g)

/-- Put the slice bytes into the tiles of an image, in list order; a slice outside the grid or SRAM is passed over. -/
def putSlices (d : List Byte) : List (Nat × Nat × Nat) → Nat → Tab Tile → Tab Tile
  | [], _, m => m
  | x :: r, a, m =>
    let m1 := if x.1 < 4900 ∧ x.2.1 + x.2.2 ≤ 0xC000 then
        (let c := Tab.get (fun _ => Tile.reset) m x.1
         Tab.set (fun _ => Tile.reset) m x.1 { c with sram := Tab.writeBytes zeroByte c.sram x.2.1 ((d.drop a).take x.2.2) })
      else m
    putSlices d r (a + x.2.2) m1

/-- The queue entries that records `d` count, in bytes. -/
def queueSize (d : List Byte) : Nat :=
  (upTo 4900).foldl (fun a k => a + 8 * (recordCounts ((d.drop (256 * k)).take 256)).foldl (· + ·) 0) 0

/-- The image that bytes hold: `recs` the records, `rest` what follows; `i` the image as it was saved, for what no image holds. -/
def Image.parse (i : Image) (recs rest : List Byte) : Image :=
  let tiles := (upTo 4900).foldl (fun (a : Tab Tile × Nat) k =>
    let r := (recs.drop (256 * k)).take 256
    let n := 8 * (recordCounts r).foldl (· + ·) 0
    (Tab.set (fun _ => Tile.reset) a.1 k (restoreTile r ((rest.drop a.2).take n) (Tab.get (fun _ => Tile.reset) i.tiles k)),
     a.2 + n)) ([], 0)
  let sl := i.slices.foldl (fun a x => a + x.2.2) 0
  let store := (rest.drop (tiles.2 + sl)).take 0x20000
  let page := store.drop (savePage - 0x20000)
  let bars := rest.drop (tiles.2 + sl + 0x20000)
  let bar (g : Nat) : Bar :=
    let v := fieldAt bars (8 * g) 8
    { Tab.get (fun _ => (⟨0, 0, false, 0, false⟩ : Bar)) i.bars g with
      expect := bitsOf v 0 16, cnt := bitsOf v 16 16, sense := bitsOf v 32 1 == 1 }
  { i with
    tiles := putSlices rest i.slices tiles.2 tiles.1
    store := Tab.writeBytes zeroByte [] 0x20000 store
    p := (upTo 8).foldl (fun m k => Tab.set (fun _ => (0 : DWord)) m k (BitVec.ofNat 64 (fieldAt page (8 * k) 8))) []
    regs := (upTo 12).map fun k => fieldAt page (64 + 8 * k) 8
    bars := (upTo 256).foldl (fun m g => Tab.set (fun _ => (⟨0, 0, false, 0, false⟩ : Bar)) m g (bar g)) []
    wsense := (upTo 64).foldl (fun m g => Tab.set (fun _ => 0) m g (bitsOf (fieldAt bars (8 * g) 8) 33 1)) [] }

/-! ### Image areas (R223) -/

/-- Bytes of an image area. -/
def areaSize : Nat := 0x800000

/-- Take an area for (tenant, field): the lowest of the field's eight that no tenant has (assumption 135). -/
def State.takeArea (s : State) (t f : Nat) : State :=
  let l := s.hub.areas.filter fun x => x.1 != imgKey t f
  let k := ((upTo 8).find? fun k => !l.any fun x => x.1 % 92 == f && x.2 == k).getD 0
  { s with hub := { s.hub with areas := l ++ [(imgKey t f, k)] } }

/-- Where the area of (tenant, field) begins: in the system region of the field's home stack. -/
def State.imageArea (s : State) (t f : Nat) : Option Nat :=
  (s.hub.areas.find? fun x => x.1 == imgKey t f).map fun x =>
    let pf := s.pfield f
    let m := s.homeStack pf
    let k := ((upTo 96).filter fun p => s.homeStack p == m).idxOf pf % 8
    m * 0x900000000 + 0x8E0000000 + (k * 8 + x.2) * areaSize

/-- Write bytes at the start of an area. -/
def State.areaWrite (s : State) (t f : Nat) (d : List Byte) : State :=
  match s.imageArea t f with
  | some a => s.hbmStore a (d.take areaSize)
  | none => s

/-- The pieces of at most `k` bytes of a range: offset and length. -/
def pieces (k len : Nat) : List (Nat × Nat) := (upTo ((len + k - 1) / k)).map fun i => (i * k, min k (len - i * k))

/-- Read HBM for the Hub, one 64-byte unit at a time; an unreadable unit gives free bytes. -/
def State.unitRead (s : State) (a len : Nat) : List Byte × State :=
  (pieces 64 len).foldl (fun r p =>
    let x := r.2.hbmRead (a + p.1) p.2
    match x.1 with
    | some d => (r.1 ++ d, x.2)
    | none => (let f := x.2.freeBytes p.2; (r.1 ++ f.1, f.2))) ([], s)

/-- The image that a context load takes: the saved one as its area holds it, or the clean one where none is saved. -/
def State.loadable (s : State) (t f : Nat) : Image × State :=
  match s.hub.saved.find? (fun x => x.1 == imgKey t f), s.imageArea t f with
  | some x, some a =>
    let r := s.unitRead a contextBytes
    let q := r.2.unitRead (a + contextBytes) (queueSize r.1 + x.2.slices.foldl (fun a y => a + y.2.2) 0 + 0x20800)
    (x.2.parse r.1 q.1, q.2)
  | some x, none => (x.2, s)
  | none, _ => (s.cleanImage t f, s)

/-- The areas of a field move with it to another home stack (R223); `old` is the state before. -/
def State.moveAreas (s old : State) (f : Nat) : State :=
  (s.hub.areas.filter fun x => x.1 % 92 == f).foldl (fun s x =>
    match old.imageArea (x.1 / 92) f with
    | some a => (let r := s.unitRead a areaSize; r.2.areaWrite (x.1 / 92) f r.1)
    | none => s) s

/-- Keep the context that a field holds of a tenant as its image: the sequencer's registers go to the save page first (R223). -/
def State.saveImage (s : State) (t f : Nat) : State :=
  let s0 := s.storeBytes f savePage (pageBytes ((upTo 8).map fun k => (s.seq f).preg k) (s.seqRegs f))
  let i := s0.takeImage f t
  let words (k : Nat) : List Nat := if h : k < 4900 then
      (if g : f < 92 then (upTo 8).map fun w => s.slotWord (.tile ⟨f, g⟩ ⟨k, h⟩) w else []) else []
  let s1 := { s0 with hub := { s0.hub with saved := Tab.set (fun _ => {}) s0.hub.saved (imgKey t f) i } }
  s1.areaWrite t f (i.layout words)

/-- Load the context of a tenant into a field. -/
def State.loadSaved (s : State) (t f : Nat) : State :=
  let r := s.loadable t f
  r.2.loadImage f t r.1

end Sys2Proof.Machine
end

