-- ==== Sys2Proof/Machine/Dense.lean ====
section
/-! DEFINITION. The dense block (R141 to R162): WLOAD, DPASS and DWAIT, plane loads, streaming, conversion. -/

namespace Sys2Proof.Machine

open Sys2Proof

/-! ### Numbers (R152, R155 to R157) -/

/-- An exact binary number m × 2^e. -/
structure Bin where
  m : Int
  e : Int
  deriving DecidableEq, Repr

/-- Bytes of an element: 0 int8, 1 fp8 E4M3, 2 fp8 E5M2, 3 bf16. -/
def fmtBytes (fmt : Nat) : Nat := if fmt = 3 then 2 else 1

/-- A sign and a magnitude. -/
def signMag (neg : Bool) (m : Nat) : Int := if neg then -(m : Int) else m

/-- The exact value of a float element; none for a NaN or an infinity (R152). -/
def floatOf (fmt v : Nat) : Option Bin :=
  if fmt = 1 then
    let x := bitsOf v 3 4
    let m := bitsOf v 0 3
    let neg := bitsOf v 7 1 == 1
    if x = 15 ∧ m = 7 then none
    else if x = 0 then some ⟨signMag neg m, -9⟩ else some ⟨signMag neg (8 + m), (x : Int) - 10⟩
  else if fmt = 2 then
    let x := bitsOf v 2 5
    let m := bitsOf v 0 2
    let neg := bitsOf v 7 1 == 1
    if x = 31 then none
    else if x = 0 then some ⟨signMag neg m, -16⟩ else some ⟨signMag neg (4 + m), (x : Int) - 17⟩
  else
    let x := bitsOf v 7 8
    let m := bitsOf v 0 7
    let neg := bitsOf v 15 1 == 1
    if x = 255 then none
    else if x = 0 then some ⟨signMag neg m, -133⟩ else some ⟨signMag neg (128 + m), (x : Int) - 134⟩

/-- A product aligned to the entry's least significant bit 2^(Tc − 48): truncated toward zero, clamped (R154). -/
def alignProd (tc : Int) (p : Bin) : Int × Bool :=
  let k := p.e - (tc - 48)
  let a := p.m.natAbs
  let v : Nat := if a = 0 then 0 else if 48 ≤ k then 2 ^ 48 else if 0 ≤ k then a * 2 ^ k.toNat else a / 2 ^ (-k).toNat
  let big := decide (2 ^ 48 ≤ v)
  (signMag (decide (p.m < 0)) (if big then 2 ^ 48 - 1 else v), big)

/-- Round m × 2^e to a multiple of 2^q under RND, as a count of 2^q. -/
def roundTo (rnd : Nat) (m e q : Int) : Int :=
  if q ≤ e then m * 2 ^ (e - q).toNat else fxRound rnd m (q - e).toNat

/-- Fraction bits and width of an integer or Q output format (Table 7.1 OFMT). -/
def ofmtFrac (o : Nat) : Nat := if o = 2 then 7 else if o = 3 then 4 else if o = 4 then 15 else if o = 5 then 8 else 0
def ofmtBits (o : Nat) : Nat := if o = 1 ∨ o = 4 ∨ o = 5 then 16 else 8

/-- The code of an output and whether OUT_SAT is set (R155 to R157). -/
def convertOut (o rnd : Nat) (sat : Bool) (x : Bin) : Nat × Bool :=
  if o = 1 then
    if x.m = 0 then (0, false)
    else
      let top : Int := (Nat.log2 x.m.natAbs : Int) + x.e
      let q : Int := if top - 7 < -133 then -133 else top - 7
      let y := roundTo rnd x.m x.e q
      let neg := decide (y < 0)
      let n := y.natAbs
      let s := bit neg * 2 ^ 15
      let n1 := if n = 256 then 128 else n
      let q1 := if n = 256 then q + 1 else q
      if n = 0 then (0, false)
      else if n1 < 128 then (s + n1, false)
      else if 255 ≤ q1 + 134 then (s + (if sat then 0x7F7F else 0x7F80), true)
      else (s + (q1 + 134).toNat * 128 + (n1 - 128), false)
  else
    let n := ofmtBits o
    narrowN n sat (roundTo rnd x.m x.e (-(ofmtFrac o : Int)))

/-! ### The pass descriptor (Table 7.1) -/

def Pass.woff (p : Pass) : Nat := bitsOf p.desc 0 14 * 512
def Pass.k (p : Pass) : Nat := bitsOf p.desc 16 8 + 1
def Pass.n (p : Pass) : Nat := bitsOf p.desc 24 8 + 1
def Pass.wfmt (p : Pass) : Nat := bitsOf p.desc 32 2
def Pass.xfmt (p : Pass) : Nat := bitsOf p.desc 34 2
def Pass.bank (p : Pass) : Nat := bitsOf p.desc 36 1
def Pass.clr (p : Pass) : Bool := bitsOf p.desc 37 1 == 1
def Pass.final (p : Pass) : Bool := bitsOf p.desc 38 1 == 1
def Pass.fence (p : Pass) : Bool := bitsOf p.desc 39 1 == 1
def Pass.evt (p : Pass) : Bool := bitsOf p.desc 40 1 == 1
def Pass.act (p : Pass) : Bool := bitsOf p.desc 41 1 == 1
def Pass.rnd (p : Pass) : Nat := bitsOf p.desc 42 2
def Pass.sat (p : Pass) : Bool := bitsOf p.desc 44 1 == 1
def Pass.ofmt (p : Pass) : Nat := bitsOf p.desc 45 3

/-- Bytes of the weights and of the column tops of a tile (R145). -/
def Pass.wbytes (p : Pass) : Nat := 65536 * fmtBytes p.wfmt
def tileBytes (wfmt : Nat) : Nat := 65536 * fmtBytes wfmt + (if wfmt = 0 then 0 else 512)

/-- The lanes that an input vector uses, and those of an output vector (R143). -/
def Pass.inLanes (p : Pass) : Nat := (p.k * fmtBytes p.xfmt + 7) / 8
def Pass.outLanes (p : Pass) : Nat := (p.n * (ofmtBits p.ofmt / 8) + 7) / 8

/-- Two ranges share a buffer unit. -/
def overlap (a n b m : Nat) : Bool := decide (a / 512 * 512 < b + m) && decide (b / 512 * 512 < a + n)

/-! ### WLOAD, DPASS, DWAIT (R144, R147, R161) -/

/-- The value of operand D read as a number (R144). -/
def srcD (e : SEv) (f : Nat) (i : SeqInstr) : SRes Nat := (dstS e f i i.d).bind fun pl e1 => onD (readS e1 f i pl)

/-- The reads of a WLOAD as they are issued. -/
structure WIssue where
  s : State
  rows : List GathEl
  fail : Option (Nat × Cause)
  deriving DecidableEq, Repr

/-- Issue the reads of a WLOAD, 256 bytes each, up to the first that its check refuses. -/
def wloadIssue (f tn : Nat) : Nat → Nat → WIssue → WIssue
  | 0, _, r => r
  | n + 1, ga, r =>
    match r.s.gaCheck false tn ga 256 1 .read with
    | some c => { r with fail := some (ga, c) }
    | none =>
      let el : GathEl := { access := r.s.mesh.nextId, dst := 0, len := 256, ga := ga }
      wloadIssue f tn n (ga + 256) { r with s := r.s.issue (.dense f) false tn .read ga 256 [] .wload, rows := r.rows ++ [el] }

/-- WLOAD queues a copy of B bytes at A to buffer offset D. -/
def execSeqWload (f : FieldNo) (i : SeqInstr) (s : State) : Out :=
  .next (seqRun f i { width := false } (!s.tmode f.val && i.tenant.isNone) s fun e =>
    (srcS e f.val i i.a).bind fun a e1 =>
      (srcS e1 f.val i i.b).bind fun b e2 =>
        (srcD e2 f.val i).bind fun d e3 =>
          if d % 512 ≠ 0 ∨ b % 512 ≠ 0 ∨ b = 0 ∨ d + b > 2 ^ 23 then .fault { cause := .localAddr, addr := d % 2 ^ 48 }
          else if a ≥ 2 ^ 48 ∨ gaSpace a > 1 then .fault { cause := .globalAddr, glob := true, addr := a % 2 ^ 48 }
          else if seqHolds e3.s f.val i then .hold
          else
            let tn := e3.s.seqNames f.val i
            let dn := e3.s.dense f.val
            let r := wloadIssue f.val tn (b / 256) a { s := e3.s, rows := [], fail := none }
            let w : Wld :=
              { tenant := tn, slot := e3.s.reqOf f.val tn, off := d, len := b, order := dn.order, tm := e3.s.tmode f.val,
                rows := r.rows, fail := r.fail }
            .ok () { e3 with s := r.s.setDense f.val { r.s.dense f.val with wload := dn.wload ++ [w], order := dn.order + 1 } })

/-- The 16 bytes at an SA, as two words. -/
def readDesc (e : SEv) (f a : Nat) : SRes (Nat × Nat) :=
  (readSA e f a 8).bind fun x e1 => (readSA e1 f (a + 8) 8).bind fun y e2 => .ok (x, y) e2

/-- A descriptor that R147 refuses. -/
def descBad (x y : Nat) : Bool :=
  bitsOf x 14 2 != 0 || bitsOf x 48 16 != 0 || bitsOf y 24 8 != 0 || bitsOf y 56 8 != 0 || decide (bitsOf x 45 3 ≥ 6)
    || ((bitsOf x 32 2 == 0) != (bitsOf x 34 2 == 0)) || decide (bitsOf x 0 14 * 512 + tileBytes (bitsOf x 32 2) > 2 ^ 23)

/-- DPASS copies the descriptor at SA A and queues a pass of B vectors. -/
def execSeqDpass (f : FieldNo) (i : SeqInstr) (s : State) : Out :=
  .next (seqRun f i { width := false } (!s.tmode f.val && i.tenant.isNone) s fun e =>
    (srcS e f.val i i.a).bind fun a e1 =>
      (srcS e1 f.val i i.b).bind fun b e2 =>
        let ill : SRes Unit := .fault { cause := .illegal, addr := e2.s.spc f.val }
        if b = 0 ∨ b > 512 ∨ a % 8 ≠ 0 then ill
        else
          (readDesc e2 f.val a).bind fun x e3 =>
            if descBad x.1 x.2 then ill
            else
              let s3 := e3.s
              let dn := s3.dense f.val
              if dn.queue.length ≥ 4 then .stay (s.setSeq f.val { s.seq f.val with wait := .dpassFull })
              else
                let p : Pass :=
                  { desc := x.1, rslot := bitsOf x.2 32 32, vecs := b, tenant := s3.seqNames f.val i, order := dn.order,
                    omul := bitsOf x.2 0 16, osh := bitsOf x.2 16 8 }
                .ok () { e3 with s := s3.setDense f.val { dn with queue := dn.queue ++ [p], order := dn.order + 1 } })

/-- DWAIT completes when the block is idle. -/
def execSeqDwait (f : FieldNo) (i : SeqInstr) (s : State) : Out :=
  .next (seqRun f i { width := false } false s fun e =>
    if (e.s.dense f.val).idle then .ok () e
    else .stay (s.setSeq f.val { s.seq f.val with wait := .dwait }))

/-- A fault that a WLOAD raises after its instruction completed (R117, R144): it counts in the mode of its issue. -/
def State.wloadFault (s : State) (f : Nat) (w : Wld) (fl : TFault) : State :=
  if s.tmode f == w.tm then s.seqFault f fl
  else
    let info := fl.cause.code + bit w.tm * 2 ^ 8 + bit fl.glob * 2 ^ 9 + (fl.addr % 2 ^ 48) * 2 ^ 16
    let s1 := s.setReg .seqFaultInfo f 0 0 info
    if w.tm then s1.endSlot w.slot fl.cause.seqStatus else (s1.setF F.seqStat_HALTED 1 f).endField f 0x3F

/-- Write the units of a WLOAD; each takes the tenant as its tag (R144). -/
def Dense.fill (d : Dense) (tenant off : Nat) (data : List Byte) : Dense :=
  { d with
    wbuf := Tab.writeBytes zeroByte d.wbuf off data
    wtag := (upTo ((data.length + 511) / 512)).foldl (fun m u => Tab.set (fun _ => 0) m (off / 512 + u) (tenant + 1)) d.wtag }

/-- Write the units whose reads have come back, in order; a failed read or check ends the WLOAD with its fault. -/
def wloadRun (f : Nat) (w : Wld) : List GathEl → Nat → State → State
  | a :: b :: r, off, s =>
    match a.bad, b.bad with
    | some c, _ => s.wloadFault f w { cause := c, glob := true, addr := a.ga % 2 ^ 48 }
    | none, some c => s.wloadFault f w { cause := c, glob := true, addr := b.ga % 2 ^ 48 }
    | none, none => wloadRun f w r (off + 512) (s.setDense f ((s.dense f).fill w.tenant off (a.data ++ b.data)))
  | [a], _, s =>
    match a.bad, w.fail with
    | some c, _ => s.wloadFault f w { cause := c, glob := true, addr := a.ga % 2 ^ 48 }
    | none, some x => s.wloadFault f w { cause := x.2, glob := true, addr := x.1 % 2 ^ 48 }
    | none, none => s
  | [], _, s =>
    match w.fail with
    | some x => s.wloadFault f w { cause := x.2, glob := true, addr := x.1 % 2 ^ 48 }
    | none => s

/-- A read that has come back whole, or failed. -/
def GathEl.back (g : GathEl) : Bool := g.bad.isSome || decide (g.len ≤ g.data.length)

/-- WLOAD_COMPLETE: the oldest WLOAD whose reads are back is performed, once every earlier pass that reads its units has its
plane and no earlier WLOAD of the same units is outstanding (R146). -/
def execWloadComplete (f : FieldNo) (s : State) : Out :=
  .next (let d := s.dense f.val
    match if d.frozen then none else d.wload.find? (fun w => w.rows.all GathEl.back
      && !d.queue.any (fun p => !p.loaded && decide (p.order < w.order) && overlap w.off w.len p.woff (tileBytes p.wfmt))
      && !d.wload.any (fun v => decide (v.order < w.order) && overlap w.off w.len v.off v.len)) with
    | none => s
    | some w => wloadRun f.val w w.rows w.off (s.setDense f.val { d with wload := d.wload.erase w }))

/-! ### Lanes (R142) -/

/-- FEED_ENTRY_ARRIVAL: the oldest entry on its way along a feed lane enters the block's buffer; lanes 64 to 69 discard it. -/
def execFeedEntryArrival (f : FieldNo) (l : Fin 70) (s : State) : Out :=
  .next (let d := s.dense f.val
    match lane d.feedIn l.val with
    | [] => s
    | v :: r =>
      let d1 := { d with feedIn := setLane d.feedIn l.val r }
      if l.val ≥ 64 then (s.setDense f.val d1).setF F.dnsErr_IDLE_LANE 1 f.val
      else s.setDense f.val { d1 with feed := setLane d.feed l.val (lane d.feed l.val ++ [v]) })

/-- DRAIN_ENTRY_ARRIVAL: the oldest entry on its way along a drain lane becomes visible at the drain tile. -/
def execDrainEntryArrival (f : FieldNo) (l : Fin 70) (s : State) : Out :=
  .next (let d := s.dense f.val
    match lane d.drainIn l.val with
    | [] => s
    | v :: r =>
      s.setDense f.val { d with drainIn := setLane d.drainIn l.val r, drain := setLane d.drain l.val (lane d.drain l.val ++ [v]) })

/-! ### Errors (R160) -/

/-- A corrected or uncorrectable error of the weight buffer or the accumulator store (Table 13.4 0x0D). -/
def State.denseErr (s : State) (f kind : Nat) : State :=
  if kind % 2 = 1 then s.countF F.dnsErr_CORR 1 f
  else ((s.countF F.dnsErr_UNCORR 1 f).setF F.dnsErr_POISON 1 f).poisonEvent 0x0D f true

/-! ### Plane loads (R146, R148) -/

/-- Copy the units of a range that carry the tenant's tag; the others load as zeros. The flag says that one was stale. -/
def loadUnits (d : Dense) (tag off len : Nat) : Tab Byte × Bool :=
  (upTo (len / 512)).foldl (fun (m : Tab Byte × Bool) u =>
    if Tab.get (fun _ => 0) d.wtag (off / 512 + u) = tag then
      (Tab.writeBytes zeroByte m.1 (u * 512) (Tab.readBytes zeroByte d.wbuf (off + u * 512) 512), m.2)
    else (m.1, true)) ([], false)

/-- PLANE_LOAD_DONE: the first queued pass has its weights, once no earlier WLOAD of its units is outstanding. A stale unit holds
weights of every column, so the column tops load as zeros with it (R145, R146). -/
def execPlaneLoadDone (f : FieldNo) (s : State) : Out :=
  .next (let d := s.dense f.val
    match d.queue with
    | [] => s
    | p :: r =>
      if d.frozen || p.loaded || d.nextLoaded
          || d.wload.any (fun w => decide (w.order < p.order) && overlap w.off w.len p.woff (tileBytes p.wfmt)) then s
      else
        let u0 := loadUnits d (p.tenant + 1) p.woff (tileBytes p.wfmt)
        let u := if u0.2 then (u0.1.filter fun x => decide (x.1 < p.wbytes), true) else u0
        let hurt := d.inj == 1 || d.inj == 2
        let s1 := s.setDense f.val { d with
          queue := { p with loaded := true, bad := d.inj == 2 } :: r, next := ⟨u.1⟩, nextLoaded := true,
          inj := if hurt then 0 else d.inj }
        let s2 := if u.2 then s1.setF F.dnsErr_STALE 1 f.val else s1
        if hurt then s2.denseErr f.val d.inj else s2)

/-- PASS_STREAM_START: a loaded pass starts once its predecessor, fence and bank conditions hold (R148). -/
def execPassStreamStart (f : FieldNo) (s : State) : Out :=
  .next (let d := s.dense f.val
    match d.queue with
    | [] => s
    | p :: r =>
      if d.frozen || d.running.isSome || !p.loaded || (p.fence && !d.conv.isEmpty)
          || d.conv.any (fun c => c.pass.bank == p.bank) then s
      else
        let tops := if p.clr && p.wfmt != 0 then
            (upTo p.n).foldl (fun m c =>
              Tab.set (fun _ => (0 : Half)) m (p.bank * 256 + c)
                (BitVec.ofNat 16 (Tab.readLE zeroByte d.next.w (p.wbytes + 2 * c) 2))) d.tops
          else d.tops
        s.setDense f.val { d with queue := r, running := some p, plane := d.next, next := {}, nextLoaded := false, vec := 0, tops := tops })

/-! ### Accumulation (R149, R151 to R154) -/

/-- The key of an accumulator entry. -/
def accKey (bank col vec : Nat) : Nat := bank * 131072 + col * 512 + vec

/-- The elements of an input vector. -/
def Dense.input (d : Dense) (p : Pass) : List Nat :=
  let bs := (upTo p.inLanes).flatMap fun e => bytesLE 8 ((lane d.feed e).headD 0).toNat
  (upTo p.k).map fun k => natLE ((bs.drop (k * fmtBytes p.xfmt)).take (fmtBytes p.xfmt))

/-- The weight of row k, column n. -/
def Dense.weight (d : Dense) (p : Pass) (k n : Nat) : Nat :=
  Tab.readLE zeroByte d.plane.w ((k * 256 + n) * fmtBytes p.wfmt) (fmtBytes p.wfmt)

/-- The sum of one column for one vector, and whether a product clamped. -/
def Dense.column (d : Dense) (p : Pass) (xs : List Nat) (n : Nat) : Int × Bool :=
  let tc := (Tab.get (fun _ => (0 : Half)) d.tops (p.bank * 256 + n)).toInt
  (upTo p.k).foldl (fun (a : Int × Bool) k =>
    let x := xs[k]?.getD 0
    let w := d.weight p k n
    if p.wfmt = 0 then (a.1 + signedOf 8 x * signedOf 8 w, a.2)
    else match floatOf p.xfmt x, floatOf p.wfmt w with
      | some u, some v =>
        let q := alignProd tc ⟨u.m * v.m, u.e + v.e⟩
        (a.1 + q.1, a.2 || q.2)
      | _, _ => a) (0, false)

/-- An element of the pass is a NaN or an infinity. -/
def Dense.nonfinite (d : Dense) (p : Pass) (xs : List Nat) : Bool :=
  p.wfmt != 0 &&
    (xs.any (fun x => (floatOf p.xfmt x).isNone)
      || (upTo p.k).any fun k => (upTo p.n).any fun n => (floatOf p.wfmt (d.weight p k n)).isNone)

/-- VECTOR_ENTRY: when every feed lane it uses holds an entry, the next vector enters and is accumulated. -/
def execVectorEntry (f : FieldNo) (s : State) : Out :=
  .next (let d := s.dense f.val
    match d.running with
    | none => s
    | some p =>
      if d.frozen || (upTo p.inLanes).any (fun e => (lane d.feed e).isEmpty) then s
      else
        let xs := d.input p
        let cols := (upTo p.n).map fun n => (n, d.column p xs n)
        let old (n : Nat) : Int := if p.clr then 0 else (Tab.get (fun _ => (0 : BitVec 56)) d.acc (accKey p.bank n d.vec)).toInt
        let sat := cols.any fun c => outOfRange 56 (old c.1 + c.2.1)
        let acc := cols.foldl (fun m c =>
          Tab.set (fun _ => (0 : BitVec 56)) m (accKey p.bank c.1 d.vec) (BitVec.ofInt 56 (clampN 56 (old c.1 + c.2.1)))) d.acc
        let feed := (upTo p.inLanes).foldl (fun m e => setLane m e ((lane m e).drop 1)) d.feed
        let v := d.vec + 1
        let last := decide (v ≥ p.vecs)
        let d1 := { d with acc := acc, feed := feed, vec := v }
        let d2 := if last then
            { d1 with running := none, ending := d.ending ++ [p], conv := if p.final then d.conv ++ [⟨p, 0⟩] else d.conv }
          else d1
        let s1 := s.setDense f.val d2
        let s2 := if d.nonfinite p xs then s1.setF F.dnsErr_NONFINITE 1 f.val else s1
        let s3 := if cols.any fun c => c.2.2 then s2.setF F.dnsErr_RANGE 1 f.val else s2
        let s4 := if sat then s3.setF F.dnsErr_ACC_SAT 1 f.val else s3
        ((s4.count48 .dnsCntStream 1 f.val 0).progress f.val).wake f.val)

/-- The KIND 0x04 event of a pass (Table 5.7). -/
def State.denseEvent (s : State) (f : Nat) (p : Pass) : State :=
  s.seqEvent f { kind := 4, tenant := p.tenant, arg := p.rslot }

/-- PASS_END: the accumulation of a pass's last vector completes; the pass counts, and without FINAL it raises its event. -/
def execPassEnd (f : FieldNo) (s : State) : Out :=
  .next (let d := s.dense f.val
    match if d.frozen then [] else d.ending with
    | [] => s
    | p :: r =>
      let s1 := (s.setDense f.val { d with ending := r }).count48 .dnsCntPass 1 f.val 0
      if !p.final && (p.evt || p.bad) then s1.denseEvent f.val p else s1)

/-! ### Conversion (R150, R155 to R157) -/

/-- One output of the converter. -/
def Dense.output (d : Dense) (p : Pass) (vec n : Nat) : Nat × Bool :=
  let a := (Tab.get (fun _ => (0 : BitVec 56)) d.acc (accKey p.bank n vec)).toInt
  let e0 : Int := if p.wfmt = 0 then 0 else (Tab.get (fun _ => (0 : Half)) d.tops (p.bank * 256 + n)).toInt - 48
  let m := a * p.omul
  let e := e0 + signedOf 8 p.osh - 15
  convertOut p.ofmt p.rnd p.sat ⟨if p.act && decide (m < 0) then 0 else m, e⟩

/-- VECTOR_CONVERT: the converter writes the next vector of its bank to the drain lanes when each has room. -/
def execVectorConvert (f : FieldNo) (s : State) : Out :=
  .next (let d := s.dense f.val
    match d.conv with
    | [] => s
    | c :: r =>
      let p := c.pass
      let full (e : Nat) : Bool := decide ((lane d.drain e).length + (lane d.drainIn e).length ≥ 16)
      if d.frozen || decide (c.next ≥ p.vecs) || (upTo p.outLanes).any full then s
      else
        let outs := (upTo p.n).map fun n => d.output p c.next n
        let bs := outs.flatMap fun o => bytesLE (ofmtBits p.ofmt / 8) o.1
        let drainIn := (upTo p.outLanes).foldl (fun m e =>
          setLane m e (lane m e ++ [BitVec.ofNat 64 (natLE ((bs.drop (8 * e)).take 8))])) d.drainIn
        let hurt := d.inj == 3 || d.inj == 4
        let s1 := s.setDense f.val { d with
          drainIn := drainIn, conv := ⟨{ p with bad := p.bad || d.inj == 4 }, c.next + 1⟩ :: r, inj := if hurt then 0 else d.inj }
        let s2 := if outs.any fun o => o.2 then s1.setF F.dnsErr_OUT_SAT 1 f.val else s1
        if hurt then s2.denseErr f.val d.inj else s2)

/-- CONVERSION_DONE: a bank is converted; the event is raised with EVT or after an uncorrectable error. -/
def execConversionDone (f : FieldNo) (s : State) : Out :=
  .next (let d := s.dense f.val
    match d.conv with
    | [] => s
    | c :: r =>
      if d.frozen || decide (c.next < c.pass.vecs) then s
      else
        let s1 := s.setDense f.val { d with conv := r }
        if c.pass.evt || c.pass.bad then s1.denseEvent f.val c.pass else s1)

end Sys2Proof.Machine
end

