-- ==== Sys2Proof/Machine/Sync.lean ====
section
/-! DEFINITION. Cells, barriers and the deadlock detector (R190 to R209), and the sequencer's instructions on them. -/

namespace Sys2Proof.Machine

open Sys2Proof

/-! ### A sequencer that waits inside an instruction -/

/-- The sequencer waits; its pc stays on the instruction, the pc after it and its post-increments are kept. -/
def seqAwait (f : Nat) (i : SeqInstr) (e : SEv) (w : SWait) (g : State → State) : SRes Unit :=
  let q := e.s.seq f
  .stay (g (e.s.setSeq f { q with wait := w, resume := (e.s.spc f + i.len) % 2 ^ 24, incs := e.incs, got := [] }))

/-- The wait ends: the instruction completes. -/
def State.seqResume (s : State) (f : Nat) : State :=
  let q := s.seq f
  (s.setSeq f { (q.applyIncs q.incs) with wait := .none, incs := [], twait := .none }).setSpc f q.resume

/-! ### Instructions on cells and barriers (R103, R190, R196) -/

/-- SCSET, SCCLR and SCWAIT: the operand names the cell by A[11:0]. -/
def seqCell (f : FieldNo) (i : SeqInstr) (op : CellOp) (s : State) : State :=
  seqRun f i {} false s fun e =>
    (srcS e f.val i i.a).bind fun a e1 =>
      match e1.s.cellIndex f.val (e1.s.seqNames f.val i) (a % 4096) with
      | .error fl => .fault fl
      | .ok c => seqAwait f.val i e1 (if op = .wait then .cell c else .cellAck c)
          fun s => s.sendCell f.val { by_ := .seq, op := op, cell := c }

/-- SCSET. -/
def execSeqScset (f : FieldNo) (i : SeqInstr) (s : State) : Out := .next (seqCell f i .set s)
/-- SCCLR. -/
def execSeqScclr (f : FieldNo) (i : SeqInstr) (s : State) : Out := .next (seqCell f i .clear s)
/-- SCWAIT. -/
def execSeqScwait (f : FieldNo) (i : SeqInstr) (s : State) : Out := .next (seqCell f i .wait s)

/-- BARF arrives at field group A[7:0] and waits; one restored in its wait does not arrive again (R200). -/
def execSeqBarf (f : FieldNo) (i : SeqInstr) (s : State) : Out :=
  .next (seqRun f i {} false s fun e =>
    (srcS e f.val i i.a).bind fun a e1 =>
      let g := a % 256
      match e1.s.tmode f.val, (e1.s.seq f.val).twait with
      | true, .barF g2 b =>
        if g2 = g then seqAwait f.val i e1 (.barF g b) id
        else match e1.s.arriveF f.val g with
          | .error fl => .fault fl
          | .ok s2 => seqAwait f.val i { e1 with s := s2 } (.barF g (s2.bar f.val g).sense) id
      | _, _ => match e1.s.arriveF f.val g with
        | .error fl => .fault fl
        | .ok s2 => seqAwait f.val i { e1 with s := s2 } (.barF g (s2.bar f.val g).sense) id)

/-- BARW arrives at wafer group A[5:0] and waits. -/
def execSeqBarw (f : FieldNo) (i : SeqInstr) (s : State) : Out :=
  .next (seqRun f i {} false s fun e =>
    (srcS e f.val i i.a).bind fun a e1 =>
      let g := a % 64
      let arrive : SRes Unit := match e1.s.arriveW (e1.s.seqNames f.val i) g with
        | .error fl => .fault fl
        | .ok s2 => seqAwait f.val i { e1 with s := s2 } (.barW g (s2.flag F.hubWbar_SENSE g)) id
      match e1.s.tmode f.val, (e1.s.seq f.val).twait with
      | true, .barW g2 b => if g2 = g then seqAwait f.val i e1 (.barW g b) id else arrive
      | _, _ => arrive)

/-! ### The cell pool (R191 to R194, Table 9.2) -/

/-- The order of R191 within one field cycle. -/
def CellBy.rank : CellBy → Nat
  | .seq => 0
  | .tile t => t + 1
  | .gstage => 4901

/-- The next operation of the pool: the earliest sent, in the order of R191. -/
def nextCellOp (l : List CellReq) : Option CellReq :=
  l.foldl (fun (b : Option CellReq) r =>
    match b with
    | none => some r
    | some x => if r.at_ < x.at_ ∨ (r.at_ = x.at_ ∧ r.by_.rank < x.by_.rank) then some r else b) none

/-- A POISON event of a detector that has no code (Table 13.4): word 2 is a free value. -/
def State.poisonFree (s : State) (lf : Nat) : State :=
  let d := s.draw
  d.2.poisonEvent d.1.toNat lf true

/-- A read of a cell word (Table 9.2): one bit is corrected and counted; two bits make the cell act as set with POISON, wake
every waiter and count. -/
def State.cellRead (s : State) (f i : Nat) : State :=
  let c := s.cell f i
  if c.err = 1 then (s.setCell f i { c with err := 0 }).countF F.fldSyncErr_CELL_CORR 1 f
  else if c.err = 2 then
    let s1 := s.setCell f i { c with err := 0, set := true, poison := true, waiters := [] }
    let s2 := s1.setField f { s1.field f with
      cellWakes := (s1.field f).cellWakes ++ c.waiters.map (fun w => ({ who := w, cell := i, z := false, poison := true } : CellAns)) }
    (s2.countF F.fldSyncErr_CELL_UNCORR 1 f).poisonFree f
  else s

/-- Write a cell: an armed injection marks the word; a write clears POISON. -/
def State.cellWrite (s : State) (f i : Nat) (v : Bool) : State :=
  let inj := (s.field f).cellInj
  let c := s.cell f i
  let s1 := s.setCell f i { c with set := v, poison := false, err := inj, waiters := if v then [] else c.waiters }
  let ws := if v then c.waiters.map fun w => ({ who := w, cell := i, z := false, poison := false } : CellAns) else []
  let s2 := s1.setField f { s1.field f with cellInj := 0, cellWakes := (s1.field f).cellWakes ++ ws }
  (s2.bindSignal f c v).progress f

/-- Answer a cell operation. -/
def State.cellAnswer (s : State) (f : Nat) (wake : Bool) (a : CellAns) : State :=
  let x := s.field f
  if a.who == .gstage then s
  else s.setField f (if wake then { x with cellWakes := x.cellWakes ++ [a] } else { x with cellAcks := x.cellAcks ++ [a] })

/-- CELL_OPERATION: the next operation is performed at the pool. -/
def execCellOperation (f : FieldNo) (s : State) : Out :=
  .next (match nextCellOp (s.field f.val).cellOps with
    | none => s
    | some r =>
      let x := s.field f.val
      let s1 := s.setField f.val { x with cellOps := x.cellOps.erase r }
      match r.op with
      | .set => (s1.cellWrite f.val r.cell true).cellAnswer f.val false { who := r.by_, cell := r.cell, z := false, poison := false }
      | .clear => (s1.cellWrite f.val r.cell false).cellAnswer f.val false { who := r.by_, cell := r.cell, z := false, poison := false }
      | .test =>
        let s2 := s1.cellRead f.val r.cell
        let c := s2.cell f.val r.cell
        s2.cellAnswer f.val false { who := r.by_, cell := r.cell, z := !c.set, poison := c.poison, test := true }
      | .wait =>
        let s2 := s1.cellRead f.val r.cell
        let c := s2.cell f.val r.cell
        if c.set then s2.cellAnswer f.val true { who := r.by_, cell := r.cell, z := false, poison := c.poison }
        else s2.setCell f.val r.cell { c with waiters := c.waiters ++ [r.by_] })

/-- The POISON fault of a cell or tree (Table 9.2). -/
def syncPoison (n : Nat) : TFault := { cause := .poison, addr := n, sync := true }

/-- Whose wait an answer ends. -/
def byOf : Waiter → CellBy
  | .tile t => .tile t.val
  | .seq => .seq

/-- The index of a pool cell within the allotment of the context. -/
def State.cellRel (s : State) (f i : Nat) : Nat := i - (s.allot f (s.actTenant f)).1

/-- CELL_ACK: the pool's acknowledgement completes CSET, CCLR, CTST, SCSET or SCCLR. A frozen tile waits for thaw. -/
def execCellAck (f : FieldNo) (w : Waiter) (s : State) : Out :=
  .next (match (s.field f.val).cellAcks.find? (fun a => a.who == byOf w) with
    | none => s
    | some a =>
      let s1 := s.setField f.val { s.field f.val with cellAcks := (s.field f.val).cellAcks.erase a }
      match w with
      | .seq => match (s1.seq f.val).wait with
        | .cellAck i => if i = a.cell then s1.seqResume f.val else s1
        | _ => s1
      | .tile t =>
        let c := s1.tile f.val t.val
        match c.wait with
        | .cellAck i =>
          if i ≠ a.cell then s1
          else
          let s2 := s1.setTile f.val t.val { c with wait := .none }
          if a.poison then s2.tileFault (.tile f t) (syncPoison (s1.cellRel f.val a.cell))
          else
            let c2 := s2.tile f.val t.val
            let c3 := if a.test then c2.setFlg { c.flg with z := a.z } else c2
            Ev.complete (.tile f t) { s := s2.setTile f.val t.val c3 } 4
        | _ => s1)

/-- CELL_WAKE: a wake reaches a waiter and its wait completes; a frozen tile acts on it only after thaw (R205). -/
def execCellWake (f : FieldNo) (w : Waiter) (s : State) : Out :=
  .next (match (s.field f.val).cellWakes.find? (fun a => a.who == byOf w) with
    | none => s
    | some a =>
      let s1 := s.setField f.val { s.field f.val with cellWakes := (s.field f.val).cellWakes.erase a }
      match w with
      | .seq => match (s1.seq f.val).wait with
        | .cell c =>
          if c ≠ a.cell then s1
          else if a.poison then s1.seqFault f.val (syncPoison (s1.cellRel f.val a.cell)) else s1.seqResume f.val
        | _ => s1
      | .tile t =>
        let c := s.tile f.val t.val
        if c.frozen || c.debugHalted then s
        else match c.wait with
          | .cell i =>
            if i ≠ a.cell then s1
            else
            let s2 := s1.setTile f.val t.val { (c.tsPut 20 1 0) with wait := .none }
            if a.poison then (s2.tileFault (.tile f t) (syncPoison (s1.cellRel f.val a.cell))).wake f.val
            else (Ev.complete (.tile f t) { s := s2 } 4).wake f.val
          | _ => s1)

/-! ### Barriers (R195 to R199, Table 9.2) -/

/-- Tiles of a field listed in the state. -/
def State.tilesOf (s : State) (f : Nat) : List (TileNo) :=
  s.tiles.filterMap fun x => if h : x.1 % 4900 < 4900 then (if x.1 / 4900 = f then some ⟨x.1 % 4900, h⟩ else none) else none

/-- Every participant waiting at a barrier of a field faults with POISON: `pick` says at which group it waits. -/
def State.poisonWaiters (s : State) (f : FieldNo) (pick : TWait → Option Nat) (pickS : SWait → Option Nat) : State :=
  let s1 := (s.tilesOf f.val).foldl (fun s t =>
    match pick (s.tile f.val t.val).wait with
    | some g => s.tileFault (.tile f t) (syncPoison g)
    | none => s) s
  match pickS (s1.seq f.val).wait with
  | some g => s1.seqFault f.val (syncPoison g)
  | none => s1

/-- The field group, or the wafer group, that a tile or the sequencer waits at. -/
def TWait.fieldGroup : TWait → Option Nat
  | .barF g _ => some g
  | _ => Option.none
def TWait.waferGroup : TWait → Option Nat
  | .barW g _ => some g
  | _ => Option.none
def SWait.fieldGroup : SWait → Option Nat
  | .barF g _ => some g
  | _ => Option.none
def SWait.waferGroup : SWait → Option Nat
  | .barW g _ => some g
  | _ => Option.none

/-- The arrivals of a field group reach its root. -/
def State.fieldRoot (s : State) (f : FieldNo) (g : Nat) : State :=
  let b := s.bar f.val g
  if b.arrivals = 0 then s
  else if b.parity then
    let s1 := s.setBar f.val g { b with arrivals := 0, parity := false }
    let bars := (s1.field f.val).bars.map fun x => (x.1, { x.2 with cnt := 0 })
    let s2 := s1.setField f.val { s1.field f.val with bars := bars.filter fun x => x.2 != ⟨0, 0, false, 0, false⟩ }
    let s3 := (s2.countF F.fldSyncErr_TREE_PAR 1 f.val).poisonFree f.val
    s3.poisonWaiters f TWait.fieldGroup SWait.fieldGroup
  else
    let n := b.cnt + b.arrivals
    let s1 :=
      if b.expect ≤ n then s.setBar f.val g { b with cnt := 0, arrivals := 0, sense := !b.sense }
      else s.setBar f.val g { b with cnt := n, arrivals := 0 }
    let s2 := if b.expect < n then (s1.setF F.fldSyncErr_OVERRUN 1 f.val).setF F.fldSyncErr_OVR_GROUP g f.val else s1
    if b.expect ≤ n then s2.progress f.val else s2

/-- The arrivals of a wafer group reach its root. -/
def State.waferRoot (s : State) (g : Nat) : State :=
  let k := s.wbarArrivals g
  let clr (s : State) : State := { s with hub := { s.hub with wbarArr := Tab.set (fun _ => 0) s.hub.wbarArr g 0 } }
  if k = 0 then s
  else if s.hub.wbarInj then
    let s1 := clr { s with hub := { s.hub with wbarInj := false } }
    let s2 := (upTo 64).foldl (fun s h => s.setF F.hubWbar_CNT 0 h) s1
    let s3 := (s2.countF F.hubWbarErr_TREE_PAR 1).poisonFree 92
    (List.finRange 92).foldl (fun s f => s.poisonWaiters f TWait.waferGroup SWait.waferGroup) s3
  else
    let e := s.getF F.hubWbar_EXPECT g
    let n := s.getF F.hubWbar_CNT g + k
    let rel (s : State) : State := { s with hub := { s.hub with wbarRel := s.hub.wbarRel.filter (fun h => h != g) ++ [g] } }
    let s1 := if e ≤ n then rel ((clr s).setF F.hubWbar_CNT 0 g |>.setF F.hubWbar_SENSE (1 - s.getF F.hubWbar_SENSE g) g)
      else (clr s).setF F.hubWbar_CNT n g
    let s2 := if e < n then (s1.setF F.hubWbarErr_OVERRUN 1).setF F.hubWbarErr_OVR_GROUP g else s1
    if e ≤ n then s2.progressTenant (s2.getF F.hubWbar_OWNER g) else s2

/-- BARRIER_ARRIVAL: the arrivals combined at a root count; at EXPECT or beyond the phase is released. -/
def execBarrierArrival (g : BarGroup) (s : State) : Out :=
  .next (match g with
    | .field f g => s.fieldRoot f g.val
    | .wafer g => s.waferRoot g.val)

/-- Complete a tile's barrier wait when the sense it observes differs from the one it recorded (R196). -/
def State.releaseTile (s : State) (f : FieldNo) (t : TileNo) : State :=
  let c := s.tile f.val t.val
  if c.frozen || c.debugHalted then s
  else (Ev.complete (.tile f t) { s := s.setTile f.val t.val { (c.tsPut 20 1 0) with wait := .none } } 2).wake f.val

/-- The release of one group reaches the waiters of a field. -/
def State.releaseIn (s : State) (f : FieldNo) (g : Nat) (wafer sense : Bool) : State :=
  let s1 := (s.tilesOf f.val).foldl (fun s t =>
    match (s.tile f.val t.val).wait, wafer with
    | .barF h b, false => if h = g ∧ b ≠ sense then s.releaseTile f t else s
    | .barW h b, true => if h = g ∧ b ≠ sense then s.releaseTile f t else s
    | _, _ => s) s
  match (s1.seq f.val).wait, wafer with
  | .barF h b, false => if h = g ∧ b ≠ sense then s1.seqResume f.val else s1
  | .barW h b, true => if h = g ∧ b ≠ sense then s1.seqResume f.val else s1
  | _, _ => s1

/-- The release of a wafer group reaches the fields of its tenant: a first wake of each (R202, assumption 134). -/
def State.wbarReach (s : State) (g : Nat) : State :=
  if !s.hub.wbarRel.contains g then s
  else (s.maskFields (s.getF F.hubWbar_OWNER g)).foldl State.wake
    { s with hub := { s.hub with wbarRel := s.hub.wbarRel.filter fun h => h != g } }

/-- BARRIER_RELEASE: the broadcast sense reaches the waiters of a group. -/
def execBarrierRelease (g : BarGroup) (s : State) : Out :=
  .next (match g with
    | .field f g => s.releaseIn f g.val false (s.bar f.val g.val).sense
    | .wafer g => (List.finRange 92).foldl (fun s f => s.releaseIn f g.val true (s.flag F.hubWbar_SENSE g.val)) (s.wbarReach g.val))

/-! ### The deadlock detector (R203 to R207) -/

/-- A tile is issuing instructions. -/
def Tile.executing (c : Tile) : Bool :=
  c.fired && !c.fault && !c.waiting && !c.qstall && !c.frozen && !c.debugHalted

/-- The dense block waits on feed entries, or on drain room. -/
def Dense.feedWait (d : Dense) : Bool :=
  match d.running with
  | some p => (upTo p.inLanes).any fun e => (lane d.feed e).isEmpty
  | none => false
def Dense.drainWait (d : Dense) : Bool :=
  match d.conv with
  | c :: _ => decide (c.next < c.pass.vecs)
      && (upTo c.pass.outLanes).any fun e => decide ((lane d.drain e).length + (lane d.drainIn e).length ≥ 16)
  | [] => false
/-- The first queued pass waits under FENCE or on its bank, or on its plane. -/
def Dense.fenceWait (d : Dense) : Bool :=
  match d.queue with
  | p :: _ => d.running.isNone && p.loaded && ((p.fence && !d.conv.isEmpty) || d.conv.any fun c => c.pass.bank == p.bank)
  | [] => false
def Dense.loadWait (d : Dense) : Bool :=
  match d.queue with
  | p :: _ => d.running.isNone && !p.loaded
  | [] => false

/-- SEQ_WAIT of `FLD_DL_SNAP`; none when the sequencer is executing. -/
def SWait.code : SWait → Option Nat
  | .ev => some 0
  | .cell _ => some 1
  | .barF _ _ => some 2
  | .barW _ _ => some 3
  | .dwait => some 4
  | _ => Option.none

/-- Accesses of a field's tiles and sequencer that are outstanding (Table 9.1). -/
def State.fieldBusy (s : State) (f : Nat) : Bool :=
  s.mesh.outst.any (fun a => match a.agent with
    | .tile g _ => g == f
    | .seq g => g == f
    | _ => false)
    || !(s.seq f).gst.isEmpty || !(s.dense f).wload.isEmpty

/-- Condition C (Table 9.1). -/
def State.condC (s : State) (f : Nat) : Bool :=
  match (s.field f).resident with
  | none => false
  | some t =>
    let q := s.seq f
    let d := s.dense f
    let ts := s.tilesOf f
    let seqWaits := match q.wait.code with
      | some 0 => false
      | some _ => true
      | none => false
    !(s.inField t f).isEmpty && ts.all (fun k => !(s.tile f k.val).executing)
      && (ts.any (fun k => (s.tile f k.val).waiting || (s.tile f k.val).qstall) || seqWaits || d.feedWait || d.drainWait)
      && !s.fieldBusy f && (seqWaits || (q.wait == .ev && q.events.isEmpty))

/-- The detector's counter, in field cycles. -/
def State.dlCount (s : State) (f : Nat) : Nat :=
  let x := s.field f
  if s.condC f then (x.dlCyc + (s.now - x.dlSince) * opMhz (s.getF F.pwrFldStat_OP f)) / 1000 % 2 ^ 32 else 0

/-- A field's clock changes: the cycles that it and its detector have counted so far were of the old one. -/
def State.setOp (s : State) (f op : Nat) : State :=
  let x := s.field f
  (s.setField f { x with
    dlCyc := x.dlCyc + (s.now - x.dlSince) * opMhz (s.getF F.pwrFldStat_OP f), dlSince := s.now,
    cyc := s.fieldCyc f, cycAt := s.now }).setF F.pwrFldStat_OP op f

/-- The window in force (Table 9.5). -/
def State.dlWindow (s : State) (f : Nat) : Nat :=
  let w := s.getF F.fldDlWindow_CYCLES f
  if w = 0 then 0 else if w < 2 ^ 16 then 2 ^ 16 else w

/-- STATE and TARGET of a tile in the snapshot (Table 9.6). -/
def State.snapState (s : State) (f : Nat) (c : Tile) : Option (Nat × Nat) :=
  match c.wait with
  | .cell i => some (0, s.cellRel f i)
  | .sig n _ => some (1, n)
  | .barF g _ => some (2, g)
  | .barW g _ => some (3, g)
  | _ =>
    if c.fault || c.debugHalted then some (6, 0)
    else if c.qstall then some (4, c.stallAt)
    else if c.idle && c.armed != 0 then some (5, 0) else none

/-- An entry of the snapshot list. -/
def snapEntry (t : TileNo) (c : Tile) (x : Nat × Nat) : Nat :=
  t.val + x.1 * 2 ^ 13 + c.pc.toNat * 2 ^ 16 + (x.2 % 4096) * 2 ^ 32 + c.slot * 2 ^ 44

/-- Record the snapshot (R205 1, R210). -/
def State.snapshot (s : State) (f tn : Nat) : State :=
  let ts := (s.tilesOf f).filterMap fun t => (s.snapState f (s.tile f t.val)).map fun x => (x.1, snapEntry t (s.tile f t.val) x)
  let rows := ((ts.filter fun x => decide (x.1 ≤ 4)) ++ (ts.filter fun x => decide (4 < x.1))).map (·.2)
  let d := s.dense f
  let num (g : Tile → Bool) : Nat := ((s.tilesOf f).filter fun t => g (s.tile f t.val)).length
  let v := tn + num (fun c => c.waiting) * 2 ^ 4 + num (fun c => c.qstall && !c.waiting) * 2 ^ 17
    + num (fun c => c.idle && c.armed != 0) * 2 ^ 30 + (((s.seq f).wait.code).getD 0) * 2 ^ 43
    + (if d.feedWait then 1 else if d.drainWait then 2 else if d.fenceWait || d.loadWait then 3 else 0) * 2 ^ 46
  let s1 := (s.setReg .fldDlSnap f 0 0 v).setReg .fldDlSnapTime f 0 0 s.now
  (upTo 16).foldl (fun s i => s.setReg .fldDlSnapTile f i 0 (rows[i]?.getD (7 * 2 ^ 13))) s1

/-- The detector fires (R205). -/
def State.dlFires (s : State) (f : FieldNo) (tn : Nat) (inj : Bool) : State :=
  let s1 := s.snapshot f.val tn
  let s2 := (((s1.setF F.fldDlStat_FIRED 1 f.val).setF F.fldDlStat_FROZEN 1 f.val).setF F.fldDlStat_TENANT tn f.val).countF
    F.fldDlStat_FIRES 1 f.val
  let y := s2.field f.val
  let s3 := (s2.setField f.val { y with freezing := true }).freezeAll f
  let x := s3.field f.val
  let s4 := s3.setField f.val { x with dlForce := false, dense := { x.dense with frozen := true } }
  let s5 := s4.seqEvent f.val { kind := 9, tenant := tn }
  s5.rasEvent { kind := 9, tenant := tn, injected := inj, lfield := f.val, pfield := s5.pfield f.val, arg := s.now }

/-- DEADLOCK_DETECTOR_FIRE: the detector fires when its counter has reached the window, or at an injected firing. -/
def execDeadlockDetectorFire (f : FieldNo) (s : State) : Out :=
  .next (match (s.field f.val).resident with
    | none => s
    | some t =>
      if s.flag F.fldDlStat_FROZEN f.val then s
      else if (s.field f.val).dlForce then s.dlFires f t true
      else if s.condC f.val && s.dlWindow f.val != 0 && decide (s.dlWindow f.val ≤ s.dlCount f.val) then s.dlFires f t false
      else s)

/-- The context of a field resumes (R206): the counter restarts. A switch or a quiesce under way keeps the tiles. -/
def State.dlResume (s : State) (f : Nat) : State :=
  let s1 := s.setF F.fldDlStat_FROZEN 0 f
  let x := s1.field f
  let keep := x.switching.isSome || x.quiesce.isSome
  let s2 := s1.setField f { x with
    freezing := keep, dlSince := s.now, dlCyc := 0, dlReset := false, dense := { x.dense with frozen := false } }
  if keep then s2 else s2.thawTiles f

/-- A RESET goes on once no GSTAGE of its tenant is outstanding in the field (R113): TRST, which takes its time, then the context
resumes. Tiles that a switch or a quiesce holds stay frozen. -/
def State.resetDue (s : State) (f : Nat) : State :=
  let t := s.getF F.fldDlStat_TENANT f
  let x := s.field f
  if !x.dlReset || (s.seq f).gst.any (fun g => g.tenant == t) then s
  else
    let s1 := (s.trst f t).markTrst f t (some (s.now + 60000))
    let s2 := if x.switching.isSome || x.quiesce.isSome then
        (upTo 4900).foldl (fun a k => a.setTile f k { a.tile f k with frozen := true }) s1
      else s1
    s2.dlResume f

/-- A write to `FLD_DL_CTRL`.ACTION (R206); while a RESET waits a further decision is refused (assumption 134). -/
def State.dlAction (s : State) (f act : Nat) : State :=
  if act = 0 then s
  else if act = 3 ∨ !s.flag F.fldDlStat_FROZEN f ∨ (s.field f).dlReset then s.setF F.fldDlStat_REFUSED 1 f
  else if act = 1 then s.dlResume f
  else
    let t := s.getF F.fldDlStat_TENANT f
    let s1 := s.endTenantIn t f 0x3F
    ((s1.setField f { s1.field f with dlReset := true }).markTrst f t none).resetDue f

/-- A write to `FLD_SYNC_INJECT` (Table 9.2). -/
def State.syncInject (s : State) (f v : Nat) : State :=
  let x := s.field f
  let can := x.resident.isSome && !s.flag F.fldDlStat_FROZEN f
  s.setField f { x with
    dlForce := x.dlForce || (bitsOf v 0 1 == 1 && can)
    cellInj := if bitsOf v 2 1 = 1 then 2 else if bitsOf v 1 1 = 1 then 1 else x.cellInj
    treeInj := x.treeInj || bitsOf v 3 1 == 1 }

end Sys2Proof.Machine
end

