-- ==== Sys2Proof/Machine/Power.lean ====
section
/-! DEFINITION. Operating points, credit, lending and borrowing, ceilings and clamps (R201, R202, R303 to R315). -/

namespace Sys2Proof.Machine

open Sys2Proof

/-! ### Points and credit (R303 to R309) -/

/-- Full-activity power of an operating point in quarter watts, and its rail voltage in 5 mV units (Table 14.2). -/
def opQ (k : Nat) : Nat := 4 * (([145, 131, 117, 105, 88, 72, 55, 42])[k]?.getD 42)
def opRail (k : Nat) : Nat := ([170, 164, 158, 152, 144, 136, 126, 120])[k]?.getD 120

/-- What the manager keeps of a logical field. -/
def State.pfld (s : State) (f : Nat) : PFld := Tab.get (fun _ => {}) s.pwr.fld f

/-- Replace it. -/
def State.setPfld (s : State) (f : Nat) (x : PFld) : State :=
  { s with pwr := { s.pwr with fld := Tab.set (fun _ => {}) s.pwr.fld f x } }

/-- A byte of the OTP array. -/
def State.otpByte (s : State) (a : Nat) : Nat := (Tab.get zeroByte s.sec.otp a).toNat

/-- The majority, bit by bit, of three values. -/
def major3 (a b c : Nat) : Nat := (a &&& b) ||| (a &&& c) ||| (b &&& c)

/-- FUSE_OP of a physical field: three copies in FIELD_MAP (Table 15.3, R304). -/
def State.fuseOp (s : State) (pf : Nat) : Nat :=
  bitsOf (major3 (s.otpByte (0x64 + pf / 4)) (s.otpByte (0x7C + pf / 4)) (s.otpByte (0x94 + pf / 4))) (pf % 4 * 2) 2

/-- The unit envelope in force, in W (Table 14.7). -/
def State.envelope (s : State) : Nat :=
  let w := s.getF F.pwrEnvelope_WATTS
  if w < 6000 then 6000 else if 11500 < w then 11500 else w

/-- Base credit in quarter watts (R306). -/
def State.baseQ (s : State) : Nat := (s.envelope - 1840) * 4 / 92

/-- A field's credit (R306). -/
def State.credit (s : State) (f : Nat) : Nat := s.baseQ - (s.pfld f).lent + (s.pfld f).borrowed

/-- CEIL of a field (R307, Table 14.3). -/
def State.ceil (s : State) (f : Nat) : Nat :=
  let x := s.pfld f
  let hot := if s.pwr.hbmHot.contains (s.homeStack (s.pfield f)) then 5 else 0
  max (max (s.fuseOp (s.pfield f)) x.therm) (max (max x.cur x.env) hot)

/-- The fastest point at or after `lo` whose power a credit covers; the slowest when none is. -/
def fastest (lo credit : Nat) : Nat := ((upTo 8).find? fun k => decide (lo ≤ k) && decide (opQ k ≤ credit)).getD 7

/-- The fastest point that BOOST permits. -/
def State.boostLo (s : State) : Nat := if s.flag F.pwrCfg_BOOST then 0 else 3

/-- PIN_OP as it acts (R307). -/
def State.pinOp (s : State) (f : Nat) : Nat := max (s.getF F.pwrFldReq_PIN_OP f) s.boostLo

/-- The point that R307 gives a field under ceiling `c` and credit `q`; a pinned field uses no more than its base credit, and while
its recall runs no more than it has kept (R311, R312). -/
def State.pointUnder (s : State) (f c q : Nat) : Nat :=
  if s.flag F.pwrFldReq_PIN f then
    let p := s.pinOp f
    let b := min q s.baseQ
    if p < c ∨ b < opQ p then fastest (max p c) b else p
  else fastest (max (max c (s.getF F.pwrFldReq_CAP_OP f)) s.boostLo) q

/-- The point a field is to run at (R307). -/
def State.targetOp (s : State) (f : Nat) : Nat := s.pointUnder f (s.ceil f) (s.credit f)

/-- The point whose credit a lending field keeps (R309). -/
def State.keptOp (s : State) (f : Nat) : Nat := min (s.getF F.pwrCfg_KEEP_OP) (s.getF F.pwrFldReq_FLOOR_OP f)

/-- The point that a lending field holds: the kept one, or a slower one that its ceiling forces. -/
def State.heldOp (s : State) (f : Nat) : Nat := max (s.keptOp f) (s.ceil f)

/-- The online logical fields. -/
def State.onlineFields (s : State) : List Nat := (upTo 92).filter fun f => !s.offline f

/-! ### Quiet fields (R202) -/

/-- A field is quiet. -/
def State.quiet (s : State) (f : Nat) : Bool :=
  let d := s.dense f
  (s.tilesOf f).all (fun t => s.gated f t.val) && (d.idle || d.feedWait || d.drainWait) && (s.seq f).gst.isEmpty
    && d.wload.isEmpty

/-- The recall term of a projection (R27): Fk is the clock on the kept credit alone. -/
def State.recallTerm (s : State) (f : Nat) : Nat :=
  let x := s.pfld f
  let r := match x.recallAt with
    | some a => 2000 - (s.now - a)
    | none => if s.flag F.pwrFldStat_LENDING f then 2000 else 0
  let fk := opMhz (s.pointUnder f (s.ceil f) (s.baseQ - x.lent))
  let ff := opMhz (s.pointUnder f (s.ceil f) s.baseQ)
  if ff ≤ fk then 0 else (r * (ff - fk) + ff - 1) / ff

/-! ### Clamps (R314) -/

/-- The credit that a clamp is judged by: a field that lends, or whose recall runs, has at least that of its kept point, however
far below it a ceiling holds it. -/
def State.clampQ (s : State) (f : Nat) : Nat :=
  if s.flag F.pwrFldStat_LENDING f || (s.pfld f).recallAt.isSome then max (s.credit f) (min s.baseQ (opQ (s.keptOp f))) else s.credit f

/-- The causes in force: THERMAL, CURRENT, FUSE, ENVELOPE, CREDIT, in bit order; 0 when the field is not clamped. `returned` is
borrowed credit that the field has returned in this re-evaluation, which it had when the limit came. -/
def State.clampNow (s : State) (f returned : Nat) : Nat :=
  let x := s.pfld f
  let fuse := s.fuseOp (s.pfield f)
  let t := s.targetOp f
  let q := s.clampQ f + returned
  let p0 := s.pointUnder f fuse q
  let w := if s.flag F.pwrFldReq_PIN f then min p0 (s.pinOp f)
    else min p0 (max (s.getF F.pwrFldReq_FLOOR_OP f) (s.getF F.pwrFldReq_CAP_OP f))
  let hot := if s.pwr.hbmHot.contains (s.homeStack (s.pfield f)) then 5 else 0
  if t ≤ w then 0
  else bit (decide (w < max x.therm hot)) + 2 * bit (decide (w < x.cur)) + 4 * bit (decide (w < fuse))
    + 8 * bit (decide (w < x.env)) + 16 * bit (decide (q < opQ w))

/-- CLAMP with the causes at the start; an injected one while injection 0x20 holds the field's sensors. -/
def State.clampEvent (s : State) (f n : Nat) : State :=
  (s.setPfld f { s.pfld f with clampAt := some s.now }).rasEvent
    { kind := 0x0F, injected := n % 2 == 1 && decide (s.now < (s.pfld f).injUntil), lfield := f, pfield := s.pfield f, arg := n }

/-- Record the clamps of a field; the start of one raises CLAMP unless one was raised in the last second. -/
def State.clampUpdate (s : State) (f returned : Nat) : State :=
  let n := s.clampNow f returned
  let old := s.getF F.pwrClampStatus_NOW f
  let s1 := (s.setF F.pwrClampStatus_NOW n f).setF F.pwrClampStatus_STICKY (s.getF F.pwrClampStatus_STICKY f ||| n) f
  if old ≠ 0 ∨ n = 0 then s1
  else
    let s2 := s1.countF F.pwrClampStatus_ONSETS 1 f
    match (s2.pfld f).clampAt with
    | some a =>
      if s2.now < a + 1000000000 then s2.countF F.pwrClampStatus_SUPPRESSED 1 f
      else s2.clampEvent f n
    | none => s2.clampEvent f n

/-! ### Re-evaluation, lending and borrowing (R307 to R312) -/

/-- The totals of `PWR_STAT`. -/
def State.pwrTotals (s : State) : State :=
  let fs := s.onlineFields
  let lent := fs.foldl (fun a f => a + (s.pfld f).lent) 0
  (((s.setF F.pwrStat_LENDING (fs.filter fun f => s.flag F.pwrFldStat_LENDING f).length).setF F.pwrStat_BORROWING
    (fs.filter fun f => decide (0 < (s.pfld f).borrowed)).length).setF F.pwrStat_LENT_Q (min lent 0xFFFF)).setF
    F.pwrStat_FREE_Q (min s.pwr.free 0xFFFF)

/-- The reports of one field: CEIL, QUIET, BORROWING, CREDIT_Q, CONFLICT and its clamps. -/
def State.fieldReport (s : State) (f returned : Nat) : State :=
  let pin := s.flag F.pwrFldReq_PIN f
  let conflict := if pin then decide (s.getF F.pwrFldReq_PIN_OP f < s.boostLo)
    else decide (s.getF F.pwrFldReq_FLOOR_OP f < s.getF F.pwrFldReq_CAP_OP f)
  let s1 := (((s.setF F.pwrFldStat_CEIL (s.ceil f) f).setF F.pwrFldStat_QUIET (bit (s.quiet f)) f).setF F.pwrFldStat_BORROWING
    (bit (decide (0 < (s.pfld f).borrowed))) f).setF F.pwrFldStat_CREDIT_Q (s.credit f) f
  (if conflict then s1.setF F.pwrFldStat_CONFLICT 1 f else s1).clampUpdate f returned

/-- The next step of credit a field could take: its cost; none when it is not eligible (R310). A field whose recall runs stays at its
kept point (R311). -/
def State.stepCost (s : State) (f : Nat) : Option Nat :=
  let k := s.targetOp f
  if k = 0 || s.quiet f || s.flag F.pwrFldReq_PIN f || s.flag F.pwrFldStat_LENDING f || (s.pfld f).recallAt.isSome then none
  else if k - 1 < max (s.ceil f) (s.getF F.pwrFldReq_CAP_OP f) then none
  else
    let c := opQ (k - 1) - opQ k
    if c ≤ s.pwr.free ∧ opQ (k - 1) ≤ s.credit f + c then some c else none

/-- The order of preference of R310: below its floor first, then the slowest, then the lowest number. -/
def State.prefers (s : State) (a b : Nat) : Bool :=
  let low (f : Nat) : Bool := decide (s.getF F.pwrFldReq_FLOOR_OP f < s.targetOp f)
  if low a != low b then low a
  else if s.targetOp a ≠ s.targetOp b then decide (s.targetOp b < s.targetOp a) else decide (a < b)

/-- Assign free credit in steps (R310). -/
def State.assign : Nat → State → State
  | 0, s => s
  | n + 1, s =>
    let c := (s.onlineFields.filter fun f => (s.stepCost f).isSome).foldl (fun (b : Option Nat) f =>
      match b with
      | none => some f
      | some g => if s.prefers f g then some f else some g) none
    match c with
    | none => s
    | some f =>
      let k := (s.stepCost f).getD 0
      let s1 := s.setPfld f { s.pfld f with borrowed := (s.pfld f).borrowed + k }
      State.assign n { s1 with pwr := { s1.pwr with free := s1.pwr.free - k } }

/-- Lower the borrower with the most borrowed credit one point at a time until `need` is covered (R311): what was freed. -/
def State.lowerBorrowers : Nat → Nat → State → Nat × State
  | 0, _, s => (0, s)
  | n + 1, need, s =>
    if need = 0 then (0, s)
    else
      let c := s.onlineFields.foldl (fun (b : Nat) f => if (s.pfld b).borrowed < (s.pfld f).borrowed then f else b)
        (s.onlineFields.headD 0)
      let x := s.pfld c
      if x.borrowed = 0 then (0, s)
      else
        let k := s.targetOp c
        let g := max 1 (min x.borrowed (opQ k - opQ (k + 1)))
        let r := State.lowerBorrowers n (need - g) (s.setPfld c { x with borrowed := x.borrowed - g })
        (g + r.1, r.2)

/-- Take `n` of credit: free credit first, then borrowers; what is freed beyond the need stays free (R311). -/
def State.takeCredit (s : State) (n : Nat) : State :=
  let need := n - min n s.pwr.free
  let r := State.lowerBorrowers 4000 need { s with pwr := { s.pwr with free := s.pwr.free - min n s.pwr.free } }
  { r.2 with pwr := { r.2.pwr with free := r.2.pwr.free + (r.1 - need) } }

/-- A lending field lends its base credit beyond the point it holds, which a ceiling may make slower than the kept one (R309 and
its corner). -/
def State.relend (s : State) (f : Nat) : State :=
  if !s.flag F.pwrFldStat_LENDING f then s
  else
    let x := s.pfld f
    let want := s.baseQ - opQ (s.heldOp f)
    if x.lent ≤ want then
      { s.setPfld f { x with lent := want } with pwr := { (s.setPfld f { x with lent := want }).pwr with free := s.pwr.free + (want - x.lent) } }
    else
      let s1 := s.takeCredit (x.lent - want)
      s1.setPfld f { s1.pfld f with lent := want }

/-- The borrowed credit that a field's point needs: the steps from the point of its base credit to the one it is to run at. -/
def State.needQ (s : State) (f : Nat) : Nat := opQ (s.targetOp f) - opQ (fastest 0 s.baseQ)

/-- A field that drops to a slower point returns the credit of the steps it no longer runs at (R310's case and its corners). -/
def State.returnExcess (s : State) (f : Nat) : State :=
  let x := s.pfld f
  if x.borrowed ≤ s.needQ f then s
  else
    let s1 := s.setPfld f { x with borrowed := s.needQ f }
    { s1 with pwr := { s1.pwr with free := s1.pwr.free + (x.borrowed - s.needQ f) } }

/-- The manager re-evaluates every field; it assigns no credit while the input exceeds the envelope (assumption 27). -/
def State.reevaluate (s : State) : State :=
  if !s.released then s
  else
    let r := s.onlineFields.foldl (fun s f => s.returnExcess f) s
    let s0 := r.onlineFields.foldl (fun s f => s.relend f) r
    let s1 := if s0.flag F.pwrCfg_BOOST && !s0.pwr.excess then s0.assign 736 else s0
    (s1.onlineFields.foldl (fun s1 f => s1.fieldReport f ((s.pfld f).borrowed - (r.pfld f).borrowed)) s1).pwrTotals

/-- Recall what a field lent (R311): free credit first, then borrowers; what is freed beyond the need stays free. -/
def State.recallNow (s : State) (f : Nat) : State :=
  if !s.flag F.pwrFldStat_LENDING f then s
  else
    let s2 := s.takeCredit (s.pfld f).lent
    let s3 := (s2.setPfld f { s2.pfld f with recallAt := some s.now }).setF F.pwrFldStat_LENDING 0 f
    (s3.setField f { s3.field f with woken := false, quietSince := s.now }).reevaluate

/-- Borrowed credit of a field returns to the free credit. -/
def State.returnBorrowed (s : State) (f : Nat) : State :=
  let x := s.pfld f
  let s1 := s.setPfld f { x with borrowed := 0 }
  { s1 with pwr := { s1.pwr with free := s1.pwr.free + x.borrowed } }

/-- LEND: a field that has been quiet for the threshold lends its credit beyond its kept point. -/
def execLend (f : FieldNo) (s : State) : Out :=
  .next (
    let us := s.getF F.pwrLendThreshold_US
    let kept := opQ (s.heldOp f.val)
    if !s.released || s.offline f.val || us == 0 || !s.quiet f.val || decide (s.now < (s.field f.val).quietSince + us * 1000)
        || s.flag F.pwrFldReq_PIN f.val || s.flag F.pwrFldStat_LENDING f.val || (s.pfld f.val).recallAt.isSome then s
    else
      let s1 := s.returnBorrowed f.val
      if s1.baseQ ≤ kept then s1.reevaluate
      else
        let s2 := s1.setPfld f.val { s1.pfld f.val with lent := s1.baseQ - kept }
        let s3 := { s2 with pwr := { s2.pwr with free := s2.pwr.free + (s2.baseQ - kept) } }
        let s4 := (s3.setF F.pwrFldStat_LENDING 1 f.val).count48 .pwrCntLend 1 0 0
        (s4.setField f.val { s4.field f.val with woken := false }).reevaluate)

/-- RECALL: a lending field's first wake, or its pinning, recalls its credit. -/
def execRecall (f : FieldNo) (s : State) : Out :=
  .next (if (s.field f.val).woken then s.recallNow f.val else s)

/-- RECALL_COMPLETE: at most 2 µs after the wake the full credit has returned. -/
def execRecallComplete (f : FieldNo) (s : State) : Out :=
  .next (match (s.pfld f.val).recallAt with
    | none => s
    | some _ => (s.setPfld f.val { s.pfld f.val with recallAt := none, lent := 0 }).reevaluate)

/-- A write of 0 to `PWR_LEND_THRESHOLD`, or pinning, recalls (R202, R312). -/
def State.recallAll (s : State) : State := s.onlineFields.foldl (fun s f => s.recallNow f) s

/-- What a write to `PWR_FLD_REQ[n]` starts (R312). -/
def State.reqWritten (s : State) (f : Nat) : State :=
  let s1 := if s.flag F.pwrFldReq_PIN f then (s.recallNow f).returnBorrowed f else s
  s1.reevaluate

/-- OP_REEVALUATION. -/
def execOpReevaluation (s : State) : Out := .next s.reevaluate

/-- OP_TRANSITION: a field goes on toward the point it is to run at (R305): to a faster one its rail rises first, at 100 mV/µs, and
the clock follows once it stands; to a slower one the clock falls first, and the rail follows. -/
def execOpTransition (f : FieldNo) (s : State) : Out :=
  .next (if !s.released || s.offline f.val then s
    else
      let k := s.targetOp f.val
      let op := s.getF F.pwrFldStat_OP f.val
      let rail := s.getF F.pwrFldStat_RAIL f.val
      let x := s.pfld f.val
      if op < k then s.setOp f.val k
      else if rail < opRail k then
        (s.setPfld f.val { x with railAt := s.now + (opRail k - rail) * 50 }).setF F.pwrFldStat_RAIL (opRail k) f.val
      else if k < op then (if x.railAt ≤ s.now then s.setOp f.val k else s)
      else s.setF F.pwrFldStat_RAIL (opRail k) f.val)

/-! ### Ceilings (R313, Table 14.3) -/

/-- JUNCTION_SENSE: the four sensors are read and the hottest counts; crossing 100 °C moves the thermal ceiling at once. -/
def execJunctionSense (f : FieldNo) (s0 s1 s2 s3 : Byte) (s : State) : Out :=
  .next (
    let x := s.pfld f.val
    let t0 := max (max s0.toNat s1.toNat) (max s2.toNat s3.toNat)
    let t := if s.now < x.injUntil then 100 else t0
    let was := s.getF F.pwrFldStat_TEMP f.val
    let s5 := s.setF F.pwrFldStat_TEMP t f.val
    if t ≥ 110 then (s5.setPfld f.val { x with therm := 7, thermAt := s.now }).reevaluate
    else if t ≥ 100 ∧ was < 100 then
      (s5.setPfld f.val { x with therm := min 7 (max x.therm (s.fuseOp (s.pfield f.val)) + 1), thermAt := s.now }).reevaluate
    else if t ≤ 95 ∧ 95 < was then s5.setPfld f.val { x with thermAt := s.now }
    else s5)

/-- THERMAL_CEILING_STEP: one point slower every 1 ms while hot, one faster every 10 ms while cool. -/
def execThermalCeilingStep (f : FieldNo) (s : State) : Out :=
  .next (
    let x := s.pfld f.val
    let t := s.getF F.pwrFldStat_TEMP f.val
    let fuse := s.fuseOp (s.pfield f.val)
    if t ≥ 100 ∧ x.thermAt + 1000000 ≤ s.now then
      (s.setPfld f.val { x with therm := min 7 (max x.therm fuse + 1), thermAt := s.now }).reevaluate
    else if t ≤ 95 ∧ fuse < x.therm ∧ x.thermAt + 10000000 ≤ s.now then
      (s.setPfld f.val { x with therm := x.therm - 1, thermAt := s.now }).reevaluate
    else s)

/-- HBM_THERMAL_CEILING: a stack's temperature; from 95 °C until below 90 °C its home fields hold at OP5 or slower. -/
def execHbmThermalCeiling (m : Stack) (temp : Byte) (s : State) : Out :=
  .next (
    let t := temp.toNat
    let was := s.pwr.hbmHot.contains m.val
    let hot := decide (95 ≤ t) || (was && decide (90 ≤ t))
    let rest := s.pwr.hbmHot.filter fun k => k != m.val
    let s1 := s.setF F.hbmStat_TEMP t m.val
    ({ s1 with pwr := { s1.pwr with hbmHot := if hot then rest ++ [m.val] else rest } }).reevaluate)

/-- CURRENT_CEILING: the rail's average over 1 µs in A, which gives the measured power at the rail's voltage. -/
def execCurrentCeiling (f : FieldNo) (amps : Nat) (s0 : State) : Out :=
  .next (
    let s := s0.setF F.pwrFldStat_POWER_Q (min 0xFFFF (amps * s0.getF F.pwrFldStat_RAIL f.val / 50)) f.val
    let x := s.pfld f.val
    if amps > 190 then (s.setPfld f.val { x with cur := min 7 (s.ceil f.val + 1), curAt := s.now }).reevaluate
    else if 0 < x.cur ∧ x.curAt + 1000000 ≤ s.now then
      let c := x.cur - 1
      (s.setPfld f.val { x with cur := if c ≤ s.fuseOp (s.pfield f.val) then 0 else c, curAt := s.now }).reevaluate
    else s)

/-- Move the envelope ceiling of the fields that `pick` names. -/
def State.moveEnv (s : State) (pick : Nat → Bool) (h : State → Nat → Nat) : State :=
  (s.onlineFields.filter pick).foldl (fun s f => s.setPfld f { s.pfld f with env := h s f }) s

/-- ENVELOPE_CEILING: the busbar input averaged over 100 µs, in W: energy counts in mJ; over the envelope borrowed credit is
withdrawn, then ceilings step slower, unpinned fields first; 200 W under it for 1 ms they step faster, pinned fields first. -/
def execEnvelopeCeiling (watts : Nat) (s : State) : Out :=
  .next (
    let e := s.pwr.energyRem + watts
    let s1 := (s.setF F.pwrStat_INPUT_W (min watts 0xFFFF)).count48 .pwrEnergy (e / 10) 0 0
    let s2 := { s1 with pwr := { s1.pwr with energyRem := e % 10 } }
    let pin (f : Nat) : Bool := s2.flag F.pwrFldReq_PIN f
    let slower (s : State) (f : Nat) : Nat := min 7 (s.ceil f + 1)
    let faster (s : State) (f : Nat) : Nat :=
      if (s.pfld f).env ≤ s.fuseOp (s.pfield f) + 1 then 0 else (s.pfld f).env - 1
    if watts > s2.envelope then
      let s3 := { s2 with pwr := { s2.pwr with lowSince := none, envAt := s.now, excess := true } }
      if s3.onlineFields.any fun f => decide (0 < (s3.pfld f).borrowed) then
        (s3.onlineFields.foldl (fun s f => s.returnBorrowed f) s3).reevaluate
      else if s.now < s.pwr.envAt + 100000 then { s2 with pwr := { s2.pwr with lowSince := none, excess := true } }
      else if s3.onlineFields.any fun f => !pin f && decide (s3.targetOp f < 7) then
        (s3.moveEnv (fun f => !pin f) slower).reevaluate
      else (s3.moveEnv pin slower).reevaluate
    else if watts + 200 < s2.envelope then
      match s2.pwr.lowSince with
      | none => { s2 with pwr := { s2.pwr with lowSince := some s.now, excess := false } }
      | some a =>
        if s.now < a + 1000000 then s2
        else
          let s3 := { s2 with pwr := { s2.pwr with lowSince := some s.now, excess := false } }
          if s3.onlineFields.any fun f => pin f && decide (0 < (s3.pfld f).env) then (s3.moveEnv pin faster).reevaluate
          else (s3.moveEnv (fun f => !pin f) faster).reevaluate
    else { s2 with pwr := { s2.pwr with lowSince := none, excess := false } })

end Sys2Proof.Machine
end

