-- ==== Sys2Proof/Machine/SeqReq.lean ====
section
/-! DEFINITION. Sequencer instructions of the request path (R100, R111 to R114, R116 to R118, R222, R223): staging, events,
projection, admission, modes, contexts. -/

namespace Sys2Proof.Machine

open Sys2Proof

/-- Prefixes of the 0xC0 instructions: no W prefix; M mode alone. -/
def legM : Legal := { width := false, mOnly := true }

/-! ### GSTAGE (R112, R176) -/

/-- Epoch e2 − e1 modulo 2^32. -/
def epochDiff (e2 e1 : Nat) : Nat := (e2 + 2 ^ 32 - e1 % 2 ^ 32) % 2 ^ 32

/-- e1 is before e2 (R179). -/
def epochBefore (e1 e2 : Nat) : Bool := decide (1 ≤ epochDiff e2 e1) && decide (epochDiff e2 e1 < 2 ^ 31)

/-- The bank that a gather of epoch `e` reads (R176): its base register; none when no bank serves the epoch. Of two draining
banks the one whose service ended first after `e` is read. -/
def Tbl.bankFor (t : Tbl) (e : Nat) : Option Nat :=
  if !t.registered then none
  else if epochDiff e t.flipEpoch < 2 ^ 31 ∧ (t.stA = 3 ∨ t.stB = 3) then some (if t.stA = 3 then t.baseA else t.baseB)
  else
    let a := t.stA == 4 && epochBefore e t.endA
    let b := t.stB == 4 && epochBefore e t.endB
    if a && b then some (if epochDiff t.endA e ≤ epochDiff t.endB e then t.baseA else t.baseB)
    else if a then some t.baseA
    else if b then some t.baseB
    else none

/-- Row size in bytes and capacity of a table (R171). -/
def Tbl.rowSize (t : Tbl) : Nat := bitsOf t.geom 0 9 * 8
def Tbl.rows (t : Tbl) : Nat := bitsOf t.geom 32 32

/-- A GSTAGE as its row reads are issued. -/
structure GIssue where
  s : State
  rows : List GathEl
  fail : Option (Nat × Cause)
  deriving DecidableEq, Repr

/-- The tenant a GSTAGE acts for, and what it reads and writes. -/
structure GArg where
  tenant : Nat
  size : Nat
  cap : Nat
  bank : Option Nat
  dst : Nat
  deriving DecidableEq, Repr

/-- The address of byte `o` of a bank: unit (256 this one) and address (Table 8.3 LOC: 0 local HBM, 1 remote unit, 2 far tier). -/
def bankAddr (base o : Nat) : Nat × Nat :=
  let a := bitsOf base 0 44 + o
  let loc := bitsOf base 44 2
  if loc = 1 then (bitsOf base 48 8, a) else if loc = 2 then (256, 2 ^ 45 + a) else (256, a)

/-- The reads that a row takes, as offset and length: of at most 256 bytes each from the far tier (R258), else one. -/
def rowReads (base size : Nat) : List (Nat × Nat) :=
  if bitsOf base 44 2 = 2 then (upTo ((size + 255) / 256)).map fun j => (256 * j, min 256 (size - 256 * j)) else [(0, size)]

/-- Issue the row reads up to the first row that fails its checks. A bank in another unit is checked at its HBM address there
(assumption 48). -/
def gstageIssue (f id : Nat) (g : GArg) : List Nat → Nat → GIssue → GIssue
  | [], _, r => r
  | row :: more, k, r =>
    match g.bank with
    | none => { r with fail := some (k, .protection) }
    | some base =>
      let u := bankAddr base (row * g.size)
      let dst := g.dst + k * g.size
      if row ≥ g.cap then { r with fail := some (k, .protection) }
      else
        match r.s.gaCheck false g.tenant u.2 g.size 1 .read, r.s.gaCheck false g.tenant dst g.size 1 .write with
        | some c, _ => { r with fail := some (k, c) }
        | none, some c => { r with fail := some (k, c) }
        | none, none =>
          gstageIssue f id g more (k + 1) ((rowReads base g.size).foldl (fun r x =>
            let el : GathEl := { access := r.s.mesh.nextId, dst := dst + x.1, len := x.2, ga := u.2 + x.1 }
            let s1 := if u.1 = 256 then r.s.issue (.seq f) false g.tenant .read el.ga x.2 [] (.gstage id k)
              else r.s.issueTo (.seq f) false g.tenant .read u.1 el.ga x.2 [] (.gstage id k)
            { r with s := s1, rows := r.rows ++ [el] }) r)

/-- Read `n` row numbers of 32 bits at an SA. -/
def readRows (f : Nat) : Nat → Nat → SEv → SRes (List Nat)
  | 0, _, e => .ok [] e
  | n + 1, a, e => (readSA e f a 4).bind fun v e1 => (readRows f n (a + 4) e1).bind fun l e2 => .ok (v :: l) e2

/-- GSTAGE: gather B rows of table TW into tile SRAM from D on; it returns after issue, and a 17th waits. It acts for the tenant
named and the request that the field serves for it (assumption 121), never as system traffic (R129). The causes of a bad count,
of bits 63:28 of B and of a bad D are the model's (assumption 129). -/
def execSeqGstage (f : FieldNo) (i : SeqInstr) (s : State) : Out :=
  .next (seqRun f i { width := false } (bitsOf i.mode.toNat 8 8 != 0) s fun e =>
    (srcS e f.val i i.a).bind fun a e1 =>
      (srcS e1 f.val i i.b).bind fun b e2 =>
        (dstS e2 f.val i i.d).bind fun pl e3 =>
          let s3 := e3.s
          let ill : SRes Unit := .fault { cause := .illegal, addr := s3.spc f.val }
          match pl with
          | .glob ga =>
            let n := bitsOf b 0 16
            let tn := s3.seqNames f.val i
            if n = 0 ∨ n > 256 ∨ bitsOf b 28 36 ≠ 0 then ill
            else if gaSpace ga = 3 ∧ i.far = true ∧ s3.tmode f.val = true then .fault { cause := .priv, addr := s3.spc f.val }
            else if gaSpace ga ≠ 1 then .fault { cause := .globalAddr, glob := true, write := true, addr := ga }
            else if (s3.seq f.val).gst.length ≥ 16 then
              .stay (s.setSeq f.val { s.seq f.val with wait := .gstageFull })
            else if s3.holding tn then .hold
            else match s3.cellIndex f.val tn (bitsOf b 16 12) with
              | .error fl => .fault fl
              | .ok cell =>
                (readRows f.val n (a % 2 ^ 24) e3).bind fun rows e4 =>
                  let s4 := e4.s
                  let q := s4.seq f.val
                  let tb := s4.tbl tn (bitsOf i.mode.toNat 0 8)
                  let slot := s4.reqOf f.val tn
                  let ep := ((slot.bind s4.bySlot).map (·.epoch)).getD (s4.getF F.hubEpochStatus_EPOCH tn)
                  let bank := tb.bankFor ep
                  let g : GArg := { tenant := tn, size := tb.rowSize, cap := tb.rows, bank := bank, dst := ga }
                  let r := gstageIssue f.val q.gstId g rows 0 { s := s4, rows := [], fail := none }
                  let q2 := r.s.seq f.val
                  let x : Gst :=
                    { id := q.gstId, tenant := tn, slot := slot.getD 0, cell := cell, rows := r.rows, fail := r.fail,
                      parts := max 1 (rowReads (bank.getD 0) tb.rowSize).length }
                  .ok () { e4 with s := r.s.setSeq f.val { q2 with gst := q2.gst ++ [x], gstId := q.gstId + 1 } }
          | _ => ill)

/-- The first row of a GSTAGE that failed: its number; none when every issued row came back good. -/
def Gst.firstBad (g : Gst) : Option Nat :=
  match g.rows.findIdx? (fun r => r.bad.isSome) with
  | some k => some (k / g.parts)
  | none => g.fail.map (·.1)

/-- Write the rows before row `k` at their destinations, in row order. -/
def State.writeRows (s : State) (g : Gst) (k : Nat) : State :=
  (g.rows.take (k * g.parts)).foldl (fun s r => s.sramWrite r.dst r.data) s

/-- GSTAGE_DONE: every row is back: the rows are written, the cell is set and a KIND 0x05 event is delivered. -/
def execGstageDone (f : FieldNo) (s : State) : Out :=
  .next (let q := s.seq f.val
    match q.gst.find? (fun g => g.firstBad.isNone && g.rows.all GathEl.back) with
    | none => s
    | some g =>
      let s1 := (s.setSeq f.val { q with gst := q.gst.erase g }).writeRows g g.rows.length
      ((s1.sendCell f.val { by_ := .gstage, op := .set, cell := g.cell }).seqEvent f.val
        { kind := 5, tenant := g.tenant, arg := g.slot }).resetDue f.val)

/-- GSTAGE_FAULT: a row failed: the rows before it are written, the rest are not, and a KIND 0x06 event names the row. -/
def execGstageFault (f : FieldNo) (s : State) : Out :=
  .next (let q := s.seq f.val
    match q.gst.find? (fun g => match g.firstBad with
      | some k => (g.rows.take (k * g.parts)).all GathEl.back
      | none => false) with
    | none => s
    | some g =>
      let k := g.firstBad.getD 0
      let s1 := (s.setSeq f.val { q with gst := q.gst.erase g }).writeRows g k
      let left := (g.rows.drop (k * g.parts)).map (·.access)
      let s2 := { s1 with mesh := { s1.mesh with outst := s1.mesh.outst.filter fun a => !left.contains a.id } }
      (s2.seqEvent f.val { kind := 6, tenant := g.tenant, arg := k % 256 + g.slot * 256 }).resetDue f.val)

/-! ### Events, descriptors, projection, admission -/

/-- The record of an event (Table 5.7). -/
def EvRec.word (v : EvRec) : Nat := v.kind + v.tenant * 2 ^ 8 + v.tile * 2 ^ 16 + v.arg * 2 ^ 32

/-- EVWAIT: D := the next event record in arrival order, waiting when none is queued. -/
def execSeqEvwait (f : FieldNo) (i : SeqInstr) (s : State) : Out :=
  .next (seqRun f i legM false s fun e =>
    match (e.s.seq f.val).events with
    | [] => .stay (s.setSeq f.val { s.seq f.val with wait := .ev })
    | v :: r =>
      (dstS e f.val i i.d).bind fun pl e1 =>
        (writeS e1 f.val i pl v.word).bind fun _ e2 => .ok () { e2 with s := e2.s.setSeq f.val { e2.s.seq f.val with events := r } })

/-- The share of a field and the index of its first candidate (R250): contiguous shares in ascending field order, the lead
field first. -/
def Req.shareOf (r : Req) (f : Nat) : Nat × Nat :=
  let l := r.fields.zip r.shares
  ((l.find? fun x => x.1 == f).map (·.2) |>.getD 0, l.foldl (fun a x => if x.1 < f then a + x.2 else a) 0)

/-- The descriptor as delivered to a field (Table 5.13). -/
def Req.deliver (r : Req) (f : Nat) : List Byte :=
  let sh := r.shareOf f
  r.desc.take 0x28 ++ bytesLE 8 r.arrival ++ bytesLE 4 r.epoch ++ bytesLE 4 r.slot ++ bytesLE 1 r.lead
    ++ bytesLE 1 r.fields.length ++ bytesLE 2 sh.1 ++ bytesLE 4 sh.2

/-- RQTAKE: the oldest delivered descriptor goes to SA D; Z says that there is none. -/
def execSeqRqtake (f : FieldNo) (i : SeqInstr) (s : State) : Out :=
  .next (seqRun f i legM false s fun e =>
    (srcD e f.val i).bind fun d e1 =>
      let q := e1.s.seq f.val
      let z (s : State) (v : Bool) : State := s.setF F.seqStat_Z (bit v) f.val
      match q.deliv with
      | [] => .ok () { e1 with s := z e1.s true }
      | slot :: r =>
        match e1.s.saCheck f.val d (e1.s.spc f.val) with
        | some fl => .fault { fl with write := true }
        | none =>
          if d + 64 > 0x40000 then .fault { cause := .localAddr, write := true, addr := d % 2 ^ 48 }
          else match e1.s.bySlot slot with
            | none => .ok () { e1 with s := z (e1.s.setSeq f.val { q with deliv := r }) true }
            | some rq =>
              let s2 := e1.s.setSeq f.val { q with deliv := r, taken := some slot }
              let s3 := s2.mapReq slot fun x => { x with taken := x.taken ++ [f.val] }
              .ok () { e1 with s := z (s3.storeBytes f.val d (rq.deliver f.val)) false })

/-- Bytes of a context image without queue entries and slices (Table 10.2). -/
def imageFixed : Nat := 1254400 + 131072 + 2048

/-- The time of a context switch in ns (R224): 10 µs and the two images at 120 GB/s, rounded up to whole ns (assumption 124). -/
def State.switchTime (s : State) (f out inc : Nat) : Nat :=
  let bs := imageFixed + (s.cleanImage out f).live + s.queueBytes f
  let si := Tab.get (fun _ => ({} : Image)) s.hub.saved (imgKey inc f)
  let ql := si.tiles.foldl (fun a x => a + 8 * (x.2.qn.length + x.2.qe.length + x.2.qs.length + x.2.qw.length + x.2.ql.length)) 0
  let bl := imageFixed + (s.cleanImage inc f).live + ql
  10000 + (bs + bl + 119) / 120

/-- SLICE of a tenant in ns (R220). -/
def State.sliceNs (s : State) (t : Nat) : Nat := max 2 (s.getF F.hubTenCfg_SLICE t) * 100000

/-- The slice wait of R28: the rest of the resident tenant's slice and one switch. -/
def State.sliceTerm (s : State) (f t : Nat) : Nat :=
  match (s.field f).resident with
  | none => 0
  | some r => if r = t then 0 else ((s.field f).sliceStart + s.sliceNs r - s.now) + s.switchTime f r t

/-- The rest of a quiesce (R26). -/
def State.quiesceTerm (s : State) (f : Nat) : Nat :=
  match (s.field f).quiesce with
  | some q => q.start + q.len - s.now
  | none => 0

/-- The queue ahead of a request in a field (R111): nothing when no other admitted request is in flight there; otherwise a
free value, since the spec does not say how microcode measures it. -/
def State.queueAhead (s : State) (f slot : Nat) : Nat × State :=
  if s.hub.reqs.any fun r => r.out && r.admitted && r.fields.contains f && !r.ended.contains f && r.slot != slot then
    (s.draw.1.toNat, s.draw.2)
  else (0, s)

/-- The variants of a tenant whose profile two words are (R215): bit 0 the full model, bit 1 a registered fallback. -/
def Ten.variants (y : Ten) (w : Nat × Nat) : Nat :=
  bit (w == (y.full0, y.full1)) + 2 * bit (y.hasFb && w == (y.fb0, y.fb1))

/-- PROJ: the projected finish of the request last taken, under the profile at SA A for B candidates (R111, R113). A profile SA
that is not a multiple of 8 is MISALIGNED (assumption 128). -/
def execSeqProj (f : FieldNo) (i : SeqInstr) (s : State) : Out :=
  .next (seqRun f i legM false s fun e =>
    (srcS e f.val i i.a).bind fun a e1 =>
      (srcS e1 f.val i i.b).bind fun b e2 =>
        (dstS e2 f.val i i.d).bind fun pl e3 =>
          if a % 8 ≠ 0 then .fault { cause := .misaligned, addr := a % 2 ^ 48 }
          else
            (readDesc e3 f.val a).bind fun w e4 =>
              let s4 := e4.s
              let rq := (s4.seq f.val).taken.bind s4.bySlot
              let fixed := bitsOf w.1 0 32
              let bad := w.2 != 0 || fixed == 0
              let arr := (rq.map (·.arrival)).getD s4.now
              let tn := (rq.map (·.tenant)).getD (s4.actTenant f.val)
              let slot := (rq.map (·.slot)).getD (2 ^ 24)
              let qa := s4.queueAhead f.val slot
              let v := (s4.now - arr) + qa.1 + s4.recallTerm f.val + s4.sliceTerm f.val tn + s4.quiesceTerm f.val
                + s4.trstTerm f.val tn + fixed + (b * bitsOf w.1 32 32 + 999) / 1000
              let res := if bad then 2 ^ 64 - 1 else v % 2 ^ 64
              let s5 := (if bad then s4 else qa.2).mapReq slot fun r =>
                { r with proj := r.proj ++ [(f.val, (s4.ten tn).variants w, res)] }
              writeS { e4 with s := s5 } f.val i pl res)

/-- The projections of a field that the lead field has not got yet. -/
def Req.unsent (r : Req) (f : Nat) : List (Nat × Nat × Nat) := r.proj.filter fun p => p.1 == f && !r.exchanged.contains p

/-- PROJECTION_EXCHANGE: a field's projections of the oldest request that has any to send reach the lead field over the sync class
(R111). -/
def execProjectionExchange (f : FieldNo) (s : State) : Out :=
  .next (match s.hub.reqs.find? (fun r => r.out && !(r.unsent f.val).isEmpty) with
    | none => s
    | some r => s.mapReq r.slot fun r => { r with exchanged := r.exchanged ++ r.unsent f.val })

/-- The last projection of variant `v` in a field that the lead field knows. -/
def Req.projOf (r : Req) (v f : Nat) : Option Nat :=
  ((if f = r.lead then r.proj else r.exchanged).reverse.find? fun p => p.1 == f && bitsOf p.2.1 v 1 == 1).map (·.2.2)

/-- The latest projection of variant `v` over all the request's fields meets the deadline (R22, R111). -/
def Req.meets (r : Req) (v : Nat) : Bool :=
  r.fields.all fun f => match r.projOf v f with
    | some p => decide (p ≤ r.deadline * 1000)
    | none => false

/-- The decision of R22 for a request: 0 FULL, 1 FALLBACK, 2 REJECT. -/
def State.decision (s : State) (r : Req) : Nat :=
  if r.meets 0 then 0 else if (s.ten r.tenant).hasFb && !r.noFallback && r.meets 1 then 1 else 2

/-- ADMIT: the lead field posts decision B for request slot A: 0 FULL, 1 FALLBACK, 2 REJECT. One that is not R22's is not taken
(assumption 123). -/
def execSeqAdmit (f : FieldNo) (i : SeqInstr) (s : State) : Out :=
  .next (seqRun f i legM false s fun e =>
    (srcS e f.val i i.a).bind fun a e1 =>
      (srcS e1 f.val i i.b).bind fun b e2 =>
        let s2 := e2.s
        let slot := a % 2 ^ 24
        match s2.bySlot slot with
        | none => .ok () e2
        | some r =>
          if r.admitted || r.lead != f.val || b != s2.decision r then .ok () e2
          else if b = 2 then .ok () { e2 with s := (s2.rejectReq r 0x10).count48 .seqCnt 1 f.val 2 }
          else
            let s4 := s2.mapReq slot fun x => { x with admitted := true, variant := b }
            let s3 := s4.setPort r.port ((s4.port r.port).returnSlot r.tenant r.ringSlot false)
            .ok () { e2 with s := (s3.count48 .seqCnt 1 f.val b).startReqs })

/-- RQEND: request slot A ends in this field with status B (R182). -/
def execSeqRqend (f : FieldNo) (i : SeqInstr) (s : State) : Out :=
  .next (seqRun f i legM false s fun e =>
    (srcS e f.val i i.a).bind fun a e1 =>
      (srcS e1 f.val i i.b).bind fun b e2 =>
        .ok () { e2 with s := (e2.s.endIn f.val (a % 2 ^ 24) (b % 256)).startReqs })

/-! ### Modes -/

/-- CALLT: T mode at SA A for the tenant in `SEQ_STAT`.TENANT, which a TENANT prefix sets. -/
def execSeqCallt (f : FieldNo) (i : SeqInstr) (s : State) : Out :=
  .next (seqRun f i legM false s fun e =>
    (srcS e f.val i i.a).bind fun a e1 =>
      let s1 := match i.tenant with
        | some t => e1.s.setF F.seqStat_TENANT t.val f.val
        | none => e1.s
      let t := s1.getF F.seqStat_TENANT f.val
      let s2 := s1.setF F.seqStat_MODE 1 f.val
      .ok () { e1 with
        s := s2.setSeq f.val { s2.seq f.val with retPc := (s2.spc f.val + i.len) % 2 ^ 24, curReq := s2.reqOf f.val t },
        jump := some (a % 2 ^ 24) })

/-- TRST: once no GSTAGE of tenant A is outstanding in the field, its context there returns to the clean one (R113); until then it
waits. -/
def execSeqTrst (f : FieldNo) (i : SeqInstr) (s : State) : Out :=
  .next (seqRun f i legM false s fun e =>
    (srcS e f.val i i.a).bind fun a e1 =>
      let t := a % 16
      let s1 := e1.s
      let done (s : State) : SRes Unit := .ok () { e1 with s := s.markTrst f.val t (some (s.now + 60000)) }
      if (s1.seq f.val).gst.any fun g => g.tenant == t then .stay (s.markTrst f.val t none)
      else if s1.residentIs f.val t then done (s1.trst f.val t)
      else done { s1 with hub := { s1.hub with saved := Tab.erase s1.hub.saved (imgKey t f.val) } })

/-- CTXSAVE: once every tile can take the event and the dense block is idle, the tiles freeze and the context is saved; the
lanes are emptied and the banks cleared (R159, R222, R223). -/
def execSeqCtxsave (f : FieldNo) (i : SeqInstr) (s : State) : Out :=
  .next (seqRun f i legM false s fun e =>
    (srcS e f.val i i.a).bind fun _ e1 =>
      let s1 := e1.s
      match (s1.field f.val).resident with
      | none => .ok () e1
      | some t =>
        if !s1.allCanTake f.val || !(s1.dense f.val).idle then .hold
        else
          let s2 := s1.freezeAll f
          let s3 := s2.saveImage t f.val
          let x := s3.field f.val
          let sw := match x.switching with
            | some (inc, 0) => some (inc, 1)
            | w => w
          .ok () { e1 with s := s3.setField f.val { x with dense := x.dense.clearBanks, switching := sw } })

/-- CTXLOAD: the incoming context of a switch is loaded; outside a switch the resident one is restored (R222, R223). -/
def execSeqCtxload (f : FieldNo) (i : SeqInstr) (s : State) : Out :=
  .next (seqRun f i legM false s fun e =>
    (srcS e f.val i i.a).bind fun _ e1 =>
      let s1 := e1.s
      match (s1.field f.val).switching with
      | some (inc, ph) =>
        if ph ≠ 1 then .hold
        else
          let s2 := s1.loadSaved inc f.val
          .ok () { e1 with s := s2.setField f.val { s2.field f.val with switching := some (inc, 2) } }
      | none =>
        match (s1.field f.val).resident with
        | none => .ok () e1
        | some t => .ok () { e1 with s := s1.loadSaved t f.val })

/-- SEQ_PREEMPT: a context-switch order, a freeze or a tile fault preempts a T-mode schedule at its next boundary (R114). -/
def execSeqPreempt (f : FieldNo) (s : State) : Out :=
  .next (let q := s.seq f.val
    if !(s.tmode f.val && q.mustPreempt) then s
    else match q.wait with
      | .glob => s
      | .cellAck _ => s
      | .cell c =>
        let x := s.cell f.val c
        (s.setCell f.val c { x with waiters := x.waiters.filter fun w => w != .seq }).toEventEntry f.val
      | _ => s.toEventEntry f.val)

/-- MICROCODE_RELOAD: the Hub reloads the microcode of a halted sequencer and raises SEQ_MFAULT (R117). -/
def execMicrocodeReload (f : FieldNo) (s : State) : Out :=
  .next (if !s.released || !s.flag F.seqStat_HALTED f.val then s
    else
      let q := s.seq f.val
      let store := (q.store.filter fun x => decide (tenantArea ≤ x.1))
      let s1 := s.setSeq f.val { q with
        store := copyBytes s.sec.mc store 0 tenantArea, wait := .none, got := [], incs := [], injFault := false, twait := .none }
      let s2 := ((s1.setF F.seqStat_HALTED 0 f.val).setF F.seqStat_MODE 0 f.val).setF F.seqStat_REPEAT 0 f.val
      let x := s2.field f.val
      let s3 := ((s2.setField f.val { x with trst := x.trst.filter fun y => y.2.isSome }).setSpc f.val 0).setReg .seqFaultInfo f.val 0 0 0
      s3.rasEvent { kind := 0x0B, injected := q.injFault, lfield := f.val, pfield := s.pfield f.val, arg := s.reg .seqFaultInfo f.val 0 0 })

end Sys2Proof.Machine
end

