-- ==== Sys2Proof/Machine/Route.lean ====
section
/-! DEFINITION. The routed mesh: where a packet goes next (R127, R131), room and credits (R128, R130), injected lane errors
(R135), delivery to sequencers and dense blocks, timeouts; and the HBM controllers (R164 to R167, R174). -/

namespace Sys2Proof.Machine

open Sys2Proof

/-! ### Places -/

/-- Row and column of a physical field (R29: pf = row × 12 + column). -/
def prow (p : Nat) : Nat := p / 12
def pcol (p : Nat) : Nat := p % 12

/-- |a − b|. -/
def absDiff (a b : Nat) : Nat := (a - b) + (b - a)

/-- Trunk hops between two routers; crossing the spine between columns 5 and 6 counts one (R127). -/
def trunkHops (p q : Nat) : Nat :=
  absDiff (pcol p) (pcol q) + absDiff (prow p) (prow q) + (if (pcol p < 6) = (pcol q < 6) then 0 else 1)

/-- The candidate of a list that is fewest hops from `p`, the earliest on a tie. -/
def nearestTo (p : Nat) : List Nat → Option Nat
  | [] => none
  | c :: r =>
    match nearestTo p r with
    | none => some c
    | some d => if trunkHops p c ≤ trunkHops p d then some c else some d

/-- The home fields of a stack, in ascending order (R30). -/
def State.homesOf (s : State) (m : Nat) : List Nat := (upTo 96).filter fun p => s.homeStack p == m

/-- The attachment routers of an edge die, lower pf first (Table 6.3). -/
def edgeRouters (e : Nat) : List Nat :=
  ([[1, 4], [7, 10], [23, 47], [59, 83], [91, 94], [85, 88], [48, 72], [12, 36]])[e]?.getD []

/-- The router at which an agent attaches, none for those that choose theirs by the other end. -/
def State.routerOf (s : State) (a : Agent) : Option Nat :=
  match a with
  | .tile f _ => some (s.pfield f)
  | .seq f => some (s.pfield f)
  | .dense f => some (s.pfield f)
  | _ => none

/-- The router that a packet makes for on the trunk; for the Hub, none: it leaves at the spine (R131). -/
def State.goalRouter (s : State) (p : Packet) : Option Nat :=
  let from_ := (match p.src with
    | .hbm m => (s.homesOf m).head?
    | .edge e => (edgeRouters e).head?
    | a => s.routerOf a).getD 0
  match p.dst with
  | .hbm m => nearestTo from_ (s.homesOf m)
  | .edge e => nearestTo from_ (edgeRouters e)
  | a => s.routerOf a

/-- The port row of a field nearest a logical row, the lower on a tie (R127). -/
def portRow (y : Nat) : Nat :=
  ([4, 12, 20, 28, 36, 44, 52, 60] : List Nat).foldl (fun b r => if absDiff r y < absDiff b y then r else b) 4

/-- One hop from router or junction column side toward a column, then a row (R131). -/
def trunkStep (p q : Nat) : Node :=
  if pcol p = pcol q then (if prow p < prow q then .router (p + 12) else .router (p - 12))
  else if pcol p < pcol q then (if pcol p = 5 then .junction (prow p) else .router (p + 1))
  else (if pcol p = 6 then .junction (prow p) else .router (p - 1))

/-- The next place of a packet and its sub-channel: up toward a field router, or not; `done` when it has arrived. -/
def State.nextHop (s : State) (p : Packet) : Node × Bool :=
  match p.node with
  | .tile f t =>
    let same := match p.dst with
      | .tile g _ => g == f
      | _ => false
    let x := t % 70
    let y := t / 70
    if same then
      match p.dst with
      | .tile _ u =>
        if u = t then (.done, false)
        else if x ≠ u % 70 then (.tile f (if x < u % 70 then t + 1 else t - 1), false)
        else (.tile f (if y < u / 70 then t + 70 else t - 70), false)
      | _ => (.done, false)
    else if x ≠ 0 then (.tile f (t - 1), true)
    else if y = portRow y then (.router (s.pfield f), true)
    else (.tile f (if y < portRow y then t + 70 else t - 70), true)
  | .router r =>
    let toHub : Node × Bool :=
      if pcol r = 5 ∨ pcol r = 6 then (.junction (prow r), false) else (.router (if pcol r < 5 then r + 1 else r - 1), false)
    match p.dst, s.goalRouter p with
    | .hub, _ => toHub
    | .far, _ => toHub
    | _, none => (.done, false)
    | d, some q =>
      if q ≠ r then (trunkStep r q, false)
      else match d with
        | .tile f t => (.tile f (portRow (t / 70) * 70), false)
        | _ => (.done, false)
  | .junction j =>
    (match p.dst, s.goalRouter p with
     | .hub, _ => (.done, false)
     | .far, _ => (.done, false)
     | _, none => (.done, false)
     | _, some q => (.router (j * 12 + if pcol q < 6 then 5 else 6), false))
  | .home m _ =>
    (.router (((nearestTo ((s.goalRouter p).getD 0) (s.homesOf m))).getD 0), false)
  | .hub _ => (.junction (prow ((s.goalRouter p).getD 0)), false)
  | .edge e => (.router ((nearestTo ((s.goalRouter p).getD 0) (edgeRouters e)).getD 0), false)
  | .done => (.done, false)

/-! ### Buffers (R128, R130, R134) -/

/-- Bytes of a packet: header and payload. -/
def Packet.bytes (p : Packet) : Nat := 16 + p.data.length

/-- The room of an input buffer, per class and sub-channel. -/
def bufferSize (n : Node) : Nat :=
  match n with
  | .tile _ _ => 288
  | _ => 1024

/-- The bytes held or owed at the buffer of node `n` fed from node `pr`. -/
def State.bufferUsed (s : State) (pr n : Node) (c : PClass) (up : Bool) : Nat :=
  (s.mesh.pkts.foldl (fun a q => if q.node = n ∧ q.prev = pr ∧ q.cls = c ∧ q.up = up then a + q.bytes else a) 0)
    + s.mesh.debts.foldl (fun a d => if d.node = n ∧ d.prev = pr ∧ d.cls = c ∧ d.up = up then a + d.bytes else a) 0

/-- Packet `q` is older than `p` by AGE modulo 2^16. -/
def olderAge (q p : Packet) : Bool := decide (1 ≤ (p.age + 2 ^ 16 - q.age) % 2 ^ 16) && decide ((p.age + 2 ^ 16 - q.age) % 2 ^ 16 < 2 ^ 15)

/-- A number for each place. -/
def Node.code : Node → Nat
  | .tile f t => f * 4900 + t
  | .router p => 2 ^ 19 + p
  | .junction j => 2 ^ 19 + 2 ^ 8 + j
  | .home m p => 2 ^ 19 + 2 ^ 11 + m * 2 ^ 7 + p
  | .hub j => 2 ^ 19 + 2 ^ 9 + j
  | .edge e => 2 ^ 19 + 2 ^ 10 + e
  | .done => 2 ^ 19 + 2 ^ 12

/-- The output port of a node toward a place. -/
def portKey (node way : Node) : Nat := node.code * 2 ^ 20 + way.code

/-- Packet `q` is ahead of `p` in its stream: the same source, destination and class. -/
def State.behind (s : State) (p : Packet) : Bool :=
  (s.mesh.pkts.takeWhile fun q => q.id != p.id).any fun q => q.node == p.node && q.cls == p.cls && q.src == p.src && q.dst == p.dst

/-- An older packet of `p`'s class is to leave its node by the same way. -/
def State.outAged (s : State) (p : Packet) (way : Node) : Bool :=
  s.mesh.pkts.any fun q => q.node == p.node && q.cls == p.cls && q.id != p.id && (s.nextHop q).1 == way && olderAge q p

/-- The packets at `p`'s node that could leave by `way`: first of their stream, the oldest of their class, with room at the next place. -/
def State.ready (s : State) (p : Packet) (way : Node) : List Packet :=
  s.mesh.pkts.filter fun q => q.node == p.node && (s.nextHop q).1 == way && !s.behind q && !s.outAged q way
    && (way == .done || decide (s.bufferUsed q.node way q.cls (s.nextHop q).2 + q.bytes ≤ bufferSize way))

/-- How far a number comes after the one served last, in round robin over `n`; `last` is that one plus 1, 0 for none. -/
def turn (n last k : Nat) : Nat := (k + n - last) % n

/-- A packet that must leave the node before `p` (R134): ahead of it in its stream; older in its class on the same way out; of the
same age from an input port whose turn comes first; or of a class whose turn comes first. -/
def State.blocked (s : State) (p : Packet) (way : Node) : Bool :=
  let k := portKey p.node way
  let l := s.ready p way
  let portTurn (q : Packet) : Nat := turn (2 ^ 20) (Tab.get (fun _ => 0) s.mesh.turnP (k * 4 + p.cls.code)) q.prev.code
  let classTurn (q : Packet) : Nat := turn 4 (Tab.get (fun _ => 0) s.mesh.turnC k) q.cls.code
  s.behind p
    || s.outAged p way
    || l.any (fun q => q.cls == p.cls && q.age == p.age && decide (portTurn q < portTurn p))
    || l.any fun q => decide (classTurn q < classTurn p)

/-- The output port has served a packet. -/
def Mesh.served (m : Mesh) (p : Packet) (way : Node) : Mesh :=
  let k := portKey p.node way
  { m with
    turnC := Tab.set (fun _ => 0) m.turnC k (p.cls.code + 1)
    turnP := Tab.set (fun _ => 0) m.turnP (k * 4 + p.cls.code) (p.prev.code + 1) }

/-- Change a packet. -/
def State.setPkt (s : State) (p : Packet) : State :=
  { s with mesh := { s.mesh with pkts := s.mesh.pkts.map fun q => if q.id = p.id then p else q } }

/-- An armed lane injection meets the packet as it leaves a node (R297 0x07, 0x08, 0x0A, 0x0B): one bit is corrected and
counted, two bits poison it. -/
def State.laneErr (s : State) (p : Packet) : State × Packet :=
  match p.node with
  | .tile f _ =>
    let x := s.field f
    if x.laneInj = 1 then ((s.setField f { x with laneInj := 0 }).countF F.fldBrErr_CORR 1 f, p)
    else if x.laneInj = 2 then
      (((s.setField f { x with laneInj := 0 }).countF F.fldBrErr_UNCORR 1 f).poisonEvent 0x08 f true, { p with err := .poison })
    else (s, p)
  | .router r =>
    let k := Tab.get (fun _ => 0) s.mesh.trunkInj r
    let s1 := { s with mesh := { s.mesh with trunkInj := Tab.set (fun _ => 0) s.mesh.trunkInj r 0 } }
    if k = 1 then (s1.countF F.hubBrTrunk_CORR 1 r, p)
    else if k = 2 then ((s1.countF F.hubBrTrunk_UNCORR 1 r).poisonEvent 0x0B 92 true, { p with err := .poison })
    else (s, p)
  | _ => (s, p)

/-- Deliver data to an element of a list of reads. -/
def takeRow (l : List GathEl) (p : Packet) : List GathEl :=
  l.map fun g =>
    if g.access = p.access then
      { g with data := g.data ++ p.data, bad := match p.err with
          | .ok => g.bad
          | .poison => some .poison
          | .protection => some .protection }
    else g

/-- A response reaches a sequencer, a dense block or the Hub. -/
def State.deliver (s : State) (p : Packet) : State :=
  let s1 := s.dropPkt p.id
  if !(s1.mesh.outst.any fun a => a.id == p.access) then s1
  else match p.purpose, p.dst with
    | .seqOp, .seq f =>
      let s2 := s1.closeAccess p.access
      let q := s2.seq f
      s2.setSeq f { q with got := q.got ++ [(p.data, p.err, p.okBit)], wait := if q.wait = .glob then .none else q.wait }
    | .gstage i _, .seq f =>
      let q := s1.seq f
      let g := q.gst.map fun g => if g.id = i then { g with rows := takeRow g.rows p } else g
      let s2 := s1.setSeq f { q with gst := g }
      if g.any fun x => x.rows.any fun r => r.access == p.access && r.back then s2.closeAccess p.access else s2
    | .wload, .dense f =>
      let d := s1.dense f
      let w := d.wload.map fun w => { w with rows := takeRow w.rows p }
      let s2 := s1.setDense f { d with wload := w }
      if w.any fun x => x.rows.any fun r => r.access == p.access && r.back then s2.closeAccess p.access else s2
    | .copy, .hub =>
      let c := s1.hub.copyIn.map fun x => (x.1, takeRow x.2 p)
      let s2 := { s1 with hub := { s1.hub with copyIn := c } }
      if c.any fun x => x.2.any fun r => r.access == p.access && !r.back && r.bad.isNone then s2 else s2.closeAccess p.access
    | _, _ => s1.closeAccess p.access

/-- A packet is a response. -/
def Packet.isResp (p : Packet) : Bool := p.op == .readData || p.op == .writeAck

/-- A packet reaches its destination: a response to a sequencer, dense block or the Hub is used at once; a request at the Hub
is performed by `atHub`, an edge die takes its packet by `atEdge`; the others wait there for their own command. -/
def State.arrive (s : State) (p : Packet) (atHub atEdge : State → Packet → State) : State :=
  let p1 := { p with node := .done, prev := p.node }
  let s1 := s.setPkt p1
  if p.isResp then
    match p.dst with
    | .tile _ _ => s1
    | .edge _ => atEdge s1 p1
    | _ => s1.deliver p1
  else match p.dst with
    | .hub => atHub s1 p1
    | .edge _ => atEdge s1 p1
    | _ => s1

/-- One hop of a packet. -/
def State.hop (s : State) (id : Nat) (atHub atEdge : State → Packet → State) : State :=
  match s.mesh.pkts.find? (fun p => p.id == id) with
  | none => s
  | some p =>
    if p.arrived then s
    else
      let n := s.nextHop p
      let fin := n.1 == .done
      if s.blocked p n.1 then s
      else if !fin && decide (s.bufferUsed p.node n.1 p.cls n.2 + p.bytes > bufferSize n.1) then s
      else
        let debt : List Debt := if p.prev = p.node then [] else [{ id := p.id, prev := p.prev, node := p.node, cls := p.cls, up := p.up, bytes := p.bytes }]
        let s0 := { s with mesh := { s.mesh.served p n.1 with debts := s.mesh.debts ++ debt } }
        let r := s0.laneErr p
        if fin then r.1.arrive r.2 atHub atEdge else r.1.setPkt { r.2 with prev := p.node, node := n.1, up := n.2 }

/-- ROUTER_CREDIT_RETURN: the oldest credit owed for packet `id` returns. -/
def execRouterCreditReturn (id : Nat) (s : State) : Out :=
  .next (match s.mesh.debts.find? (fun d => d.id == id) with
    | none => s
    | some d => { s with mesh := { s.mesh with debts := s.mesh.debts.erase d } })

/-- Count a failed read of a port (R248, R250, R258). -/
def State.hostErr (s : State) (p : Nat) : State := (s.countF F.prtErr_HOST_ERR 1 p).setF F.prtStat_HOST_ERR 1 p

/-- ACCESS_TIMEOUT: 100 ms after its issue an access with no response completes as poisoned (R135); one to the far tier counts in its port's
HOST_ERR (R258). -/
def execAccessTimeout (id : Nat) (s : State) : Out :=
  .next (match s.mesh.outst.find? (fun a => a.id == id) with
    | none => s
    | some a =>
      if s.now < a.issued + 100000000 then s
      else
        let s0 := if a.agent.field < 92 then s.countF F.fldBrErr_TIMEOUT 1 a.agent.field else s
        let s1 := if a.hostPort < 4 then s0.hostErr a.hostPort else s0
        let nid := s1.mesh.nextId
        let r : Packet :=
          { id := nid, op := .readData, cls := .response, err := .poison, src := .hub, dst := a.agent, purpose := a.purpose,
            access := a.id, ga := a.ga, okBit := false, prev := .done, node := .done }
        let s2 := { s1 with mesh := { s1.mesh with
          nextId := nid + 1, pkts := (s1.mesh.pkts.filter fun p => p.access != a.id) ++ [r] } }
        match a.agent with
        | .tile _ _ => s2
        | _ => s2.deliver r)

/-! ### HBM controllers -/

/-- Serve one request at a stack. A write by an engine agent of this unit into a registered bank is a protection fault (R174); one
from another unit was checked at its edge die (R274, chapter 12, Corners). -/
def State.serveHbm (s : State) (p : Packet) : State :=
  let wr := match p.op with
    | .write => true
    | .posted => true
    | _ => false
  let rop : PktOp := if wr then .writeAck else .readData
  let stores := match p.op with
    | .read => false
    | .atomic (.lr _) => false
    | _ => true
  if p.err != .ok then s.respond p rop .poison [] true false
  else if s.stackOff (stackOf p.ga) then s.respond p rop .poison [] true false
  else if stores && p.src != .hub && p.ext.isNone && !(s.banksOver p.ga p.len).isEmpty then s.respond p rop .protection [] true false
  else match p.op with
    | .atomic a =>
      let r := s.hbmRead p.ga p.len
      match r.1 with
      | none => r.2.respond p rop .poison [] true false
      | some d =>
        let old := natLE d
        let h := atomHome a (8 * p.len) old (s.scHome p)
        let cont := s.scContend p
        let s1 := match h.1 with
          | some v => (r.2.hbmWrite p.ga (bytesLE p.len v)).2.breakResv p.ga p.len p.srcKey
          | none => r.2
        (s1.homeResv p).respond p rop .ok d h.2 cont
    | _ =>
      if wr then ((s.hbmWrite p.ga p.data).2.breakResv p.ga p.len p.srcKey).respond p rop .ok [] true false
      else
        let r := s.hbmRead p.ga p.len
        match r.1 with
        | none => r.2.respond p rop .poison [] true false
        | some d => r.2.respond p rop .ok d true false

/-- HBM_ACCESS: the oldest request that has reached a stack and that no hold delays is performed. -/
def execHbmAccess (m : Stack) (s : State) : Out :=
  .next (match s.inboxReq (.hbm m.val) with
    | some p => (s.dropPkt p.id).serveHbm p
    | none => s)

/-- PATROL_SCRUB: a pass over one stack, once per PERIOD or after NOW: single-bit errors are corrected and rewritten. -/
def execPatrolScrub (m : Stack) (s : State) : Out :=
  .next (
    let per := s.getF F.hbmScrub_PERIOD
    let due := s.hbm.scrubDue.contains m.val
      || (per != 0 && decide (Tab.get (fun _ => 0) s.hbm.scrubAt m.val + per * 3600000000000 ≤ s.now))
    if !due || s.stackOff m.val then s
    else
      let us := (s.hbm.err.filter fun x => x.2 == 1 && x.1 * 64 / 0x900000000 == m.val).map (·.1)
      let s1 := us.foldl (fun s u => ((s.hbmMark u 0).countF F.hbmErr_CORR 1 m.val).countF F.hbmErr_SCRUB_FIX 1 m.val) s
      let s2 := { s1 with hbm := { s1.hbm with
        scrubAt := Tab.set (fun _ => 0) s1.hbm.scrubAt m.val s.now, scrubDue := s1.hbm.scrubDue.filter fun k => k != m.val } }
      s2.setF F.hbmStat_SCRUB_BUSY 0 m.val)

/-- HBM_REFRESH: refresh affects timing only (R164). -/
def execHbmRefresh (_ : Stack) (_ : Nat) (s : State) : Out := .next s

/-- NOW of `HBM_SCRUB` starts a pass on every stack that is not offline. -/
def State.scrubNow (s : State) : State :=
  let l := (upTo 16).filter fun m => !s.stackOff m
  l.foldl (fun s m => s.setF F.hbmStat_SCRUB_BUSY 1 m) { s with hbm := { s.hbm with scrubDue := l } }

end Sys2Proof.Machine
end

