-- ==== Sys2Proof/Machine/Tables.lean ====
section
/-! DEFINITION. Tables, banks, epochs and flips (R171 to R186), copy-forward (R183), protection-window commits (R227 to R229). -/

namespace Sys2Proof.Machine

open Sys2Proof

/-! ### Tables and banks (R171 to R178) -/

/-- The state of a bank, coded as Table 8.2, its base register and the epoch its service ends at. -/
def Tbl.st (x : Tbl) : Bank → Nat
  | .a => x.stA
  | .b => x.stB
def Tbl.setSt (x : Tbl) (b : Bank) (v : Nat) : Tbl :=
  match b with
  | .a => { x with stA := v }
  | .b => { x with stB := v }
def Tbl.base (x : Tbl) : Bank → Nat
  | .a => x.baseA
  | .b => x.baseB
def Tbl.endOf (x : Tbl) : Bank → Nat
  | .a => x.endA
  | .b => x.endB
def Tbl.drainFrom (x : Tbl) (b : Bank) (e : Nat) : Tbl :=
  match b with
  | .a => { x with stA := 4, endA := e }
  | .b => { x with stB := 4, endB := e }

/-- The number of a bank. -/
def bankNo : Bank → Nat
  | .a => 0
  | .b => 1

/-- The other bank. -/
def otherBank : Bank → Bank
  | .a => .b
  | .b => .a

/-- Bytes of a bank: capacity × row size. -/
def Tbl.bankSize (x : Tbl) : Nat := x.rows * x.rowSize

/-- The table that a source's `HUB_TBL_SEL` names: tenant and number. -/
def State.tblSel (s : State) (src : Nat) : Nat × Nat :=
  (s.getF F.hubTblSel_TENANT 0 0 src, s.getF F.hubTblSel_TABLE 0 0 src)

/-- A command or write was refused: REFUSED is sticky. -/
def State.tblRefuse (s : State) (t n : Nat) : State := s.setTbl t n { s.tbl t n with refused := true }

/-- A write of `HUB_TBL_GEOM`: only while the table is unregistered (R178). -/
def State.geomWrite (s : State) (t n v : Nat) : State :=
  if (s.tbl t n).registered then s.tblRefuse t n
  else s.setTbl t n { s.tbl t n with geom := bitsOf v 0 9 + bitsOf v 32 32 * 2 ^ 32 }

/-- A write of `HUB_TBL_BASE_x` is refused. -/
def State.baseRefused (s : State) (t n : Nat) (b : Bank) (v : Nat) : Bool :=
  let loc := bitsOf v 44 2
  decide (2 ≤ (s.tbl t n).st b) || bitsOf v 0 12 != 0 || loc == 3 || (loc != 1 && bitsOf v 48 8 != 0)

/-- A write of `HUB_TBL_BASE_x`: only while the bank is FREE or WRITABLE, with a legal base, LOC and UNIT (R178, Table 8.4). -/
def State.baseWrite (s : State) (t n : Nat) (b : Bank) (v : Nat) : State :=
  let x := s.tbl t n
  let w := bitsOf v 0 46 + bitsOf v 48 8 * 2 ^ 48
  if s.baseRefused t n b v then s.tblRefuse t n
  else match b with
    | .a => s.setTbl t n { x with baseA := w }
    | .b => s.setTbl t n { x with baseB := w }

/-- A bank lies in the valid range of its location and clear of the system regions (R172). -/
def State.bankFits (s : State) (base size : Nat) : Bool :=
  let a := bitsOf base 0 44
  let loc := bitsOf base 44 2
  if loc = 2 then decide (a + size ≤ s.farSize)
  else decide (a + size ≤ hbmSize) && (loc == 1 || !rangeInSystem a size)

/-- Two banks lie in one location and overlap. -/
def banksOverlap (p q size : Nat) : Bool :=
  p / 2 ^ 44 == q / 2 ^ 44 && decide (bitsOf p 0 44 < bitsOf q 0 44 + size) && decide (bitsOf q 0 44 < bitsOf p 0 44 + size)

/-- The number of registered tables in the unit. -/
def State.registeredTables (s : State) : Nat := (s.hub.tables.filter fun x => x.2.registered).length

/-- REGISTER: both banks become WRITABLE, or the command is refused (R172). -/
def State.tblRegister (s : State) (t n : Nat) : State :=
  let x := s.tbl t n
  let sz := x.bankSize
  let r := bitsOf x.geom 0 9
  if x.registered || r == 0 || decide (256 < r) || x.rows == 0 || decide (1024 ≤ s.registeredTables)
      || !s.bankFits x.baseA sz || !s.bankFits x.baseB sz || banksOverlap x.baseA x.baseB sz then s.tblRefuse t n
  else s.setTbl t n { x with registered := true, retiring := false, retFlipped := false, stA := 1, stB := 1 }

/-- A table is unregistered: both banks FREE, its READY commands and copies forgotten. -/
def State.tblFree (s : State) (t n : Nat) : State :=
  let s1 := s.setTbl t n { s.tbl t n with registered := false, retiring := false, retFlipped := false, stA := 0, stB := 0 }
  { s1 with hub := { s1.hub with
    readyHeld := s1.hub.readyHeld.filter fun r => !(r.tenant == t && r.table == n)
    copies := s1.hub.copies.filter fun c => c.1 != t * 256 + n
    copyIn := s1.hub.copyIn.filter fun c => c.1 != t * 256 + n
    copyOut := s1.hub.copyOut.filter fun c => c.1 != t * 256 + n } }

/-- RETIRE: the table is retiring for the next flip (R178). -/
def State.tblRetire (s : State) (t n : Nat) : State :=
  let x := s.tbl t n
  if !x.registered || x.retiring then s.tblRefuse t n else s.setTbl t n { x with retiring := true }

/-- READY_x of a WRITABLE bank is held until the writer's earlier writes have reached HBM (R175). -/
def State.tblReady (s : State) (src t n : Nat) (b : Bank) : State :=
  if !(s.tbl t n).registered || (s.tbl t n).st b != 1 then s.tblRefuse t n
  else { s with hub := { s.hub with readyHeld := s.hub.readyHeld ++ [⟨t, n, b == .b, s.now, src⟩] } }

/-- UNREADY_x returns a READY bank to WRITABLE (R173). -/
def State.tblUnready (s : State) (t n : Nat) (b : Bank) : State :=
  if (s.tbl t n).st b ≠ 2 then s.tblRefuse t n else s.setTbl t n ((s.tbl t n).setSt b 1)

/-- A write of `HUB_TBL_CTRL`: COPY_FWD, then its commands in bit order, each on the state the previous one left (R231). -/
def State.tblCtrl (s : State) (src t n v : Nat) (fwd : Bool) : State :=
  let s1 := if fwd then s.setTbl t n { s.tbl t n with copyFwd := bitsOf v 6 1 == 1 } else s
  let go (k : Nat) (h : State → State) (s : State) : State := if bitsOf v k 1 = 1 then h s else s
  go 5 (fun s => s.tblUnready t n .b) (go 4 (fun s => s.tblUnready t n .a) (go 3 (fun s => s.tblReady src t n .b)
    (go 2 (fun s => s.tblReady src t n .a) (go 1 (fun s => s.tblRetire t n) (go 0 (fun s => s.tblRegister t n) s1)))))

/-- READY_TAKE_EFFECT: the held READY of a bank takes effect (R175). Host writes reach HBM as they are performed, so an earlier write
of the port is still on its way only while R229 holds it; port h is source h + 1. -/
def execReadyTakeEffect (t : Tenant) (n : Byte) (bk : Bank) (s : State) : Out :=
  .next (
    let h (r : ReadyHeld) : Bool := r.tenant == t.val && r.table == n.toNat && r.bank == (bk == .b)
    let waits (r : ReadyHeld) : Bool := (upTo 4).any fun p => r.src == p + 1 && (s.port p).held.any fun a => a.data.isSome
    if !s.hub.readyHeld.any h || s.hub.readyHeld.any (fun r => h r && waits r) then s
    else
      let s1 := { s with hub := { s.hub with readyHeld := s.hub.readyHeld.filter fun r => !h r } }
      let x := s1.tbl t.val n.toNat
      if x.registered && x.st bk == 1 then s1.setTbl t.val n.toNat (x.setSt bk 2) else s1)

/-! ### Epochs and flips (R179 to R182) -/

/-- The epochs of a tenant's requests in flight, each once. -/
def State.epochsOut (s : State) (t : Nat) : List Nat :=
  ((s.hub.reqs.filter fun r => r.out && r.tenant == t).map (·.epoch)).eraseDups

/-- The oldest of a list of epochs, seen from the present epoch `e` (R179). -/
def oldestEpoch (e : Nat) (l : List Nat) : Nat :=
  l.foldl (fun a b => if epochDiff e a < epochDiff e b then b else a) (l.headD e)

/-- The tables of a tenant that are registered, by number. -/
def State.tablesOf (s : State) (t : Nat) : List (Nat × Tbl) :=
  (s.hub.tables.filter fun x => x.1 / 256 == t && x.2.registered).map fun x => (x.1 % 256, x.2)

/-- Flip one table to epoch `e` (R178, R180). -/
def Tbl.flip (x : Tbl) (e : Nat) : Tbl :=
  let act : Option Bank := if x.stA = 3 then some .a else if x.stB = 3 then some .b else none
  if x.retiring then
    (if x.retFlipped then x
     else match act with
       | some b => { x.drainFrom b e with retFlipped := true, flipEpoch := e }
       | none => { x with retFlipped := true })
  else match act with
    | some b =>
      if x.st (otherBank b) = 2 then { (x.drainFrom b e).setSt (otherBank b) 3 with flipEpoch := e } else x
    | none =>
      if x.stA = 2 then { x with stA := 3, flipEpoch := e }
      else if x.stB = 2 then { x with stB := 3, flipEpoch := e }
      else x

/-- A retiring table has nothing left to drain. -/
def Tbl.gone (x : Tbl) : Bool := x.retiring && x.retFlipped && x.stA != 4 && x.stB != 4

/-- GO of `HUB_EPOCH_FLIP[t]`: the checks in order, then the flip as one act (R180); the tenant's sequencers get
the event of Table 5.7. -/
def State.flip (s : State) (t : Nat) : State :=
  let tb := s.tablesOf t
  let res (s : State) (k : Nat) : State := s.setF F.hubEpochStatus_RESULT k t
  if s.flag F.hubEpochStatus_PAUSED t then res s 4
  else if 8 ≤ (s.epochsOut t).length then res s 3
  else if !(tb.any fun x => x.2.stA == 2 || x.2.stB == 2 || x.2.retiring) then res s 2
  else
    let e := (s.getF F.hubEpochStatus_EPOCH t + 1) % 2 ^ 32
    let s1 := tb.foldl (fun s x =>
      let y := x.2.flip e
      let s1 := s.setTbl t x.1 y
      if y.gone then s1.tblFree t x.1 else s1) s
    let s2 := ((res s1 1).setF F.hubEpochStatus_EPOCH e t).setF F.hubEpochStatus_PAUSED 1 t
    let s3 := s2.setF F.hubEpochStamp_T s.now t
    ((upTo 92).filter fun f => s.belongs t f).foldl (fun s f => s.seqEvent f { kind := 7, tenant := t }) s3

/-- EPOCH_PAUSE_END: every field router has acknowledged; the dispatcher goes on with the tenant's requests (R181). -/
def execEpochPauseEnd (t : Tenant) (s : State) : Out := .next (s.setF F.hubEpochStatus_PAUSED 0 t.val)

/-- A DRAINING bank has drained: no request of an epoch before the end of its service is in flight (R182). -/
def State.drained (s : State) (t : Nat) (x : Tbl) (b : Bank) : Bool :=
  x.st b == 4 && !(s.epochsOut t).any fun e => epochBefore e (x.endOf b)

/-- One bank leaves DRAINING. -/
def State.leaveDraining (s : State) (t n : Nat) (b : Bank) : State :=
  let x := s.tbl t n
  if !s.drained t x b then s
  else
    let s1 :=
      if x.retiring then
        (let s2 := s.setTbl t n (x.setSt b 0)
         if (s2.tbl t n).gone then s2.tblFree t n else s2)
      else if x.copyFwd then
        (let s2 := s.setTbl t n (x.setSt b 5)
         { s2 with hub := { s2.hub with copies := s2.hub.copies ++ [(t * 256 + n, bankNo b)] } })
      else s.setTbl t n (x.setSt b 1)
    s1.setF F.hubEpochStatus_DRAIN_EVT 1 t

/-- BANK_DRAINED: the drained banks of a table go to FREE, COPYING or WRITABLE and DRAIN_EVT is set. -/
def execBankDrained (t : Tenant) (n : Byte) (s : State) : Out :=
  .next ((s.leaveDraining t.val n.toNat .a).leaveDraining t.val n.toNat .b)

/-! ### Copy-forward (R183) -/

/-- The end of a copy: the bank becomes WRITABLE. -/
def State.copyEnd (s : State) (key : Nat) (b : Bank) : State :=
  let s1 := s.setTbl (key / 256) (key % 256) ((s.tbl (key / 256) (key % 256)).setSt b 1)
  { s1 with hub := { s1.hub with
    copies := s1.hub.copies.filter (fun c => !(c.1 == key && c.2 == bankNo b))
    copyIn := s1.hub.copyIn.filter (fun c => c.1 != key)
    copyOut := s1.hub.copyOut.filter fun c => c.1 != key } }

/-- A bank that the Hub reads and writes in this unit's HBM: local, and no part of it in an aperture (R272). -/
def State.bankHere (s : State) (base size : Nat) : Bool :=
  bitsOf base 44 2 == 0 && (pieces 256 size).all fun p => (s.aperture (bitsOf base 0 44 + p.1)).isNone

/-- An access of the Hub's copy agents at byte `o` of a bank elsewhere. -/
def State.copyIssue (s : State) (t : Nat) (op : PktOp) (base o len : Nat) (d : List Byte) : State :=
  let u := bankAddr base o
  if u.1 = 256 then s.issue .hub true t op u.2 len d .copy else s.issueTo .hub true t op u.1 u.2 len d .copy

/-- Write copied bytes at byte `o` of a bank of `size` bytes: to HBM at once, elsewhere as posted writes. -/
def State.copyWrite (s : State) (t base size o : Nat) (d : List Byte) : State :=
  if s.bankHere base size then s.hbmStore (bitsOf base 0 44 + o) d
  else (pieces 256 d.length).foldl (fun s p => s.copyIssue t .posted base (o + p.1) p.2 ((d.drop p.1).take p.2)) s

/-- The copy ends once the writes issued since access `n0` are acknowledged: at once when there are none. -/
def State.copyWritten (s : State) (key : Nat) (b : Bank) (n0 : Nat) : State :=
  if s.mesh.nextId = n0 then s.copyEnd key b
  else { s with hub := { s.hub with copyOut := s.hub.copyOut ++ [(key, (upTo (s.mesh.nextId - n0)).map (· + n0))] } }

/-- COPY_FORWARD: the tenant's oldest copy goes on, unless the rate holds it. A source in this unit's HBM is read at once; of another
the reads are issued, 64 bytes each, and the copy goes on when they are back. The copy ends when its writes are done. -/
def execCopyForward (t : Tenant) (s : State) : Out :=
  .next (
    match s.hub.copies.find? (fun c => c.1 / 256 == t.val) with
    | none => s
    | some c =>
      if s.getF F.hubEpochCopyRate_GBPS = 0 then s
      else
        let x := s.tbl t.val (c.1 % 256)
        let b : Bank := if c.2 = 0 then .a else .b
        let src := x.base (otherBank b)
        let dst := x.base b
        let n0 := s.mesh.nextId
        match s.hub.copyOut.find? (fun k => k.1 == c.1), s.hub.copyIn.find? (fun k => k.1 == c.1) with
        | some k, _ => if k.2.any fun i => s.mesh.outst.any fun a => a.id == i then s else s.copyEnd c.1 b
        | none, some k =>
          if !(k.2.all fun g => g.back || g.bad.isSome) then s
          else
            (k.2.foldl (fun s g =>
              if g.bad.isSome then (let f := s.freeBytes g.len; f.2.copyWrite t.val dst x.bankSize g.dst f.1)
              else s.copyWrite t.val dst x.bankSize g.dst g.data) s).copyWritten c.1 b n0
        | none, none =>
          if x.st (otherBank b) ≠ 3 then s
          else if s.bankHere src x.bankSize then
            (let r := s.unitRead (bitsOf src 0 44) x.bankSize
             (r.2.copyWrite t.val dst x.bankSize 0 r.1).copyWritten c.1 b n0)
          else
            let r := (pieces 64 x.bankSize).foldl (fun (a : State × List GathEl) p =>
              let el : GathEl := { access := a.1.mesh.nextId, dst := p.1, len := p.2, ga := (bankAddr src p.1).2 }
              (a.1.copyIssue t.val .read src p.1 p.2 [], a.2 ++ [el])) (s, [])
            { r.1 with hub := { r.1.hub with copyIn := r.1.hub.copyIn ++ [(c.1, r.2)] } })

/-! ### Protection windows (R225 to R229) -/

/-- A window write that R227 refuses. -/
def badWindow (w : Win) : Bool :=
  bitsOf w.perm 0 1 == 1 && (gaSpace w.base != gaSpace w.limit || decide (4 ≤ gaSpace w.base) || decide (w.limit < w.base)
    || (gaSpace w.base == 0 && rangeInSystem w.base (w.limit + 0x1000 - w.base))
    || (gaSpace w.base == 3 && (bitsOf w.perm 2 1 == 1 || bitsOf w.perm 3 1 == 1 || bitsOf w.perm 5 1 == 1)))

/-- A commit of the writer's staged window (R227): the epoch counts, DRAIN reads 0, the checkers install it later; with FENCED
the tenant's new checks are held (R228, R229). -/
def State.winCommit (s : State) (src v : Nat) : State :=
  let t := s.getF F.hubWinSel_TENANT 0 0 src
  let w : Win :=
    { base := s.getF F.hubWinBase_PAGE 0 0 src * 4096, limit := s.getF F.hubWinLimit_PAGE 0 0 src * 4096, perm := bitsOf v 0 6 }
  if badWindow w then s.setF F.hubWinDrain_REFUSED 1 t
  else
    let s1 := (s.setF F.hubWinEpoch_EPOCH (s.getF F.hubWinEpoch_EPOCH t + 1) t).setF F.hubWinDrain_DRAIN 0 t
    let s2 := if s.flag F.hubWinCtrl_FENCED t then s1.setF F.hubWinDrain_HOLDING 1 t else s1
    { s2 with hub := { s2.hub with commits := s2.hub.commits ++ [⟨t, s.getF F.hubWinSel_WINDOW 0 0 src, w⟩] } }

/-- The window last committed: what a read of the window registers returns (R235). -/
def State.lastWindow (s : State) (t w : Nat) : Win :=
  match s.hub.commits.reverse.find? (fun c => c.tenant == t && c.win == w) with
  | some c => c.w
  | none => s.window t w

/-- WINDOW_INSTALL: every checker installs the oldest commit of a window. -/
def execWindowInstall (t : Tenant) (w : Fin 32) (s : State) : Out :=
  .next (match s.hub.commits.find? (fun c => c.tenant == t.val && c.win == w.val) with
    | none => s
    | some c =>
      { s with hub := { s.hub with
        commits := s.hub.commits.erase c, windows := Tab.set (fun _ => {}) s.hub.windows (t.val * 32 + w.val) c.w } })

end Sys2Proof.Machine
end

