-- ==== Sys2Proof/Machine/Tenants.lean ====
section
/-! DEFINITION. Tenants (R211 to R218), image packages (R215, R416), partitions, slices and context switches (R219 to R222). -/

namespace Sys2Proof.Machine

open Sys2Proof

/-! ### Image packages (R215, Tables 10.7 to 10.10) -/

/-- Bytes `a` to `a + n - 1` read 0. -/
def zeroAt (d : List Byte) (a n : Nat) : Bool := ((d.drop a).take n).all fun b => b == 0

/-- The fields of a tile record that an image package must hold 0 (R416): reserved bytes, queue counts, RUNNING of every
slot, and FIRED, WAIT, QSTALL and REPEAT of TS. -/
def recordClean (r : List Byte) : Bool :=
  zeroAt r 0x0A 2 && zeroAt r 0x58 0x28 && (upTo 8).all (fun k => bitsOf (fieldAt r (0x88 + 16 * k) 8) 1 1 == 0)
    && bitsOf (fieldAt r 0x0C 4) 19 3 == 0 && bitsOf (fieldAt r 0x0C 4) 7 1 == 0

/-- One section: OFFSET, LENGTH, LIVE. -/
structure Section where
  off : Nat
  len : Nat
  live : Nat
  deriving DecidableEq, Repr

/-- The directory of a package. -/
def pkgDir (p : List Byte) (n : Nat) : List Section :=
  (upTo n).map fun i => ⟨fieldAt p (0x100 + 32 * i) 8, fieldAt p (0x108 + 32 * i) 8, fieldAt p (0x110 + 32 * i) 4⟩

/-- The checks 2 to 8 of R215 on a package of `p`, for a partition of `n` fields. -/
def pkgGood (p : List Byte) (n : Nat) : Bool :=
  let total := fieldAt p 0x38 8
  let fb := bitsOf (fieldAt p 7 1) 0 1
  let dir := pkgDir p (fieldAt p 6 1)
  fieldAt p 0 4 == 0x4B504D49 && fieldAt p 4 2 == 1 && bitsOf (fieldAt p 7 1) 1 7 == 0 && fieldAt p 0x33 1 == 0
    && fieldAt p 0x37 1 == 0 && zeroAt p 0x60 0xA0 && (upTo (fieldAt p 6 1)).all (fun i => zeroAt p (0x114 + 32 * i) 12)
    && dir.all (fun d => (upTo 4900).all fun k => recordClean (((p.take (d.off + d.len)).drop (d.off + 256 * k)).take 256))
    && fieldAt p 6 1 == n
    && decide (fieldAt p 8 4 ≤ 2097152) && dir.all (fun d => decide (d.live ≤ fieldAt p 8 4))
    && fieldAt p 0x0C 4 % 4096 == 0 && decide (fieldAt p 0x0C 4 ≤ 126976)
    && (fb == 1 || (zeroAt p 0x20 16 && zeroAt p 0x34 4))
    && dir.all (fun d => decide (d.off + d.len ≤ total))
    && sha256 ((p.take total).drop 0x100) == (p.drop 0x40).take 32

/-- The slices of a section: records of 8 bytes up to one of all zeros (Table 10.9), and where the list ends. -/
def sliceList (d : List Byte) : Nat → Nat → List (Nat × Nat × Nat) × Nat
  | 0, a => ([], a)
  | n + 1, a =>
    let v := fieldAt d a 8
    if v = 0 then ([], a + 8)
    else
      let r := sliceList d n (a + 8)
      ((bitsOf v 0 13, bitsOf v 16 16, bitsOf v 32 16) :: r.1, r.2)

/-- The bindings of a section: records of 8 bytes up to one of all ones. -/
def bindList (d : List Byte) : Nat → Nat → List (Nat × Nat × Nat) × Nat
  | 0, a => ([], a)
  | n + 1, a =>
    let v := fieldAt d a 8
    if v = 2 ^ 64 - 1 then ([], a + 8)
    else
      let r := bindList d n (a + 8)
      ((bitsOf v 0 12, bitsOf v 12 5, bitsOf v 17 13) :: r.1, r.2)

/-- The clean context that section `d` gives a field (Table 10.9), its store slice at `base`. -/
def sectionImage (d : List Byte) (live slice base : Nat) : Image :=
  let tiles := (upTo 4900).foldl (fun m k =>
    Tab.set (fun _ => Tile.reset) m k (recordTile ((d.drop (256 * k)).take 256))) ([] : Tab Tile)
  let sl := sliceList d (d.length / 8) contextBytes
  let bl := bindList d (d.length / 8) (sl.2 + live)
  let bars := (upTo 256).foldl (fun m g =>
    Tab.set (fun _ => (⟨0, 0, false, 0, false⟩ : Bar)) m g ⟨fieldAt d (bl.2 + 2 * g) 2, 0, false, 0, false⟩) ([] : Tab Bar)
  { tiles := putSlices d sl.1 sl.2 tiles, store := Tab.writeBytes zeroByte [] (base * 4096) ((d.drop (bl.2 + 512)).take slice),
    bars := bars, live := live, binds := bl.1, slices := sl.1.filter fun x => decide (x.1 < 4900) && decide (x.2.1 + x.2.2 ≤ 0xC000),
    regs := [base + slice / 4096 * 256], clean := true }

/-- Read the package that `HUB_TEN_IMG[t]` names: none when it does not lie in tenant HBM or cannot be read (check 1). -/
def State.readPkg (s : State) (t : Nat) : Option (List Byte) × State :=
  let a := s.getF F.hubTenImg_ADDR t
  let ok (n : Nat) : Bool := decide (a + n ≤ hbmSize) && !rangeInSystem a n
  if a % 4096 ≠ 0 || !ok 0x100 then (none, s)
  else
    let h := s.hbmRead a 0x100
    match h.1 with
    | none => (none, h.2)
    | some d =>
      let n := max 0x100 (fieldAt d 0x38 8)
      if ok n then h.2.hbmRead a n else (none, h.2)

/-! ### Tenant states (R211 to R218) -/

/-- A command or configuration write was refused. -/
def State.tenRefuse (s : State) (t : Nat) : State := s.setF F.hubTenStat_REFUSED 1 t

/-- A port ceases to own a tenant: its rings of that tenant are disabled (R243). -/
def State.dropOwner (s : State) (t : Nat) : State :=
  (upTo 4).foldl (fun s p =>
    (s.setF F.prtRingCtrl_ENABLE 0 p t).setF F.prtRingStat_ENABLED 0 p t) s

/-- Set the owner of a tenant. -/
def State.setOwner (s : State) (t p : Nat) : State := (s.setF F.hubTenStat_OWNER p t).setF F.hubTenStat_OWNED 1 t

/-- The tenant becomes FREE with no owner. -/
def State.tenFree (s : State) (t : Nat) : State :=
  (((s.dropOwner t).setF F.hubTenStat_STATE 0 t).setF F.hubTenStat_OWNER 0 t).setF F.hubTenStat_OWNED 0 t

/-- Blocks of cells and wafer groups that a tenant's configuration asks for (Table 10.4). -/
def State.cellBlocks (s : State) (t : Nat) : Nat := min 64 (s.getF F.hubTenCfg_CELL_BLOCKS t)
def State.wbarCount (s : State) (t : Nat) : Nat := min 64 (s.getF F.hubTenCfg_WBAR t)

/-- The ACTIVE and STOPPING tenants other than `t`. -/
def State.liveOthers (s : State) (t : Nat) : List Nat := (upTo 16).filter fun u => u != t && (s.tenState u == 2 || s.tenState u == 3)

/-- The tenants of `l` that use field `f`. -/
def State.users (s : State) (l : List Nat) (f : Nat) : List Nat := l.filter fun u => s.inMask u f

/-- The first of the checks of R213, in order of the table, that refuses an ACTIVATE; 0 when none does. -/
def State.whyNot (s : State) (t : Nat) (img : Bool) : Nat :=
  let fs := s.maskFields t
  let o := s.liveOthers t
  if fs.isEmpty ∨ bitsOf (s.reg .hubTenFields1 t 0 0) 28 36 ≠ 0 then 1
  else if fs.any fun f => decide (64 < s.cellBlocks t + (s.users o f).foldl (fun a u => a + s.cellBlocks u) 0) then 2
  else if 64 < s.wbarCount t + o.foldl (fun a u => a + s.wbarCount u) 0 then 3
  else if !img then 4
  else if fs.any fun f => decide (8 < 1 + (s.users o f).length) then 5
  else 0

/-- A field's pool with the allotments of its tenants packed from block 0, in order of their place (R190 keeps them apart; the
spec does not say where the Hub puts one). -/
def State.packCells (s : State) (f : Nat) (l : List Nat) : State :=
  let old := l.map fun u => (u, s.getF F.fldCellAllot_BASE f u, s.getF F.fldCellAllot_COUNT f u)
  let at_ (u b : Nat) : Nat :=
    old.foldl (fun a x => if x.2.1 < b ∨ (x.2.1 = b ∧ x.1 < u) then a + x.2.2 else a) 0
  let shift (i : Nat) : Nat :=
    match old.find? (fun x => decide (x.2.1 * 64 ≤ i) && decide (i < (x.2.1 + x.2.2) * 64)) with
    | some x => i - x.2.1 * 64 + at_ x.1 x.2.1 * 64
    | none => i
  let x := s.field f
  let q := x.seq
  let sw (w : SWait) : SWait := match w with
    | .cell c => .cell (shift c)
    | .cellAck c => .cellAck (shift c)
    | w => w
  let x1 := { x with
    cells := x.cells.foldl (fun m c => Tab.set (fun _ => {}) m (shift c.1) c.2) []
    cellOps := x.cellOps.map fun r => { r with cell := shift r.cell }
    cellAcks := x.cellAcks.map fun r => { r with cell := shift r.cell }
    cellWakes := x.cellWakes.map fun r => { r with cell := shift r.cell }
    seq := { q with wait := sw q.wait, gst := q.gst.map fun g => { g with cell := shift g.cell } } }
  let s1 := { (s.setField f x1) with tiles := s.tiles.map fun c =>
    if c.1 / 4900 = f then (match c.2.wait with
      | .cell k => (c.1, { c.2 with wait := .cell (shift k) })
      | .cellAck k => (c.1, { c.2 with wait := .cellAck (shift k) })
      | _ => c) else c }
  old.foldl (fun s x => s.setF F.fldCellAllot_BASE (at_ x.1 x.2.1) f x.1) s1

/-- The lowest base at which `n` free blocks lie together in a field's pool. -/
def State.cellHole (s : State) (f n : Nat) (l : List Nat) : Option Nat :=
  (upTo 64).find? fun b => decide (b + n ≤ 64) && l.all fun u =>
    let ub := s.getF F.fldCellAllot_BASE f u
    let un := s.getF F.fldCellAllot_COUNT f u
    un == 0 || decide (b + n ≤ ub) || decide (ub + un ≤ b)

/-- Allot the cell blocks of a tenant in a field (R190, R214). -/
def State.allotCells (s : State) (t f : Nat) : State :=
  let l := (s.users (s.liveOthers t) f).filter fun u => s.getF F.fldCellAllot_COUNT f u != 0
  let n := s.cellBlocks t
  if n = 0 then (s.setF F.fldCellAllot_BASE 0 f t).setF F.fldCellAllot_COUNT 0 f t
  else match s.cellHole f n l with
    | some b => (s.setF F.fldCellAllot_BASE b f t).setF F.fldCellAllot_COUNT n f t
    | none =>
      let s1 := s.packCells f l
      ((s1.setF F.fldCellAllot_BASE (l.foldl (fun a u => a + s.getF F.fldCellAllot_COUNT f u) 0) f t).setF
        F.fldCellAllot_COUNT n f t)

/-- Allot wafer barrier groups: the lowest free ones; the spec does not say what EXPECT the Hub gives them. -/
def State.allotWbar (s : State) (t : Nat) : State :=
  (((upTo 64).filter fun g => !s.flag F.hubWbar_VALID g).take (s.wbarCount t)).foldl (fun s g =>
    let d := s.draw
    (((d.2.setF F.hubWbar_VALID 1 g).setF F.hubWbar_OWNER t g).setF F.hubWbar_CNT 0 g).setF F.hubWbar_EXPECT
      (d.1.toNat % 450893) g) s

/-- The tenant becomes resident in a field: its slice begins (R220). -/
def State.becomeResident (s : State) (t f : Nat) : State :=
  s.setField f { s.field f with resident := some t, sliceStart := s.now, sliceTo := none }

/-- The tenant becomes resident in a field that no other tenant's context holds. -/
def State.firstLoad (s : State) (t f : Nat) : State :=
  match (s.field f).resident with
  | some _ => s
  | none =>
    if (s.field f).switching.isSome then s
    else
      let s1 := s.loadImage f t (s.cleanImage t f)
      s1.becomeResident t f

/-- A successful ACTIVATE (R214, R215). -/
def State.activate (s : State) (t : Nat) (p : List Byte) : State :=
  let fs := s.maskFields t
  let slice := fieldAt p 0x0C 4
  let d := s.draw
  let base := 32 + d.1.toNat % (32 - slice / 4096)
  let secs := fs.zip (pkgDir p (fieldAt p 6 1))
  let s1 := d.2.setTen t { s.ten t with
    full0 := fieldAt p 0x10 8, full1 := fieldAt p 0x18 8, fb0 := fieldAt p 0x20 8, fb1 := fieldAt p 0x28 8,
    fullEntry := bitsOf (fieldAt p 0x30 4) 0 24, fbEntry := bitsOf (fieldAt p 0x34 4) 0 24, sliceBytes := slice,
    liveBytes := fieldAt p 8 4, hasFb := bitsOf (fieldAt p 7 1) 0 1 == 1 }
  let s2 := secs.foldl (fun s x => { s with hub := { s.hub with
    clean := Tab.set (fun _ => {}) s.hub.clean (imgKey t x.1)
      (sectionImage ((p.drop x.2.off).take x.2.len) x.2.live slice base)
    saved := Tab.erase s.hub.saved (imgKey t x.1) } } |>.takeArea t x.1 |>.areaWrite t x.1 ((p.drop x.2.off).take x.2.len)) s1
  let s3 := (fs.foldl (fun s f => s.allotCells t f) s2).allotWbar t
  let s4 := s3.setF F.hubTenStat_STATE 2 t
  (fs.filter fun f => !s4.offline f).foldl (fun s f => s.firstLoad t f) s4

/-- ACTIVATE (R213). -/
def State.tryActivate (s : State) (t : Nat) : State :=
  if s.tenState t ≠ 1 then s.tenRefuse t
  else
    let early := s.whyNot t true
    if early ≠ 0 ∧ early < 4 then (s.setF F.hubTenStat_REFUSE_WHY early t).tenRefuse t
    else
      let r := s.readPkg t
      let good := match r.1 with
        | some p => pkgGood p (s.maskFields t).length
        | none => false
      let why := r.2.whyNot t good
      if why ≠ 0 then (r.2.setF F.hubTenStat_REFUSE_WHY why t).tenRefuse t else r.2.activate t (r.1.getD [])

/-- A write of `HUB_TEN_CTRL[t]` by the Sloe (`p` none) or port `p`: its commands in bit order (R212 to R217, R231). -/
def State.tenCtrl (s : State) (p : Option Nat) (t v : Nat) : State :=
  let arg := bitsOf v 4 3
  let s1 :=
    if bitsOf v 0 1 = 0 then s
    else if s.tenState t ≠ 0 ∨ (p.isNone ∧ 3 < arg) then s.tenRefuse t
    else (s.setF F.hubTenStat_STATE 1 t).setOwner t (p.getD arg)
  let s2 := if bitsOf v 1 1 = 0 then s1 else s1.tryActivate t
  let s3 :=
    if bitsOf v 2 1 = 0 then s2
    else if s2.tenState t = 1 then s2.tenFree t
    else if s2.tenState t = 2 then s2.setF F.hubTenStat_STATE 3 t
    else s2.tenRefuse t
  if bitsOf v 3 1 = 0 then s3
  else if s3.tenState t = 0 ∨ 3 < arg then s3.tenRefuse t
  else
    let old := s3.getF F.hubTenStat_OWNER t
    let s4 := if old = arg then s3 else s3.dropOwner t
    let s5 := { s4 with bus := { s4.bus with moved := s4.bus.moved ++ [(t, old)] } }
    s5.setOwner t arg

/-- The fields of the slice group of a field: those that belong to exactly the same tenants (R219). -/
def State.groupOf (s : State) (f : Nat) : List Nat :=
  let l := s.tenantsOf f
  (s.onlineFields).filter fun g => s.tenantsOf g == l

/-- The fields of a slice group that hold another tenant than field `f` pass to that one: a STOP may have joined two groups (R219,
assumption 60). -/
def State.alignGroup (s : State) (f : Nat) : State :=
  match (s.field f).resident with
  | none => s
  | some n => (s.groupOf f).foldl (fun s h =>
      let x := s.field h
      if x.switching.isSome then s
      else if x.resident = some n then (if x.sliceTo.isSome then s.setField h { x with sliceTo := none, sliceStart := s.now } else s)
      else s.setField h { x with sliceTo := some n }) s

/-- A field takes another tenant's context in place of one whose tenant holds it no more: its dense block is stopped and emptied
(R159), and the context loaded. -/
def State.handOver (s : State) (n f : Nat) : State :=
  let s1 := (s.setDense f (s.dense f).cancel).loadSaved n f
  ((s1.setField f { s1.field f with switching := none, freezing := false }).becomeResident n f).thawTiles f

/-- The tenant that takes a field where the stopped tenant `t` is resident: the one the field was passing to, else the one the rest of
the group holds, else the next in ascending order. -/
def State.successor (s : State) (t f : Nat) : Option Nat :=
  let x := s.field f
  let rest := s.tenantsOf f
  let held := (s.groupOf f).findSome? fun h => (s.field h).resident.filter fun u => u != t
  ((((x.switching.map (·.1)).orElse fun _ => x.sliceTo).orElse fun _ => held).orElse fun _ => rest.find? fun u => decide (t < u)).orElse
    fun _ => rest.head?

/-- A field loses a tenant that has stopped (R216, R219, assumption 60). A switch to it ends, and the resident tenant stays, its
context loaded again where it was saved; where the stopped tenant was resident, a remaining tenant takes the field at once. -/
def State.leaveField (s : State) (t f : Nat) : State :=
  let x := s.field f
  if x.resident = some t then
    match s.successor t f with
    | some n => (s.handOver n f).alignGroup f
    | none => s.setField f { x with resident := none, switching := none, freezing := false, sliceTo := none }
  else
    match x.resident, x.switching with
    | some r, some (inc, ph) =>
      if inc ≠ t then s
      else if ph = 0 then
        (((s.setField f { x with switching := none, freezing := false }).becomeResident r f).thawTiles f).alignGroup f
      else (s.handOver r f).alignGroup f
    | some _, none =>
      (if x.sliceTo = some t then s.setField f { x with sliceTo := none, sliceStart := s.now } else s).alignGroup f
    | none, _ => s

/-- TENANT_STOP_COMPLETE: the last request of a STOPPING tenant has left flight: tables, windows, cells, wafer groups and image
areas are freed and the tenant is FREE (R216). -/
def execTenantStopComplete (t : Tenant) (s : State) : Out :=
  .next (
    if s.tenState t.val ≠ 3 ∨ s.hub.reqs.any (fun r => r.out && r.tenant == t.val) then s
    else
      let fs := s.maskFields t.val
      let s1 := (s.tablesOf t.val).foldl (fun s x => s.tblFree t.val x.1) s
      let s2 := { s1 with hub := { s1.hub with
        windows := s1.hub.windows.filter (fun x => x.1 / 32 != t.val)
        commits := s1.hub.commits.filter (fun c => c.tenant != t.val)
        clean := s1.hub.clean.filter (fun x => x.1 / 92 != t.val)
        saved := s1.hub.saved.filter (fun x => x.1 / 92 != t.val)
        areas := s1.hub.areas.filter fun x => x.1 / 92 != t.val } }
      let s3 := fs.foldl (fun s f =>
        let a := s.allot f t.val
        let s1 := s.setField f { s.field f with cells := (s.field f).cells.filter fun c => !(decide (a.1 ≤ c.1) && decide (c.1 < a.1 + a.2)) }
        (s1.setF F.fldCellAllot_BASE 0 f t.val).setF F.fldCellAllot_COUNT 0 f t.val) s2
      let s4 := ((upTo 64).filter fun g => s3.flag F.hubWbar_VALID g && s3.getF F.hubWbar_OWNER g == t.val).foldl (fun s g =>
        ((s.setF F.hubWbar_VALID 0 g).setF F.hubWbar_OWNER 0 g).setF F.hubWbar_CNT 0 g) s3
      fs.foldl (fun s f => s.leaveField t.val f) (s4.tenFree t.val))

/-! ### Slices and switches (R219 to R222) -/

/-- A tenant has a request held for fields of a group (R221). -/
def State.heldFor (s : State) (t : Nat) (g : List Nat) : Bool :=
  s.hub.reqs.any fun r => r.out && r.tenant == t && !r.started && r.fields.any fun f => g.contains f

/-- The tenants of a rotation that follow `t`, in order (R220). -/
def rotation (l : List Nat) (t : Nat) : List Nat := (l.filter fun u => decide (t < u)) ++ l.filter fun u => decide (u < t)

/-- SLICE_EXPIRY: the group's slice has run; it passes to the next tenant with a held request, or a new slice begins. -/
def execSliceExpiry (f : FieldNo) (s : State) : Out :=
  .next (
    let x := s.field f.val
    let g := s.groupOf f.val
    let l := s.tenantsOf f.val
    match x.resident with
    | none => s
    | some t =>
      if l.length < 2 || x.switching.isSome || x.sliceTo.isSome || decide (s.now < x.sliceStart + s.sliceNs t) then s
      else
        match (rotation l t).find? fun u => s.heldFor u g with
        | some n => g.foldl (fun s h => s.setField h { s.field h with sliceTo := some n }) s
        | none => g.foldl (fun s h => s.setField h { s.field h with sliceStart := s.now }) s)

/-- The fields of a group that pass together from tenant `t` to tenant `n`. -/
def State.passing (s : State) (f t n : Nat) : List Nat :=
  (s.groupOf f).filter fun h => (s.field h).resident == some t && (s.field h).sliceTo == some n

/-- CONTEXT_SWITCH: when every request of the outgoing tenant started in the group has left flight, every field of the group
takes the switch event and its sequencer is ordered to save and load. -/
def execContextSwitch (f : FieldNo) (s : State) : Out :=
  .next (
    let x := s.field f.val
    match x.resident, x.sliceTo with
    | some t, some n =>
      let g := s.passing f.val t n
      if x.switching.isSome || g.any (fun h => (s.field h).quiesce.isSome)
          || s.hub.reqs.any (fun r => r.out && r.tenant == t && r.started && r.fields.any fun h => g.contains h) then s
      else g.foldl (fun s h =>
        (s.setField h { s.field h with switching := some (n, 0), freezing := true }).seqEvent h { kind := 8, tenant := n }) s
    | _, _ => s)

/-- RESIDENCY_CHANGE: the last field of the group has loaded: residency changes at one Hub cycle, the tiles run on, and the
incoming tenant's held requests start in arrival order. -/
def execResidencyChange (f : FieldNo) (s : State) : Out :=
  .next (
    let g := (s.groupOf f.val).filter fun h => (s.field h).switching.isSome
    if g.isEmpty || !g.contains f.val || !(g.all fun h => match (s.field h).switching with
        | some (_, 2) => true
        | _ => false) then s
    else
      let s1 := g.foldl (fun s h =>
        let x := s.field h
        let inc := x.switching.map (·.1)
        let s2 := s.setField h { x with
          resident := inc, switching := none, freezing := false, sliceStart := s.now, sliceTo := none }
        s2.thawTiles h) s
      (s1.alignGroup f.val).startReqs)

end Sys2Proof.Machine
end

