-- ==== Sys2Proof/Machine/Ports.lean ====
section
/-! DEFINITION. Host ports (R236 to R260): doorbells, descriptors, dispatch, REJECT words, result pages, host accesses to HBM,
the far tier, links and resets of a port. -/

namespace Sys2Proof.Machine

open Sys2Proof

/-! ### What a port may do -/

/-- The port's link is up. -/
def State.linkUp (s : State) (p : Nat) : Bool := s.flag F.prtLink_UP p

/-- The port can issue requests: link up and Bus Master Enable (R238). -/
def State.portIssues (s : State) (p : Nat) : Bool := s.linkUp p && (s.port p).bme

/-- Posted credit that the port may use now (R254; injection 0x13 of R297). -/
def State.creditNow (s : State) (p : Nat) : Nat := if s.now < (s.port p).withheldUntil then 0 else (s.port p).credit

/-- The port sends a posted write to host memory. -/
def State.hostPut (s : State) (p addr : Nat) (d : List Byte) : State :=
  let x := s.port p
  let s1 := s.setPort p { x with credit := x.credit - d.length }
  { s1 with hostOut := s1.hostOut ++ [{ port := p, addr := addr, bytes := d }] }

/-- Send a message. -/
def State.sendMsi (s : State) (p vec : Nat) : State := { s with msix := s.msix ++ [{ port := p, vector := vec, at_ := s.now }] }

/-- Send the port's event message, now or as soon as the port may (R254, R259). -/
def State.portEvent (s : State) (p : Nat) : State :=
  if s.portIssues p && decide (0 < s.creditNow p) then
    (s.setPort p { s.port p with evtDue := false }).sendMsi p (s.getF F.prtCfg_EVT_VEC p)
  else s.setPort p { s.port p with evtDue := true }

/-- A port that may send again sends a message that waited. -/
def State.sendLate (s : State) (p : Nat) : State := if (s.port p).evtDue then s.portEvent p else s

/-- Count a bad BAR2 access (R240, R244, R253). -/
def State.badDoorbell (s : State) (p : Nat) : State := (s.countF F.prtErr_DOORBELL_BAD 1 p).setF F.prtStat_DOORBELL_BAD 1 p

/-- The port sends a read of host memory. -/
def State.hostAsk (s : State) (p addr len : Nat) : State := { s with hostGet := s.hostGet ++ [⟨p, addr, len⟩] }

/-- The port sends a read of a range, `k` bytes at most at a time. -/
def State.hostAskAll (s : State) (p addr k len : Nat) : State := (pieces k len).foldl (fun s x => s.hostAsk p (addr + x.1) x.2) s

/-- The port answers a read of the host. -/
def State.hostReply (s : State) (p addr : Nat) (d : Option (List Byte)) : State :=
  { s with hostAns := s.hostAns ++ [{ port := p, addr := addr, bytes := d.getD [], poison := d.isNone }] }

/-- Slots of the request ring and pages of the result ring. -/
def State.rqSize (s : State) (p t : Nat) : Nat := 2 ^ s.getF F.prtRqCfg_LOG2 p t
def State.rsSize (s : State) (p t : Nat) : Nat := 2 ^ s.getF F.prtRsCfg_LOG2 p t

/-- The result ring of a tenant is full (R253). -/
def State.ringFull (s : State) (p t : Nat) : Bool :=
  let x := s.port p
  decide (s.rsSize p t ≤ (x.index t 3 + 2 ^ 32 - x.index t 2) % 2 ^ 32)

/-! ### Doorbells and indices (R239, R240, R244, R253) -/

/-- A write of N to RQ_TAIL (R244). -/
def State.doorbell (s : State) (p t n : Nat) : State :=
  let x := s.port p
  let t0 := x.index t 0
  let k := (n + 2 ^ 32 - t0) % 2 ^ 32
  if !s.flag F.prtRingCtrl_ENABLE p t then s.badDoorbell p
  else if k = 0 then s
  else if 2 ^ 31 ≤ k ∨ s.rqSize p t < k + (t0 + 2 ^ 32 - x.index t 1) % 2 ^ 32 then s.badDoorbell p
  else s.setPort p { x.setIndex t 0 n with
    published := x.published ++ (upTo k).map fun i => (t, (t0 + i) % 2 ^ 32, s.now) }

/-- A write of RS_HEAD (R253). -/
def State.rsHead (s : State) (p t n : Nat) : State :=
  let x := s.port p
  if (x.index t 3 + 2 ^ 32 - x.index t 2) % 2 ^ 32 < (n + 2 ^ 32 - x.index t 2) % 2 ^ 32 then s.badDoorbell p
  else s.setPort p (x.setIndex t 2 n)

/-- A write of a tenant page: only aligned 32-bit and 64-bit writes of RQ_TAIL and RS_HEAD reach them; a 32-bit write of the
upper half, which holds nothing, has no effect; the others count (R240). -/
def State.bar2Write (s : State) (p t off : Nat) (w : AccW) (v : Nat) : State :=
  if !s.linkUp p then s
  else if w.bytes < 4 ∨ off % w.bytes ≠ 0 then s.badDoorbell p
  else if off = 0 then s.doorbell p t (v % 2 ^ 32)
  else if off = 0x10 then s.rsHead p t (v % 2 ^ 32)
  else if off = 4 ∨ off = 0x14 then s
  else s.badDoorbell p

/-- A read of `n` bytes of a tenant page: an aligned 32-bit or 64-bit read reaches a slot, whose upper half reads 0; the others
read 0 and count (R240). -/
def State.bar2Read (s : State) (p t off n : Nat) : Nat × State :=
  if (n ≠ 4 ∧ n ≠ 8) ∨ off % n ≠ 0 ∨ 0x20 ≤ off then (0, s.badDoorbell p)
  else (if off % 8 = 4 then 0 else (s.port p).index t (off / 8), s)

/-- DOORBELL: a write of tenant page `t` of BAR2. -/
def execDoorbell (p : Port) (t : Tenant) (off : BitVec 12) (w : AccW) (v : DWord) (s : State) : Out :=
  .next (s.bar2Write p.val t.val off.toNat w v.toNat)

/-- RS_HEAD_WRITE: a write of RS_HEAD. -/
def execRsHeadWrite (p : Port) (t : Tenant) (w : AccW) (v : DWord) (s : State) : Out :=
  .next (s.bar2Write p.val t.val 0x10 w v.toNat)

/-! ### Descriptors (R245, R248) -/

/-- A descriptor leaves the ranges of Table 11.4, or a reserved byte or REJECT is nonzero (R248). -/
def badDesc (d : List Byte) : Bool :=
  let g (a n : Nat) : Nat := fieldAt d a n
  g 8 8 % 8 != 0 || (g 0x1A 2 != 0 && g 0x10 8 % 64 != 0) || g 0x18 2 == 0 || decide (4096 < g 0x18 2) || decide (64 < g 0x1A 2)
    || g 0x1C 2 == 0 || decide (167 < g 0x1C 2) || bitsOf (g 0x1E 1) 3 5 != 0 || g 0x1F 1 != 0 || g 0x20 4 == 0
    || decide (1000000 < g 0x20 4) || g 0x28 8 != 0 || g 0x30 8 != 0 || g 0x38 8 != 0

/-- Read and undispatched descriptors of a port. -/
def State.undispatched (s : State) (p : Nat) : Nat := (s.hub.reqs.filter fun r => r.port == p && !r.out).length

/-- One descriptor is received: it takes the tenant's next SEQ; a bad one ends with REJECT 0x3F. -/
def State.receive (s : State) (p : Nat) (x : Nat × Nat × Nat) (d : Option (List Byte)) : State :=
  let y := s.ten x.1
  let r : Req := { port := p, tenant := x.1, ringSlot := x.2.1, seqNo := y.seqCtr, arrival := x.2.2, desc := d.getD [] }
  let s1 := s.setTen x.1 { y with seqCtr := (y.seqCtr + 1) % 2 ^ 64 }
  match d with
  | none => s1.rejectReq r 0x3F
  | some b =>
    if badDesc b then ((s1.countF F.prtErr_DESC_INVALID 1 p).setF F.prtStat_DESC_INVALID 1 p).rejectReq r 0x3F
    else { s1 with hub := { s1.hub with reqs := s1.hub.reqs ++ [r] } }

/-- DESCRIPTOR_FETCH: a read of the next `n` published descriptors of a tenant, in two parts where it passes the ring's end,
completes. -/
def execDescriptorFetch (p : Port) (t : Tenant) (n : Fin 17) (r : HostRead) (s : State) : Out :=
  .next (
    let x := s.port p.val
    let l := (x.published.filter fun e => e.1 == t.val).take n.val
    if !s.portIssues p.val || l.length != n.val || n.val == 0 || decide (64 < s.undispatched p.val + n.val)
        || decide (256 < x.rejs.length) then s
    else
      let base := s.getF F.prtRqCfg_BASE p.val t.val * 4096
      let slot := ((l.headD (0, 0, 0)).2.1) % s.rqSize p.val t.val
      let k := min n.val (s.rqSize p.val t.val - slot)
      let s0 := s.hostAsk p.val (base + slot * 64) (k * 64)
      let s1 := (if k < n.val then s0.hostAsk p.val base ((n.val - k) * 64) else s0).setPort p.val
        { x with published := x.published.filter fun e => !l.contains e }
      match r with
      | .failed => l.foldl (fun s e => s.receive p.val e none) (s1.hostErr p.val)
      | .data b => (l.zip (upTo l.length)).foldl (fun s e => s.receive p.val e.1 (some ((b.drop (64 * e.2)).take 64))) s1)

/-! ### Dispatch (R100, R221, R249) -/

/-- Records reserved in a field's result buffer for a tenant: of requests in flight and of pages not yet sent (R249). -/
def State.reserved (s : State) (f t : Nat) : Nat :=
  (s.hub.reqs.filter fun r => r.out && r.tenant == t && r.lead == f).foldl (fun a r => a + max r.outK 1) 0
    + (upTo 4).foldl (fun a p => a + ((s.port p).pages.filter fun g => g.tenant == t && g.lead == f).foldl (fun a g => a + g.outK) 0) 0

/-- The lowest free request slot of a tenant (R100). -/
def State.freeSlot (s : State) (t : Nat) : Option Nat :=
  (upTo 4096).map (· + t * 4096) |>.find? fun k => (s.bySlot k).isNone

/-- The detector has frozen the tenant in a field (R205). -/
def State.frozenFor (s : State) (t f : Nat) : Bool := s.flag F.fldDlStat_FROZEN f && s.getF F.fldDlStat_TENANT f == t

/-- A field quiesces (R26), or runs the tenant's TRST (R113). -/
def State.pausedFor (s : State) (t f : Nat) : Bool := (s.field f).quiesce.isSome || decide (0 < s.trstTerm f t)

/-- A field takes no new requests of a tenant: the detector froze the tenant there (R205), or the field is paused for it and
another is left (R26, R113). -/
def State.avoided (s : State) (t f : Nat) (l : List Nat) : Bool :=
  s.frozenFor t f || (s.pausedFor t f && l.any fun g => !s.pausedFor t g && !s.frozenFor t g)

/-- The fields that the dispatcher may choose from for a tenant. -/
def State.choices (s : State) (t : Nat) : List Nat :=
  let l := (s.maskFields t).filter fun f => !s.offline f
  l.filter fun f => !s.avoided t f l

/-- The dispatcher may choose `fs` (R221): fields where the tenant is resident, or fields of one slice group where it is not. -/
def State.legalChoice (s : State) (t : Nat) (fs : List Nat) : Bool :=
  !fs.isEmpty && fs.all (fun f => (s.choices t).contains f)
    && (fs.all (fun f => s.residentIs f t)
      || (fs.all (fun f => !s.residentIs f t) && fs.all fun f => s.tenantsOf f == s.tenantsOf (fs.headD 0)))

/-- Shares of `n` candidates over `k` fields: as even as may be, the first fields taking the remainder (R250). -/
def evenShares (n k : Nat) : List Nat := (upTo k).map fun i => n / k + if i < n % k then 1 else 0

/-- The epoch check of R184 rejects. -/
def epochRejects (mode cur v : Nat) : Bool :=
  if mode = 0 then false else if mode = 1 then cur != v else if mode = 2 then epochBefore cur v else true

/-- DISPATCH: the oldest read descriptor whose tenant's dispatch is not paused is tested in the order of R249; `fields` is the
dispatcher's choice of fields. A choice that it could not make changes nothing. -/
def execDispatch (fields : List FieldNo) (s : State) : Out :=
  .next (
    match s.hub.reqs.find? (fun r => !r.out && !s.flag F.hubEpochStatus_PAUSED r.tenant) with
    | none => s
    | some r =>
      let t := r.tenant
      let ep := s.getF F.hubEpochStatus_EPOCH t
      let need := max r.outK 1
      let fs := ((upTo 92).filter fun f => fields.any fun g => g.val == f)
      if s.tenState t ≠ 2 then s.rejectReq r 0x11
      else if (s.maskFields t).all fun f => s.offline f then s.rejectReq r 0x3F
      else if epochRejects (bitsOf (r.dget 0x1E 1) 1 2) ep (r.dget 0x24 4) then s.rejectReq r 0x12
      else
        let room (f : Nat) : Bool := decide (s.reserved f t + need ≤ 1024)
        match s.freeSlot t, (s.choices t).any room with
        | some k, true =>
          if !s.legalChoice t fs || !room (fs.headD 0) then s
          else
            let r1 := { r with
              slot := k, epoch := ep, fields := fs, shares := evenShares r.candCount fs.length, out := true }
            let s1 := (upTo 4).foldl (fun s p => s.setF F.prtRingStat_BUSY 0 p t) s
            { s1 with hub := { s1.hub with
              reqs := s1.hub.reqs.map fun q => if q.tenant = t ∧ q.seqNo = r.seqNo ∧ !q.out then r1 else q } }
        | _, _ => (s.rejectReq r 0x11).setF F.prtRingStat_BUSY 1 r.port t)

/-- DESCRIPTOR_DELIVERY: the oldest dispatched request not yet delivered to a field reaches its sequencer. -/
def execDescriptorDelivery (f : FieldNo) (s : State) : Out :=
  .next (
    match s.hub.reqs.find? (fun r => r.out && r.fields.contains f.val && !r.delivered.contains f.val) with
    | none => s
    | some r =>
      let s1 := s.mapReq r.slot fun x => { x with delivered := x.delivered ++ [f.val] }
      let q := s1.seq f.val
      (s1.setSeq f.val { q with deliv := q.deliv ++ [r.slot] }).seqEvent f.val { kind := 1, tenant := r.tenant, arg := r.slot })

/-- Each field of a request receives its contiguous share of the candidates and the context block. -/
def State.deliverShares (s : State) (r : Req) (c x : List Byte) : State :=
  r.fields.foldl (fun s f =>
    let sh := r.shareOf f
    let q := s.seq f
    let old := q.inputs.filter fun y => y.1 != r.slot && (s.bySlot y.1).isSome
    s.setSeq f { q with inputs := old ++ [(r.slot, (c.drop (8 * sh.2)).take (8 * sh.1), x)] }) s

/-- CANDIDATE_FETCH: the reads of an admitted request's candidate list and context block, of at most 1,024 bytes each, complete
(R250). Data that is not what was read is no answer to them. -/
def execCandidateFetch (slot : BitVec 24) (cands ctx : HostRead) (s : State) : Out :=
  .next (
    match s.bySlot slot.toNat with
    | none => s
    | some r =>
      if !r.admitted || r.fetched || !s.portIssues r.port then s
      else
        let s1 := (s.hostAskAll r.port (r.dget 0x8 8) 1024 (8 * r.candCount)).hostAskAll r.port (r.dget 0x10 8) 1024 (64 * r.ctxLen)
        match cands, (if r.ctxLen = 0 then .data [] else ctx) with
        | .data c, .data x =>
          if c.length ≠ 8 * r.candCount ∨ x.length ≠ 64 * r.ctxLen then s
          else (s1.mapReq slot.toNat fun q => { q with fetched := true, cands := c, ctx := x }).deliverShares r c x
        | _, _ => ((s1.hostErr r.port).endAll slot.toNat 0x3F).startReqs)

/-! ### REJECT words, result pages, stalls (R246, R251 to R256, R259) -/

/-- A page or REJECT word of a tenant has been sent. -/
def State.sentNow (s : State) (p t : Nat) : State :=
  let s1 := s.setPort p { s.port p with sentAt := Tab.insert (s.port p).sentAt t s.now }
  (s1.setF F.prtRingStat_STALLED 0 p t).setF F.prtStat_STALL_TENANTS (putBits (s1.getF F.prtStat_STALL_TENANTS p) t 1 0) p

/-- REJECT_WORD: the tenant's oldest waiting REJECT word is written into its slot, which is returned. -/
def execRejectWord (p : Port) (t : Tenant) (s : State) : Out :=
  .next (
    match (s.port p.val).rejs.find? (fun r => r.tenant == t.val) with
    | none => s
    | some r =>
      if !s.portIssues p.val || decide (s.creditNow p.val < 8) then s
      else
        let a := s.getF F.prtRqCfg_BASE p.val t.val * 4096 + r.ringSlot % s.rqSize p.val t.val * 64 + 0x38
        let s1 := s.hostPut p.val a (bytesLE 8 (r.status + 2 ^ 8 + r.seqNo % 2 ^ 48 * 2 ^ 16))
        let x := s1.port p.val
        (s1.setPort p.val ({ x with rejs := x.rejs.erase r }.returnSlot t.val r.ringSlot true)).sentNow p.val t.val)

/-- The writes of a page of which `a` bytes are sent and `b` more may be: address offset and bytes. The last 8 bytes are the
completion word, at 0xFF8. -/
def pageWrites (body done_ : List Byte) (a b : Nat) : List (Nat × List Byte) :=
  let n := body.length
  let k := min b (n + 8 - a)
  let d := (body.drop a).take (min k (n - a))
  (if d.isEmpty then [] else [(a, d)]) ++ (if a + k = n + 8 then [(0xFF8, done_)] else [])

/-- RESULT_PAGE: the tenant's oldest waiting page is written as far as posted credit allows, in steps of 8 bytes, the completion
word last; then RS_TAIL passes it (R251, R252, R254). -/
def execResultPage (p : Port) (t : Tenant) (s : State) : Out :=
  .next (
    match (s.port p.val).pages.find? (fun g => g.tenant == t.val) with
    | none => s
    | some g =>
      if !s.portIssues p.val || s.ringFull p.val t.val then s
      else
        let x := s.port p.val
        let tail := x.index t.val 3
        let bytes := if g.sent = 0 then g.bytes.take 0x18 ++ bytesLE 8 s.now ++ g.bytes.drop 0x20 else g.bytes
        let base := s.getF F.prtRsCfg_BASE p.val t.val * 4096 + tail % s.rsSize p.val t.val * 4096
        let phase := bit (tail / s.rsSize p.val t.val % 2 == 0)
        let word := bytesLE 8 (g.status + phase * 2 ^ 8 + g.seqNo % 2 ^ 48 * 2 ^ 16)
        let k := min (s.creditNow p.val / 8 * 8) (bytes.length + 8 - g.sent)
        if k = 0 then s
        else
          let s1 := (pageWrites bytes word g.sent k).foldl (fun s w => s.hostPut p.val (base + w.1) w.2) s
          let y := s1.port p.val
          if g.sent + k < bytes.length + 8 then
            s1.setPort p.val { y with pages := y.pages.map fun h => if h = g then { g with bytes := bytes, sent := g.sent + k } else h }
          else
            let y1 := { y.setIndex t.val 3 (tail + 1) with
              pages := y.pages.erase g, irqDue := y.irqDue ++ [t.val] }
            (s1.setPort p.val y1).sentNow p.val t.val)

/-- POSTED_CREDIT_RETURN: the host returns posted credit of `n` bytes. -/
def execPostedCreditReturn (p : Port) (n : Nat) (s : State) : Out :=
  .next ((s.setPort p.val { s.port p.val with credit := (s.port p.val).credit + n }).sendLate p.val)

/-- PORT_STALL: pages or REJECT words of a tenant wait and none has been sent for 50 ms (R255). -/
def execPortStall (p : Port) (t : Tenant) (s : State) : Out :=
  .next (
    let x := s.port p.val
    if x.waiting t.val == 0 || s.flag F.prtRingStat_STALLED p.val t.val
        || decide (s.now < Tab.get (fun _ => 0) x.sentAt t.val + 50000000) then s
    else
      let s1 := ((s.setF F.prtStat_PORT_STALL 1 p.val).setF F.prtRingStat_STALLED 1 p.val t.val).setF F.prtStat_STALL_TENANTS
        (putBits (s.getF F.prtStat_STALL_TENANTS p.val) t.val 1 1) p.val
      (s1.portEvent p.val).rasEvent
        { kind := 0x0A, tenant := t.val, injected := decide (Tab.get (fun _ => 0) x.sentAt t.val < x.withheldUntil), arg := p.val })

/-- RING_INTERRUPT: the ring's message is sent, at most once per IRQ_GAP; with a gap of 0 each event has a message of its own, else one
stands for all that wait (R259). -/
def execRingInterrupt (p : Port) (t : Tenant) (s : State) : Out :=
  .next (
    let x := s.port p.val
    let gap := s.getF F.prtRingCtrl_IRQ_GAP p.val t.val * 1000
    let early := match x.irqAt.find? (fun e => e.1 == t.val) with
      | some e => decide (s.now < e.2 + gap)
      | none => false
    if !x.irqDue.contains t.val || early || !s.portIssues p.val || s.creditNow p.val == 0 then s
    else
      (s.setPort p.val { x with
        irqDue := if gap = 0 then x.irqDue.erase t.val else x.irqDue.filter fun u => u != t.val, irqAt := Tab.insert x.irqAt t.val s.now }).sendMsi p.val
          (s.getF F.prtRingCtrl_VEC p.val t.val))

/-- FLUSH: every waiting page and REJECT word of the tenant is discarded; RQ_HEAD passes the discarded slots (R256). -/
def State.flushRing (s : State) (p t : Nat) : State :=
  let x := s.port p
  let l := x.rejs.filter fun r => r.tenant == t
  let n := x.waiting t
  let y := l.foldl (fun (y : PortSt) r => y.returnSlot t r.ringSlot false)
    { x with rejs := x.rejs.filter (fun r => r.tenant != t), pages := x.pages.filter fun g => g.tenant != t }
  ((s.setPort p y).countF F.prtRingStat_FLUSHED n p t).setF F.prtRingStat_STALLED 0 p t |>.setF F.prtStat_STALL_TENANTS
    (putBits (s.getF F.prtStat_STALL_TENANTS p) t 1 0) p

/-- ENABLE goes from 0 to 1: the indices start at 0; requests of an earlier period keep no slot of the new one. -/
def State.ringStart (s : State) (p t : Nat) : State :=
  let x := s.port p
  let old (i : Nat) : Nat := if i < 2 ^ 32 then i + 2 ^ 32 else i
  let y := (((x.setIndex t 0 0).setIndex t 1 0).setIndex t 2 0).setIndex t 3 0
  let s1 := s.setPort p { y with
    returned := x.returned.filter (fun r => r.1 != t), rejected := x.rejected.filter (fun r => r.1 != t),
    published := x.published.map fun e => if e.1 = t then (e.1, old e.2.1, e.2.2) else e }
  let s2 := { s1 with hub := { s1.hub with
    reqs := s1.hub.reqs.map fun (r : Req) => if r.port = p ∧ r.tenant = t then { r with ringSlot := old r.ringSlot } else r } }
  (s2.setF F.prtRingCtrl_ENABLE 1 p t).setF F.prtRingStat_ENABLED 1 p t

/-- A write of `PRT_RING_CTRL[t]` of port `p` (R243, R256): FLUSH first, then ENABLE, which is judged as the rings then stand;
`en` says whether the write reaches ENABLE. -/
def State.ringCtrl (s : State) (p t v : Nat) (en : Bool) : State :=
  let s1 := if bitsOf v 1 1 = 1 then s.flushRing p t else s
  if !en then s1
  else if bitsOf v 0 1 = 0 then (s1.setF F.prtRingCtrl_ENABLE 0 p t).setF F.prtRingStat_ENABLED 0 p t
  else
    let rq := s1.getF F.prtRqCfg_LOG2 p t
    let rs := s1.getF F.prtRsCfg_LOG2 p t
    if s1.getF F.hubTenStat_OWNED t = 0 ∨ s1.getF F.hubTenStat_OWNER t ≠ p ∨ (s1.tenState t ≠ 1 ∧ s1.tenState t ≠ 2)
        ∨ rq < 4 ∨ 16 < rq ∨ rs < 2 ∨ 14 < rs ∨ (s1.port p).waiting t ≠ 0 then s1.setF F.prtRingStat_REFUSED 1 p t
    else if s1.flag F.prtRingCtrl_ENABLE p t then s1 else s1.ringStart p t

/-- A write of `PRT_RQ_CFG[t]` or `PRT_RS_CFG[t]` is accepted: the ring is disabled and idle (R260). -/
def State.ringIdle (s : State) (p t : Nat) : Bool := !s.flag F.prtRingCtrl_ENABLE p t && (s.port p).waiting t == 0

/-! ### Host accesses to HBM (R225, R226, R241, R242) -/

/-- A port checks its accesses against the windows of a tenant: one it owns that is ACTIVE or STOPPING (R225). -/
def State.hostChecks (s : State) (p t : Nat) : Bool :=
  (s.tenState t == 2 || s.tenState t == 3) && s.getF F.hubTenStat_OWNER t == p

/-- The windows of some ACTIVE or STOPPING tenant that a port owns grant an access. -/
def State.hostGrant (s : State) (p ga len perm : Nat) : Bool :=
  (upTo 16).any fun t => s.hostChecks p t && s.winCheck t ga len perm

/-- The window check of a host access is held: no tenant whose checks go on grants it, and those of another are held (R229). -/
def State.hostHeld (s : State) (p ga len perm : Nat) : Bool :=
  (upTo 16).any (fun t => s.hostChecks p t && s.holding t)
    && !(upTo 16).any fun t => s.hostChecks p t && !s.holding t && s.winCheck t ga len perm

/-- The access reaches the port: its link is up and, over CXL.mem, the HDM decoder is committed. -/
def State.hostPath (s : State) (p : Nat) (path : HostPath) : Bool :=
  s.linkUp p && (path != .cxl || (s.flag F.prtLink_CXL p && s.flag F.prtLink_HDM p))

/-- Why an access is refused, in the order of R242 (Table 11.7 WHY): 0 when it is not. -/
def State.hostWhy (s : State) (p : Nat) (path : HostPath) (a len : Nat) (wr : Bool) : Nat :=
  if path = .atomicOp then 5
  else if hbmSize < a + len then 1
  else if rangeInSystem a len then 2
  else if !s.hostGrant p a len (if wr then 5 else 4) then 3
  else if wr && (s.banksOver a len).any fun x => decide (2 ≤ (s.tbl x.1 x.2.1).st x.2.2) then 4
  else 0

/-- Record a refusal. -/
def State.refuseHost (s : State) (p a why : Nat) (wr : Bool) : State :=
  let s1 := ((s.setF F.prtRefuse_ADDR a p).setF F.prtRefuse_WHY why p).setF F.prtRefuse_WRITE (bit wr) p
  (s1.countF F.prtRefuse_COUNT 1 p).setF F.prtStat_REFUSE 1 p

/-- A host read of HBM: refused, with bytes of 0xFF over BAR4 and poisoned MemData over CXL.mem, or served. An offline stack answers as
a refused one (R167); an uncorrectable error is poison (R164). -/
def State.hostReadNow (s : State) (p : Nat) (path : HostPath) (a len : Nat) : State :=
  let none_ : Option (List Byte) := if path = .cxl then none else some (List.replicate len 0xFF)
  let w := s.hostWhy p path a len false
  if w = 5 then s.refuseHost p a w false
  else if w ≠ 0 then (s.refuseHost p a w false).hostReply p a none_
  else if s.stackOff (stackOf a) then s.hostReply p a none_
  else (let r := s.hbmRead a len; r.2.hostReply p a r.1)

/-- A host write to HBM: refused, with DENIED counted for a bank, or performed. -/
def State.hostWriteNow (s : State) (p : Nat) (path : HostPath) (a : Nat) (data : List Byte) : State :=
  let w := s.hostWhy p path a data.length true
  if w = 0 then s.hbmStore a data
  else
    let s1 := s.refuseHost p a w true
    if w ≠ 4 then s1
    else
      let hit := ((s.banksOver a data.length).filter fun x => decide (2 ≤ (s.tbl x.1 x.2.1).st x.2.2)).map fun x => (x.1, x.2.1)
      hit.eraseDups.foldl (fun s x => s.setTbl x.1 x.2 { s.tbl x.1 x.2 with denied := satAdd 0xFFFF (s.tbl x.1 x.2).denied 1 }) s1

/-- A host access to HBM: held where R229 holds its window check, after the checks that come before, else performed. -/
def State.hostAccess (s : State) (p : Nat) (h : HeldAcc) : State :=
  let early := decide (h.path = .atomicOp) || decide (hbmSize < h.addr + h.len) || rangeInSystem h.addr h.len
  if !early && s.hostHeld p h.addr h.len (if h.data.isSome then 5 else 4) then
    s.setPort p { s.port p with held := (s.port p).held ++ [h] }
  else match h.data with
    | none => s.hostReadNow p h.path h.addr h.len
    | some d => s.hostWriteNow p h.path h.addr d

/-- The held accesses of a port are checked again, in order (R229). -/
def State.hostResume (s : State) (p : Nat) : State :=
  (s.port p).held.foldl (fun s h => s.hostAccess p h) (s.setPort p { s.port p with held := [] })

/-- WINDOW_DRAIN: every access checked under an earlier epoch has completed: DRAIN reads 1 and held checks go on, those of the ports
at once. -/
def execWindowDrain (t : Tenant) (s : State) : Out :=
  .next (
    let e := s.getF F.hubWinEpoch_EPOCH t.val
    if s.hub.commits.any (fun c => c.tenant == t.val) || s.mesh.outst.any (fun a => a.winTenant == t.val && a.winEpoch != e) then s
    else (upTo 4).foldl State.hostResume ((s.setF F.hubWinDrain_DRAIN 1 t.val).setF F.hubWinDrain_HOLDING 0 t.val))

/-! ### Configuration space and component registers (R236 to R240) -/

/-- The Revision ID: from the stepping letter and digit in the OTP (R236, Table 15.3). -/
def State.revisionId (s : State) : Nat :=
  let b (a : Nat) : Nat := (Tab.get zeroByte s.sec.otp a).toNat
  ((b 0x3C4 - 0x41) * 16 + (b 0x3C5 - 0x30)) % 256

/-- The identity of the function in the header of its configuration space: offset and bytes (R236; the header's layout is PCI's,
assumption 133). -/
def State.pciIdentity (s : State) : List (Nat × List Byte) :=
  [(0x00, bytesLE 2 Config.vendorId.toNat), (0x02, bytesLE 2 0x4B01), (0x08, bytesLE 1 s.revisionId), (0x09, bytesLE 3 0x120000),
   (0x2C, bytesLE 2 Config.vendorId.toNat), (0x2E, bytesLE 2 0x0001)]

/-- A byte of the configuration space: the identity, Bus Master Enable, else what the host wrote. -/
def State.configByte (s : State) (p a : Nat) : Byte :=
  match s.pciIdentity.find? fun x => decide (x.1 ≤ a) && decide (a < x.1 + x.2.length) with
  | some x => x.2[a - x.1]?.getD 0
  | none =>
    let v := Tab.get zeroByte (s.port p).cfg a
    if a = 4 then BitVec.ofNat 8 (putBits v.toNat 2 1 (bit (s.port p).bme)) else v

/-- A host write of the configuration space; bit 2 of its command byte is Bus Master Enable. -/
def State.configWrite (s : State) (p a : Nat) (d : List Byte) : State :=
  let s1 := s.setPort p { s.port p with cfg := Tab.writeBytes zeroByte (s.port p).cfg a d }
  match d[4 - a]? with
  | some v => if a ≤ 4 then (s1.setPort p { s1.port p with bme := v.getLsbD 2 }).sendLate p else s1
  | none => s1

/-- A host read through BAR2: tenant pages, then the CXL component registers, which read 0 without CXL (R239); what they hold with
CXL beside the commit of the decoder the spec does not give. -/
def State.bar2Answer (s : State) (p a len : Nat) : State :=
  if a < 0x10000 then
    (let r := s.bar2Read p (a / 0x1000) (a % 0x1000) len
     r.2.hostReply p a (some (bytesLE len r.1)))
  else if 0x20000 ≤ a then s
  else if s.flag F.prtLink_CXL p then (let r := s.freeBytes len; r.2.hostReply p a (some r.1))
  else s.hostReply p a (some (List.replicate len 0))

/-- HOST_MEMORY_READ: a read of HBM (R242), of BAR2 or of the configuration space. -/
def execHostMemoryRead (p : Port) (path : HostPath) (addr : BitVec 40) (len : Nat) (s : State) : Out :=
  .next (
    if !s.hostPath p.val path then s
    else match path with
      | .bar2 => s.bar2Answer p.val addr.toNat len
      | .config => s.hostReply p.val addr.toNat (some ((upTo len).map fun i => s.configByte p.val (addr.toNat + i)))
      | _ => s.hostAccess p.val ⟨path, addr.toNat, len, none⟩)

/-- HOST_MEMORY_WRITE: a write of HBM (R242), of BAR2 or of the configuration space. The CXL component registers take no write
without CXL, and with it only the commit, which has a command of its own (R239). -/
def execHostMemoryWrite (p : Port) (path : HostPath) (addr : BitVec 40) (data : List Byte) (s : State) : Out :=
  .next (
    let a := addr.toNat
    if !s.hostPath p.val path then s
    else match path with
      | .bar2 =>
        if 0x10000 ≤ a then s
        else if data.length = 4 then s.bar2Write p.val (a / 0x1000) (a % 0x1000) .w32 (natLE data)
        else if data.length = 8 then s.bar2Write p.val (a / 0x1000) (a % 0x1000) .w64 (natLE data)
        else s.badDoorbell p.val
      | .config => s.configWrite p.val a data
      | _ => s.hostAccess p.val ⟨path, a, data.length, some data⟩)

/-! ### The far tier (R257, R258) -/

/-- FAR_TIER_ACCESS: the oldest far-tier access mapped to the port completes there. -/
def execFarTierAccess (p : Port) (r : HostRead) (s : State) : Out :=
  .next (
    match s.mesh.pkts.find? (fun k => k.arrived && k.dst == .far && !k.isResp && k.hostAt.1 == p.val) with
    | none => s
    | some k =>
      let s1 := s.dropPkt k.id
      if !s.portIssues p.val then s
      else match k.op with
        | .read =>
          if k.err != .ok then s1.respond k .readData .poison [] true false
          else (let s2 := s1.hostAskAll p.val k.hostAt.2 256 k.len
            match r with
            | .data d => s2.respond k .readData .ok (d.take k.len) true false
            | .failed => (s2.hostErr p.val).respond k .readData .poison [] true false)
        | _ =>
          if k.err != .ok then s1.respond k .writeAck .poison [] true false
          else if s.creditNow p.val < k.data.length then s
          else (s1.hostPut p.val k.hostAt.2 k.data).respond k .writeAck .ok [] true false)

/-! ### Links and resets of a port (R237, R238, R326) -/

/-- The link leaves L0: the port's traffic is held, and a half-written page starts again. -/
def State.portDown (s : State) (p : Nat) : State :=
  if !s.linkUp p then s
  else
    let s1 := (((((s.setF F.prtLink_UP 0 p).setF F.prtLink_FLIT 0 p).setF F.prtLink_CXL 0 p).setF F.prtLink_RATE 0 p).setF
      F.prtLink_WIDTH 0 p).countF F.prtLink_DOWNS 1 p
    let x := s1.port p
    (s1.setF F.prtStat_LINK_DOWN 1 p).setPort p { x with pages := x.pages.map fun g => { g with sent := 0 } }

/-- LINK_DOWN. -/
def execLinkDown (p : Port) (s : State) : Out := .next (s.portDown p.val)

/-- A link trains so: a rate of Table 11.1, one of its widths, and flit mode at 64.0 GT/s. -/
def linkTrains (x : LinkPartner) : Bool :=
  decide (x.rate.toNat ≤ 5) && [1, 2, 4, 8, 16].contains x.width.toNat && (x.flit || decide (x.rate.toNat < 5))

/-- A port's link reaches L0; CXL needs CXL_EN and the partner. -/
def State.portUp (s : State) (x : LinkPartner) : State :=
  let q := x.port.val
  let s1 := ((s.setF F.prtLink_UP 1 q).setF F.prtLink_FLIT (bit x.flit) q).setF F.prtLink_CXL
    (bit (x.cxl && s.flag F.prtCfg_CXL_EN q)) q
  ((s1.setF F.prtLink_RATE x.rate.toNat q).setF F.prtLink_WIDTH x.width.toNat q).sendLate q

/-- LINK_UP: the link reaches L0 once the unit has booted, in a way that Table 11.1 supports. -/
def execLinkUp (p : Port) (flit cxl : Bool) (rate : BitVec 3) (width : BitVec 5) (s : State) : Out :=
  .next (
    if !linkTrains ⟨p, flit, cxl, rate, width⟩ || s.linkUp p.val || decide (s.getF F.secBootStat_STEP < 11) || s.flag F.secBootStat_SAFE || s.getF F.secBootStat_LC == 3 then s
    else s.portUp ⟨p, flit, cxl, rate, width⟩)

/-- BUS_MASTER_ENABLE. -/
def execBusMasterEnable (p : Port) (on : Bool) (s : State) : Out :=
  .next (if !s.linkUp p.val then s else (s.setPort p.val { s.port p.val with bme := on }).sendLate p.val)

/-- HDM_DECODER_COMMIT: only a port that runs CXL has the decoder (R239). -/
def execHdmDecoderCommit (p : Port) (s : State) : Out :=
  .next (if s.linkUp p.val && s.flag F.prtLink_CXL p.val then s.setF F.prtLink_HDM 1 p.val else s)

/-- PORT_RESET: the configuration space is reset and Bus Master Enable returns to 0; an FLR is recorded; PERST#, a hot reset or an FLR retrains the link (Table 15.1),
and PERST# or a hot reset also loses the HDM decoder. -/
def execPortReset (p : Port) (kind : PortResetKind) (s : State) : Out :=
  .next (
    let q := p.val
    let s1 := s.setPort q { s.port q with bme := false, cfg := [] }
    match kind with
    | .d3hot => s1
    | .flr => (s1.setF F.prtStat_FLR 1 q).portDown q
    | .perst => (s1.setF F.prtLink_HDM 0 q).portDown q
    | .hotReset => (s1.setF F.prtLink_HDM 0 q).portDown q)

end Sys2Proof.Machine
end

