-- ==== Sys2Proof/Machine/Map.lean ====
section
/-! DEFINITION. Field maps (R31 to R37), the map registers (R44), the defect store (R39, R333, R334) and the unit's health
(R42, R43). -/

namespace Sys2Proof.Machine

open Sys2Proof

/-! ### R35 -/

/-- Bad tiles of a physical row. -/
def badInRow (bad : List Nat) (r : Nat) : Nat := (bad.filter fun p => p / 72 == r).length

/-- The map of R35; none when more than two rows are forced. -/
def mapOf (bad : List Nat) : Option FMap :=
  let forced := (upTo 72).filter fun r => decide (3 ≤ badInRow bad r)
  let others := ((upTo 72).reverse).filter fun r => !forced.contains r
  match forced ++ others with
  | a :: b :: _ =>
    if 2 < forced.length then none
    else
      let lo := min a b
      let hi := max a b
      some { r0 := lo, r1 := hi, f0 := forced.contains lo, f1 := forced.contains hi, bad := bad }
  | _ => none

/-- The two skipped columns of a used row, in ascending order, and whether each tile is bad. -/
def FMap.cols (m : FMap) (r : Nat) : (Nat × Bool) × (Nat × Bool) :=
  let isBad (c : Nat) : Bool := m.bad.contains (r * 72 + c)
  let bc := (upTo 72).filter isBad
  let gc := ((upTo 72).reverse).filter fun c => !isBad c
  match bc ++ gc with
  | a :: b :: _ => ((min a b, isBad (min a b)), (max a b, isBad (max a b)))
  | _ => ((0, false), (0, false))

/-- The logical row that a physical row holds; 0x7F for a skipped one. -/
def FMap.lrow (m : FMap) (r : Nat) : Nat :=
  if r = m.r0 ∨ r = m.r1 then 0x7F else r - (if m.r0 < r then 1 else 0) - (if m.r1 < r then 1 else 0)

/-- The physical row of a logical row. -/
def FMap.prowOf (m : FMap) (ly : Nat) : Nat :=
  let y := if m.r0 ≤ ly then ly + 1 else ly
  if m.r1 ≤ y then y + 1 else y

/-- The physical column of a logical column in a row. -/
def skipCol (c : (Nat × Bool) × (Nat × Bool)) (lx : Nat) : Nat :=
  let x := if c.1.1 ≤ lx then lx + 1 else lx
  if c.2.1 ≤ x then x + 1 else x

/-- The largest hop count of a neighbour link (R125). -/
def FMap.maxHops (m : FMap) : Nat :=
  let rows := (upTo 70).map fun ly => (m.prowOf ly, m.cols (m.prowOf ly))
  let ew := rows.foldl (fun a r => (upTo 69).foldl (fun a x => max a (skipCol r.2 (x + 1) - skipCol r.2 x)) a) 0
  (rows.zip (rows.drop 1)).foldl (fun a r =>
    (upTo 70).foldl (fun a x => max a (r.2.1 - r.1.1 + absDiff (skipCol r.1.2 x) (skipCol r.2.2 x))) a) ew

/-- The numbers from `a` to `b`, ascending or descending. -/
def walk (a b : Nat) : List Nat :=
  if a ≤ b then (upTo (b - a + 1)).map (a + ·) else (upTo (a - b + 1)).map (a - ·)

/-- The physical tiles that the link from a logical tile to its east or south neighbour passes, ends included (R125): east along its
row; south in its own column down to the lower row, then along that row. -/
def FMap.linkPath (m : FMap) (lx ly : Nat) (south : Bool) : List Nat :=
  let r := m.prowOf ly
  let c := skipCol (m.cols r) lx
  if south then
    let r2 := m.prowOf (ly + 1)
    let c2 := skipCol (m.cols r2) lx
    (walk r r2).map (fun y => y * 72 + c) ++ ((walk c c2).drop 1).map fun x => r2 * 72 + x
  else (walk c (skipCol (m.cols r) (lx + 1))).map fun x => r * 72 + x

/-- The detour code of an in-field node (R132): the pass-lane path of each of its four links; empty toward a missing neighbour. A
northbound or westbound link takes its neighbour's path in reverse. -/
def FMap.detour (m : FMap) (lt : Nat) (d : Dir) : List Nat :=
  let x := lt % 70
  let y := lt / 70
  match d with
  | .n => if y = 0 then [] else (m.linkPath x (y - 1) true).reverse
  | .e => if x = 69 then [] else m.linkPath x y false
  | .s => if y = 69 then [] else m.linkPath x y true
  | .w => if x = 0 then [] else (m.linkPath (x - 1) y false).reverse

/-- The logical links, as tile and direction, whose path crosses from physical tile `a` to its neighbour `b`, in ascending order. -/
def FMap.linksOver (m : FMap) (a b : Nat) : List (Nat × Dir) :=
  let near := (upTo 4900).filter fun lt => decide (absDiff (m.prowOf (lt / 70)) (a / 72) ≤ 3)
  (near.flatMap fun lt => [(lt, Dir.n), (lt, .e), (lt, .s), (lt, .w)]).filter fun x =>
    let p := m.detour x.1 x.2
    (p.zip (p.drop 1)).contains (a, b)

/-- The lane of a physical link that the Hub assigns to a logical link over it: 0 the core lane, 1 and 2 the pass lanes, in the
order of the links (assumption 131). -/
def FMap.laneOf (m : FMap) (a b : Nat) (l : Nat × Dir) : Nat := (m.linksOver a b).idxOf l

/-- Used rows whose two skipped tiles are both bad. -/
def FMap.rowsFull (m : FMap) : Nat := ((upTo 70).filter fun ly => badInRow m.bad (m.prowOf ly) == 2).length

/-! ### The defect store (R39, R333, R334) -/

/-- An append entry, as a number. -/
def State.appendEntry (s : State) (i : Nat) : Nat := Tab.readLE zeroByte s.sec.store (49152 + 8 * i) 8

/-- Entries used: the number of the highest-numbered entry that is not free, plus one. -/
def State.appendUsed (s : State) : Nat :=
  (s.sec.store.filter fun x => decide (49152 ≤ x.1) && decide (x.1 < 65536) && x.2 != 0).foldl (fun a x => max a ((x.1 - 49152) / 8 + 1)) 0

/-- An entry that is not free and is not ignored. -/
def entryGood (v : Nat) : Bool :=
  v != 0 && bitsOf v 56 8 == crc8 (bytesLE 7 v) && bitsOf v 22 34 == 0 && decide (bitsOf v 2 7 < 96)
    && ((bitsOf v 0 2 == 1 && decide (bitsOf v 9 13 < 5184)) || (bitsOf v 0 2 == 2 && bitsOf v 9 13 == 0))

/-- The entries of the append area. -/
def State.appendEntries (s : State) : List Nat := (upTo s.appendUsed).map s.appendEntry

/-- Burn an append entry of KIND 1 (fence) or 2 (retirement), when one is free. -/
def State.burnEntry (s : State) (kind pf pt : Nat) : State :=
  let n := s.appendUsed
  if 2048 ≤ n then s
  else
    let v := kind + pf * 4 + pt * 512
    let d := bytesLE 7 v
    { s with sec := { s.sec with store := Tab.writeBytes zeroByte s.sec.store (49152 + 8 * n) (d ++ [BitVec.ofNat 8 (crc8 d)]) } }

/-- The bad tiles of a physical field. -/
def State.badOf (s : State) (pf : Nat) : List Nat := ((s.ras.badTiles.filter fun x => x.1 == pf).map (·.2)).eraseDups

/-- Tiles join the bad set of a physical field. -/
def State.addBad (s : State) (pf : Nat) (l : List Nat) : State :=
  { s with ras := { s.ras with badTiles := s.ras.badTiles ++ (l.filter fun t => !(s.badOf pf).contains t).map fun t => (pf, t) } }

/-- The ports of a trunk router that have no link, N, E, S, W in bit order (Table 6.9). -/
def absentPorts (p : Nat) : Nat :=
  bit (prow p == 0) + 2 * bit (pcol p == 11) + 4 * bit (prow p == 7) + 8 * bit (pcol p == 0)

/-! ### Map registers -/

/-- The home stack of a physical field (R30). -/
def homeOfField (pf : Nat) : Nat := prow pf / 2 * 4 + pcol pf / 3

/-- The detour codes of the trunk routers, from the defect record (R132), and their missing ports (Table 6.9). -/
def State.loadTwins (s : State) : State :=
  (upTo 96).foldl (fun s p => (s.setF F.hubBrTrunk_TWIN (Tab.get (fun _ => 0) s.sec.facTwin p) p).setF F.hubBrTrunk_ABSENT (absentPorts p) p) s

/-- Write the map registers of logical field `f`, placed on physical field `pf` under map `m`, and load its nodes' detour codes and
lanes; MAP_GEN is kept. -/
def State.loadMap (s : State) (f pf : Nat) (m : FMap) : State :=
  let gen := s.getF F.fldId_MAP_GEN f
  let s1 := s.setReg .fldId f 0 0 (packF [(F.fldId_LFIELD, f), (F.fldId_PFIELD, pf), (F.fldId_PROW, prow pf),
    (F.fldId_PCOL, pcol pf), (F.fldId_HOME_STACK, homeOfField pf), (F.fldId_MAP_GEN, gen)])
  let s2 := s1.setReg .fldMapRows f 0 0 (packF [(F.fldMapRows_SKIP_ROW0, m.r0), (F.fldMapRows_FORCED0, bit m.f0),
    (F.fldMapRows_SKIP_ROW1, m.r1), (F.fldMapRows_FORCED1, bit m.f1), (F.fldMapRows_FEED_PROW, m.prowOf 69),
    (F.fldMapRows_DRAIN_PROW, m.prowOf 68)])
  let free := bit (!m.f0) + bit (!m.f1)
  let s3 := s2.setReg .fldMapStatus f 0 0 (packF [(F.fldMapStatus_BAD_TILES, m.bad.length),
    (F.fldMapStatus_ROW_SPARES_FREE, free), (F.fldMapStatus_ROWS_FULL, m.rowsFull),
    (F.fldMapStatus_AT_RISK, bit (free == 0 && decide (0 < m.rowsFull)))])
  let s4 := (upTo 72).foldl (fun s r =>
    let c := m.cols r
    s.setReg .fldColskip f r 0 (if m.lrow r = 0x7F then packF [(F.fldColskip_LROW, 0x7F), (F.fldColskip_SKIPPED, 1)]
      else packF [(F.fldColskip_SKIP_COL0, c.1.1), (F.fldColskip_BAD0, bit c.1.2), (F.fldColskip_SKIP_COL1, c.2.1),
        (F.fldColskip_BAD1, bit c.2.2), (F.fldColskip_LROW, m.lrow r)])) s3
  let s5 := s4.setReg .fldBrStat f 0 0 (packF [(F.fldBrStat_LOADED, 1), (F.fldBrStat_LANE_GEN, gen), (F.fldBrStat_MAX_HOPS, m.maxHops)])
  s5.setField f { s5.field f with lanes := some m }

/-- The map registers of an offline field (Table 2.4). -/
def State.loadOffline (s : State) (f : Nat) : State :=
  let gen := s.getF F.fldId_MAP_GEN f
  let s1 := s.setReg .fldId f 0 0 (packF [(F.fldId_LFIELD, f), (F.fldId_OFFLINE, 1), (F.fldId_PFIELD, 0x7F), (F.fldId_MAP_GEN, gen)])
  let s2 := ((s1.setReg .fldMapRows f 0 0 0).setReg .fldMapStatus f 0 0 0).setReg .fldBrStat f 0 0 0
  (upTo 72).foldl (fun s r => s.setReg .fldColskip f r 0 (Reg.resetVal .fldColskip)) (s2.setField f { s2.field f with lanes := none })

/-- Count a map change. -/
def State.mapChanged (s : State) (f : Nat) : State := s.countF F.fldId_MAP_GEN 1 f

/-- Set what `FLD_PMAP[p]` says: field held, role. -/
def State.setPmap (s : State) (p lf role : Nat) : State :=
  s.setReg .fldPmap p 0 0 (packF [(F.fldPmap_LFIELD, lf), (F.fldPmap_ROLE, role), (F.fldPmap_HOME_STACK, homeOfField p)])

/-- Switch a domain on or off; one in FAULT stays off until the next boot (R302). -/
def State.setDomain (s : State) (d : Nat) (on : Bool) : State :=
  if s.getF F.pwrDom_STATE d = 3 then s else s.setF F.pwrDom_STATE (2 * bit on) d

/-- The preference order of R36. -/
def preference : List Nat :=
  let c := [0, 11, 84, 95]
  ((upTo 96).filter fun p => !c.contains p) ++ c

/-- The spare fields, in preference order. -/
def State.spares (s : State) : List Nat := preference.filter fun p => s.getF F.fldPmap_ROLE p == 1

/-! ### Health (R42) -/

/-- Recompute `FLD_UNIT_HEALTH`; a change of STATE, or a first STATE other than NOMINAL, sets STATE_EVT and raises an event. -/
def State.healthUpdate (s : State) (first : Bool) : State :=
  let off := ((upTo 92).filter fun f => s.offline f).length
  let es := s.appendEntries.filter entryGood
  let free := 2048 - s.appendUsed
  let st := if 0 < off then 2 else if 0 < s.spares.length ∧ 64 ≤ free then 0 else 1
  let was := s.getF F.fldUnitHealth_STATE
  let evt := if first then st != 0 else st != was
  let s1 := s.setReg .fldUnitHealth 0 0 0 (packF [(F.fldUnitHealth_STATE, st), (F.fldUnitHealth_SPARE_FIELDS, s.spares.length),
    (F.fldUnitHealth_OFFLINE, off), (F.fldUnitHealth_STORE_LOW, bit (decide (free < 64))),
    (F.fldUnitHealth_STORE_FULL, bit (free == 0)),
    (F.fldUnitHealth_RETIRED, (es.filter fun v => bitsOf v 0 2 == 2).length),
    (F.fldUnitHealth_FENCED, (es.filter fun v => bitsOf v 0 2 == 1).length),
    (F.fldUnitHealth_STATE_EVT, if evt then 1 else s.getF F.fldUnitHealth_STATE_EVT)])
  if evt then s1.rasEvent { kind := 5, arg := st } else s1

end Sys2Proof.Machine
end

