-- ==== Sys2Proof/Machine/Ras.lean ====
section
/-! DEFINITION. Witness execution, suspects, fences, retirements and self-tests (R279 to R292), hardened registers (R293, R294),
injections (R297, R298) and event messages (R296). -/

namespace Sys2Proof.Machine

open Sys2Proof

/-- 24 hours, in ns. -/
def day : Nat := 86400000000000

/-! ### Fence requests (R288) -/

/-- The pending fences: entry, physical field, physical tile. -/
def State.pendFences (s : State) : List (Nat × Nat × Nat) :=
  ((upTo 16).filter fun i => s.flag F.rasFencePend_VALID i).map fun i =>
    (i, s.getF F.rasFencePend_PFIELD i, s.getF F.rasFencePend_PTILE i)

/-- Remove a pending fence. -/
def State.dropFence (s : State) (i : Nat) : State :=
  let s1 := s.setReg .rasFencePend i 0 0 0
  { s1 with ras := { s1.ras with
    fenceDue := Tab.erase s1.ras.fenceDue i, fenceAt := Tab.erase s1.ras.fenceAt i, fenceInj := Tab.erase s1.ras.fenceInj i } }

/-- Enter a fence into the list; none when it is full. -/
def State.enterFence (s : State) (pf pt : Nat) (cmd : Bool) (hold : Nat) (inj : Bool) : Option State :=
  match (upTo 16).find? (fun i => !s.flag F.rasFencePend_VALID i) with
  | none => none
  | some i =>
    let s1 := s.setReg .rasFencePend i 0 0 (packF [(F.rasFencePend_VALID, 1), (F.rasFencePend_PFIELD, pf),
      (F.rasFencePend_PTILE, pt), (F.rasFencePend_CMD, bit cmd)])
    some { s1 with ras := { s1.ras with
      fenceDue := Tab.insert s1.ras.fenceDue i (s.now + hold * 1000000), fenceAt := Tab.insert s1.ras.fenceAt i s.now,
      fenceInj := Tab.insert s1.ras.fenceInj i (bit inj) } }

/-- A fence raised by the engine: HOLD 0; with the list full the quiesce of its field starts at once. One that the engine has raised
and that is still pending is not entered twice; a commanded one with its own HOLD is no such fence. -/
def State.engineFence (s : State) (pf pt : Nat) (inj : Bool) : State :=
  if (s.badOf pf).contains pt || s.pendFences.any (fun x => x.2 == (pf, pt) && !s.flag F.rasFencePend_CMD x.1)
    || s.ras.extra.any (fun x => x.1 == pf && x.2.1 == pt) then s
  else match s.enterFence pf pt false 0 inj with
    | some s1 => s1
    | none => { s with ras := { s.ras with extra := s.ras.extra ++ [(pf, pt, inj)] } }

/-- A RAS_ command was refused. -/
def State.rasRefuse (s : State) : State := s.setF F.rasCtrl_REFUSED 1

/-- A write of `RAS_FENCE_CMD` (R288, R290, R232). UNFENCE removes the commanded fences of the tile; where none is pending, the
engine's (assumption 139). -/
def State.fenceCmd (s : State) (v : Nat) : State :=
  let op := bitsOf v 0 2
  let f := bitsOf v 2 7
  let t := bitsOf v 9 13
  if op = 0 then s
  else if 92 ≤ f ∨ s.offline f ∨ (op ≠ 3 ∧ 4900 ≤ t) then s.rasRefuse
  else
    let pf := s.pfield f
    let pt := s.ptile f t
    if op = 1 then (s.enterFence pf pt true (bitsOf v 32 16) false).getD s.rasRefuse
    else if op = 2 then
      let l := s.pendFences.filter fun x => x.2 == (pf, pt)
      let cmd := l.filter fun x => s.flag F.rasFencePend_CMD x.1
      if l.isEmpty then s.rasRefuse
      else ((if cmd.isEmpty then l else cmd).filter fun x => !(s.flag F.rasFencePend_CMD x.1 && Tab.get (fun _ => 0) s.ras.fenceAt x.1 == s.now)).foldl
        (fun s x => s.dropFence x.1) s
    else { s with ras := { s.ras with retire := if s.ras.retire.contains f then s.ras.retire else s.ras.retire ++ [f] } }

/-! ### Suspects (R286, R287) -/

/-- The entry of a physical tile in the suspect table. -/
def State.suspectAt (s : State) (pf pt : Nat) : Option Nat :=
  (upTo 128).find? fun i => s.flag F.rasSuspect_VALID i && s.getF F.rasSuspect_PFIELD i == pf && s.getF F.rasSuspect_PTILE i == pt

/-- Remove an entry. -/
def State.dropSuspect (s : State) (i : Nat) : State :=
  let s1 := s.setReg .rasSuspect i 0 0 0
  { s1 with ras := { s1.ras with
    suspAt := Tab.erase s1.ras.suspAt i, confAt := Tab.erase s1.ras.confAt i,
    obsAt := Tab.erase s1.ras.obsAt i } }

/-- When an entry's latest mismatch was. -/
def State.suspTime (s : State) (i : Nat) : Nat := Tab.get (fun _ => 0) s.ras.suspAt i

/-- CONF of an entry: its tile has had a confirmed mismatch within 24 h (Table 13.7). -/
def State.confNow (s : State) (i : Nat) : Bool :=
  s.flag F.rasSuspect_CONF i && decide (s.now ≤ Tab.get (fun _ => 0) s.ras.confAt i + day)

/-- A mismatch places a tile in the table: an entry of its own, a free one, or that of the oldest mismatch among those with
CONF = 0. -/
def State.suspect (s : State) (pf pt : Nat) (inj : Bool) : State :=
  let put (i : Nat) (s : State) : State := { s with ras := { s.ras with suspAt := Tab.insert s.ras.suspAt i s.now } }
  let fresh (i : Nat) (s : State) : State :=
    let s1 := put i ((s.dropSuspect i).setReg .rasSuspect i 0 0
      (packF [(F.rasSuspect_VALID, 1), (F.rasSuspect_PFIELD, pf), (F.rasSuspect_PTILE, pt)]))
    { s1 with ras := { s1.ras with obsAt := Tab.insert s1.ras.obsAt i s.now } }
  match s.suspectAt pf pt with
  | some i => put i s
  | none =>
    match (upTo 128).find? (fun i => !s.flag F.rasSuspect_VALID i) with
    | some i => fresh i s
    | none =>
      let l := (upTo 128).filter fun i => !s.confNow i
      match l with
      | [] => (s.countF F.rasWitSamples_SUSP_OVF 1).rasEvent { kind := 0x10, injected := inj, pfield := pf, ptile := pt }
      | a :: r => fresh (r.foldl (fun b i => if s.suspTime i < s.suspTime b then i else b) a) s

/-- A confirmed mismatch against a tile: its first within 24 h sets CONF, its second fences it (R287). -/
def State.confirmTile (s : State) (pf pt : Nat) (inj : Bool) : State :=
  match s.suspectAt pf pt with
  | none => s
  | some i =>
    if s.confNow i then s.engineFence pf pt inj
    else
      let s1 := s.setF F.rasSuspect_CONF 1 i
      { s1 with ras := { s1.ras with confAt := Tab.insert s1.ras.confAt i s.now } }

/-- SUSPECT_EXPIRY: 24 h after the tile's latest mismatch its entry is removed. -/
def execSuspectExpiry (i : Fin 128) (s : State) : Out :=
  .next (if s.flag F.rasSuspect_VALID i.val && decide (s.suspTime i.val + day ≤ s.now) then s.dropSuspect i.val else s)

/-! ### Witness execution (R282 to R285) -/

/-- A commanded self-test of a logical field runs, or waits for the field (R292). -/
def State.testing (s : State) (f : Nat) : Bool :=
  match s.ras.st with
  | some (k, n, _) => k == 1 && n == f
  | none => false

/-- A field may take records: online, not quiescing, not self-testing, not frozen by the detector. -/
def State.witOk (s : State) (f : Nat) : Bool :=
  !s.offline f && (s.field f).quiesce.isNone && !s.testing f && !s.flag F.fldDlStat_FROZEN f

/-- The next field in the rotation after `last`, other than those of `ex`. -/
def State.witRotate (s : State) (last : Nat) (ex : List Nat) : Option Nat :=
  ((upTo 92).map fun k => (last + 1 + k) % 92).find? fun g => !ex.contains g && s.witOk g

/-- The lowest tile of a field whose trace is complete. -/
def State.doneTrace (s : State) (f : Nat) : Option (Nat × Trace) :=
  s.tiles.findSome? fun x =>
    if x.1 / 4900 = f then (match x.2.trace with
      | some tr => if tr.done then some (x.1 % 4900, tr) else none
      | none => none) else none

/-- WITNESS_RECORD_SEND: a completed record leaves its tile and is sent to the next field of the rotation. -/
def execWitnessRecordSend (f : FieldNo) (s : State) : Out :=
  .next (
    let x := s.field f.val
    match s.doneTrace f.val, s.witRotate x.witNext [f.val] with
    | some (t, tr), some g =>
      if 8 ≤ x.recs.length then s
      else
        let s1 := s.setTile f.val t { s.tile f.val t with trace := none }
        s1.setField f.val { s1.field f.val with witNext := g, recs := x.recs ++ [{ trace := tr, tries := 1, field := g, since := s.now }] }
    | _, _ => s)

/-- The first record that waits at field `g`, for a witness or a referee: its source field and the record. -/
def State.recordAt (s : State) (g : Nat) (referee : Bool) : Option (Nat × WitRec) :=
  s.fields.findSome? fun x => (x.2.recs.find? fun r => r.field == g && r.witness.isSome == referee).map fun r => (x.1, r)

/-- Replace a record, or remove it. -/
def State.putRec (s : State) (f : Nat) (r : WitRec) (n : Option WitRec) : State :=
  let x := s.field f
  s.setField f { x with recs := match n with
    | some q => x.recs.map fun y => if y = r then q else y
    | none => x.recs.erase r }

/-- A tile may replay a record: idle with no slot ready, no event pending, neither suspect nor the source. -/
def State.canReplay (s : State) (f t : Nat) (r : WitRec) : Bool :=
  let c := s.tile f t
  c.idle && (s.readySlot f t).isNone && !(s.field f).freezing && s.witOk f && !s.suspectTile (s.pfield f) (s.ptile f t)
    && !(r.trace.f == f && r.trace.t == t)

/-- The tile that a field's rotation gives a record to: the first that may replay it (R282). -/
def State.witTile (s : State) (f : Nat) (r : WitRec) : Option Nat :=
  ((upTo 4900).map fun k => ((s.field f).witTile + k) % 4900).find? fun t => s.canReplay f t r

/-- The rotation goes on after tile `t`. -/
def State.witTook (s : State) (f t : Nat) : State := s.setField f { s.field f with witTile := (t + 1) % 4900 }

/-- The signature that a replay's output sequence yields (R280, R284). -/
def replaySig (r : Replay) : DWord := BitVec.ofNat 64 (r.outs.foldl crc64Word (2 ^ 64 - 1) ^^^ (2 ^ 64 - 1))

/-- A replay asks for what the log holds, from its first entry to its last, and then reaches DONE (R284). -/
def replayFollows (r : Replay) (tr : Trace) : Bool := r.asked == tr.log.map (·.1)

/-- The record of an event that a trace names. -/
def Trace.event (tr : Trace) (kind : Nat) (inj : Bool) : RasRec :=
  { kind := kind, tenant := tr.tenant, injected := inj, lfield := tr.f, pfield := tr.pf, ltile := tr.t, ptile := tr.pt, arg := tr.seqNo }

/-- A mismatch (R284, R286): counted, raised, both tiles suspect; the record goes to a referee field. -/
def State.mismatch (s : State) (src f t : Nat) (rc : WitRec) (r : Replay) (inj : Option Nat) : State :=
  let tr := rc.trace
  let wp := (s.pfield f, s.ptile f t)
  let slot := ((s.hub.reqs.find? fun q => q.out && q.tenant == tr.tenant && q.seqNo == tr.seqNo).map (·.slot)).getD 0
  let s1 := ((s.countF F.rasWitErr_MISMATCH 1).rasEvent (tr.event 1 inj.isSome)).seqEvent src
    { kind := 0x0A, tenant := tr.tenant, tile := tr.t, arg := slot }
  let s2 := (s1.suspect tr.pf tr.pt inj.isSome).suspect wp.1 wp.2 inj.isSome
  let sig := if inj.isSome then replaySig r ^^^ 1 else replaySig r
  match s2.witRotate (s2.field src).witNext [src, f] with
  | some g =>
    let q := { rc with
      tries := 1, field := g, since := s.now, witness := some (f, t), witPhys := wp, witSig := sig, witAsked := r.asked, injArg := inj }
    let s3 := s2.putRec src rc (some q)
    s3.setField src { s3.field src with witNext := g }
  | none => (s2.putRec src rc none).countF F.rasWitErr_DROPPED 1

/-- WITNESS_REPLAY: tile `t`, the first idle one of the witness field's rotation, replays the record the field was given; `r` is what
the tile does (assumption 137). Commanded of another tile it changes nothing. An armed injection 0x03 of the source field makes its signature differ. -/
def execWitnessReplay (f : FieldNo) (t : TileNo) (r : Replay) (s : State) : Out :=
  .next (
    match s.recordAt f.val false with
    | none => s
    | some (src, rc) =>
      if s.witTile f.val rc ≠ some t.val then s
      else
        let s1 := (s.witTook f.val t.val).count48 .rasWitSamples 1 0 0
        match s1.injected 3 src with
        | some i => (s1.useInj i).mismatch src f.val t.val rc r (some i.arg)
        | none =>
          if replaySig r = rc.trace.crc && replayFollows r rc.trace then s1.putRec src rc none else s1.mismatch src f.val t.val rc r none)

/-- Confirm a mismatch against a tile: counted, raised; a tile already fenced is only named. -/
def State.confirm (s : State) (rc : WitRec) (lf lt pf pt : Nat) : State :=
  let inj := rc.injArg.isSome
  let s1 := (s.countF F.rasWitErr_CONFIRMED 1).rasEvent
    { kind := 2, tenant := rc.trace.tenant, injected := inj, lfield := lf, pfield := pf, ltile := lt, ptile := pt, arg := rc.trace.seqNo }
  if (s1.badOf pf).contains pt then s1
  else if inj && bitsOf (rc.injArg.getD 0) 0 1 == 0 then s1
  else s1.confirmTile pf pt inj

/-- REFEREE_REPLAY: the outcome of the replay `r` on tile `t`, the one that the referee field's rotation gives, decides whether the source or the witness is confirmed (R285). -/
def execRefereeReplay (f : FieldNo) (t : TileNo) (r : Replay) (s : State) : Out :=
  .next (
    match s.recordAt f.val true with
    | none => s
    | some (src, rc) =>
      if s.witTile f.val rc ≠ some t.val then s
      else
        let s1 := ((s.witTook f.val t.val).count48 .rasWitSamples 1 0 0).putRec src rc none
        let isSrc := replaySig r == rc.trace.crc && replayFollows r rc.trace
        let isWit := replaySig r == rc.witSig && r.asked == rc.witAsked
        if isWit && !isSrc then s1.confirm rc rc.trace.f rc.trace.t rc.trace.pf rc.trace.pt
        else if isSrc && !isWit then
          s1.confirm rc ((rc.witness.map (·.1)).getD 0x7F) ((rc.witness.map (·.2)).getD 0) rc.witPhys.1 rc.witPhys.2
        else s1)

/-- WITNESS_RECORD_TIMEOUT: a record of the source field that no tile took within 1 ms passes on; after three fields it is
dropped. -/
def execWitnessRecordTimeout (f : FieldNo) (s : State) : Out :=
  .next (
    let x := s.field f.val
    match x.recs.find? (fun r => decide (r.since + 1000000 ≤ s.now)) with
    | none => s
    | some r =>
      let ex := match r.witness with
        | some w => [f.val, w.1]
        | none => [f.val]
      match if r.tries < 3 then s.witRotate r.field ex else none with
      | some g => (s.putRec f.val r (some { r with tries := r.tries + 1, field := g, since := s.now }))
      | none => (s.putRec f.val r none).countF F.rasWitErr_DROPPED 1)

/-! ### Quiesces (R26, R289, R290) -/

/-- The logical tile at physical position `p` of a field under its present map. -/
def State.ltileAt (s : State) (f p : Nat) : Option Nat :=
  let y := p / 72
  let x := p % 72
  let c0 := s.getF F.fldColskip_SKIP_COL0 f y
  let c1 := s.getF F.fldColskip_SKIP_COL1 f y
  if s.flag F.fldColskip_SKIPPED f y || x == c0 || x == c1 then none
  else some (s.getF F.fldColskip_LROW f y * 70 + (x - (if c0 < x then 1 else 0) - (if c1 < x then 1 else 0)))

/-- A quiesce begins: every request of every tenant in the field ends with 0x30, its tiles freeze, its dense block stops. -/
def State.quiesceStart (s : State) (f : FieldNo) (q : Quiesce) : State :=
  let s1 := (s.endField f.val 0x30).freezeAll f
  let x := s1.field f.val
  (s1.setField f.val { x with dense := x.dense.cancel, freezing := true, quiesce := some q }).startReqs

/-- Load a map of the field and reload the resident context: a logical tile that moves takes the SRAM of the physical tile it
moves to, with its own live slices in it. `from_` is the state under the old map; `fresh` says that the physical field is new. -/
def State.remap (s : State) (f pf : Nat) (m : FMap) (fresh : Bool) : State :=
  let res := (s.field f).resident
  let s := match res with
    | some t => s.saveImage t f
    | none => s
  let s := if fresh then s.setField f { s.field f with cells := ((s.field f).cells.map fun x => (x.1, { x.2 with waiters := [] })).filter fun x => x.2 != {} } else s
  let s1 := ((s.mapChanged f).loadMap f pf m).loadTwins
  let s2 := (upTo 4900).foldl (fun a k =>
    let src : Tile := if fresh then {} else match s.ltileAt f (s1.ptile f k) with
      | some j => s.tile f j
      | none => {}
    a.setTile f k { a.tile f k with sram := src.sram, sramErr := src.sramErr, sramInj := src.sramInj }) s1
  let s3 := if fresh then (s2.moveAreas s f).setDense f { s2.dense f with wbuf := [], wtag := [] } else s2
  match res with
  | some t =>
    let s4 := s3.loadSaved t f
    (upTo 4900).foldl (fun a k => a.setTile f k { a.tile f k with frozen := true }) s4
  | none => s3

/-- The field resumes: the pool replays the bound cells that are set (R192). -/
def State.quiesceEnd (s : State) (f : Nat) : State :=
  let x := s.field f
  let keep := x.switching.isSome || s.flag F.fldDlStat_FROZEN f
  let s1 := s.setField f { x with quiesce := none, freezing := keep, dlSince := s.now, dlCyc := 0 }
  let s2 := match x.resident with
    | some t => s1.replayCells f t
    | none => s1
  if keep then s2 else s2.thawTiles f

/-- The fences that a quiesce of a physical field applies: tile, injected. -/
def State.dueFences (s : State) (pf : Nat) : List (Nat × Bool) :=
  ((s.pendFences.filter fun x => x.2.1 == pf).map fun x => (x.2.2, Tab.get (fun _ => 0) s.ras.fenceInj x.1 == 1))
    ++ (s.ras.extra.filter fun x => x.1 == pf).map fun x => x.2

/-- The quiesce of a physical field is due: the earliest HOLD of its pending fences has expired, or the list was full (R288). -/
def State.fencesDue (s : State) (pf : Nat) : Bool :=
  (s.pendFences.any fun x => x.2.1 == pf && decide (Tab.get (fun _ => 0) s.ras.fenceDue x.1 ≤ s.now))
    || s.ras.extra.any fun x => x.1 == pf

/-- Take the fences of tiles of a physical field off the list. -/
def State.takeFences (s : State) (pf : Nat) (hit : Nat → Bool) : State :=
  let s1 := (s.pendFences.filter fun x => x.2.1 == pf && hit x.2.2).foldl (fun s x => s.dropFence x.1) s
  { s1 with ras := { s1.ras with extra := s1.ras.extra.filter fun x => !(x.1 == pf && hit x.2.1) } }

/-- Remove the suspects among tiles `l` of a physical field. -/
def State.clearSuspects (s : State) (pf : Nat) (hit : Nat → Bool) : State :=
  ((upTo 128).filter fun i => s.flag F.rasSuspect_VALID i && s.getF F.rasSuspect_PFIELD i == pf && hit (s.getF F.rasSuspect_PTILE i)).foldl
    (fun s i => s.dropSuspect i) s

/-- Fence tiles of a quiesced field (R289): they join the bad set, one entry burns for each, and the map is built anew; a bad
set without a map, or a tile that fails its self-test as it takes up a logical tile, turns the quiesce into a retirement. -/
def State.applyFences (s : State) (f : Nat) (tiles failed : List Nat) : State :=
  let pf := s.pfield f
  let ts := tiles.eraseDups
  let s1 := (s.takeFences pf fun t => ts.contains t).addBad pf ts
  let s2 := (ts.foldl (fun s t => s.burnEntry 1 pf t) s1).clearSuspects pf fun t => ts.contains t
  let newly (m : FMap) (t : Nat) : Bool :=
    m.lrow (t / 72) != 0x7F && t % 72 != (m.cols (t / 72)).1.1 && t % 72 != (m.cols (t / 72)).2.1 && (s.ltileAt f t).isNone
  let giveUp (s : State) : State :=
    let x := s.field f
    { (s.setField f { x with quiesce := x.quiesce.map fun q => { q with kind := 3 } }) with
      ras := { s.ras with retire := if s.ras.retire.contains f then s.ras.retire else s.ras.retire ++ [f] } }
  match mapOf (s2.badOf pf) with
  | none => (giveUp s2).healthUpdate false
  | some m =>
    let bad := failed.filter (newly m)
    if bad.isEmpty then (s2.remap f pf m false).healthUpdate false
    else (giveUp ((bad.foldl (fun s t => s.burnEntry 1 pf t) (s2.addBad pf bad)))).healthUpdate false

/-- FENCE_QUIESCE: the earliest HOLD of the field's pending fences has expired, or the list was full: the quiesce begins and
every pending fence of the field is applied; `r` is what the self-test at 3.0 ms finds. -/
def execFenceQuiesce (f : FieldNo) (r : TestResult) (s : State) : Out :=
  .next (
    let pf := s.pfield f.val
    if !s.released || s.offline f.val || !s.fencesDue pf || (s.field f.val).quiesce.isSome || (s.field f.val).switching.isSome then s
    else
      let l := s.dueFences pf
      let s1 := s.quiesceStart f { kind := 0, start := s.now, len := 30000000, fences := ((l.map (·.1)).eraseDups).length, injected := l.any (·.2) }
      s1.applyFences f.val (l.map (·.1)) (r.tiles.map (·.val)))

/-- FENCE_RESUME: exactly 30 ms after its freeze the field resumes and a FENCE event is raised. -/
def execFenceResume (f : FieldNo) (s : State) : Out :=
  .next (
    match (s.field f.val).quiesce with
    | some q =>
      if q.kind ≠ 0 ∨ s.now < q.start + q.len then s
      else (s.quiesceEnd f.val).rasEvent
        { kind := 3, injected := q.injected, lfield := f.val, pfield := s.pfield f.val, arg := q.fences }
    | none => s)

/-- The spare that a retirement takes: the rejected spares before it, and it. -/
def pickSpare (fails : List Nat) : List Nat → List Nat × Option Nat
  | [] => ([], none)
  | p :: r =>
    if fails.contains p then
      let k := pickSpare fails r
      (p :: k.1, k.2)
    else ([], some p)

/-- A logical field goes offline (R43). -/
def State.goOffline (s : State) (f : Nat) : State :=
  let s1 := ((s.endField f 0x30).mapChanged f).loadOffline f
  let x := s1.field f
  (s1.setField f { x with resident := none, quiesce := none, switching := none, freezing := false }).startReqs

/-- RETIREMENT_QUIESCE: a retiring field quiesces and moves to the first spare field that passes its self-test, or goes offline
when none remains; each rejected spare adds 90 ms to 400 ms. -/
def execRetirementQuiesce (f : FieldNo) (spareFails : List PField) (s : State) : Out :=
  .next (
    let x := s.field f.val
    let ready := match x.quiesce with
      | none => true
      | some q => q.kind == 3
    if !s.released || s.offline f.val || !s.ras.retire.contains f.val || !ready || x.switching.isSome then s
    else
      let old := s.pfield f.val
      let start := match x.quiesce with
        | some q => q.start
        | none => s.now
      let k := pickSpare (spareFails.map (·.val) ++ (s.spares.filter fun p => (mapOf (s.badOf p)).isNone)) s.spares
      let inj := match x.quiesce with
        | some q => q.injected
        | none => false
      let s1 := s.quiesceStart f { kind := 1, start := start, len := 400000000 + 90000000 * k.1.length, injected := inj }
      let s2 := { s1 with ras := { s1.ras with retire := s1.ras.retire.erase f.val } }
      let s3 := ((s2.takeFences old fun _ => true).clearSuspects old fun _ => true).burnEntry 2 old 0
      let s4 := k.1.foldl (fun s p => s.setPmap p 0x7F 3) ((s3.setPmap old 0x7F 2).setDomain old false)
      match k.2 with
      | some p =>
        (match mapOf (s4.badOf p) with
         | some m => (((s4.setPmap p f.val 0).setDomain p true).remap f.val p m true).healthUpdate false
         | none => s4)
      | none =>
        ((s4.goOffline f.val).healthUpdate false).rasEvent { kind := 4, injected := inj, lfield := f.val, pfield := old, arg := 0x7F })

/-- RETIREMENT_RESUME: the field resumes on its new physical field and a RETIRE event names it. -/
def execRetirementResume (f : FieldNo) (s : State) : Out :=
  .next (
    match (s.field f.val).quiesce with
    | some q =>
      if q.kind ≠ 1 ∨ s.now < q.start + q.len then s
      else (s.quiesceEnd f.val).rasEvent
        { kind := 4, injected := q.injected, lfield := f.val, pfield := s.pfield f.val, arg := s.pfield f.val }
    | none => s)

/-! ### Self-tests (R291, R292) -/

/-- The period of a tile's self-test in ns: 10 s under observation, else 10 min. -/
def State.testPeriod (s : State) (f t : Nat) : Nat := if s.suspectTile (s.pfield f) (s.ptile f t) then 10000000000 else 600000000000

/-- When a tile's next self-test is due: a period after its last one, or after the field release; under observation at the latest 10 s
after it began (assumption 140). -/
def State.testDue (s : State) (f t : Nat) : Nat :=
  let pf := s.pfield f
  let pt := s.ptile f t
  let base := max (Tab.get (fun _ => 0) s.ras.tested (pf * 5184 + pt)) s.ras.relAt
  match s.suspectAt pf pt with
  | some i => min (base + 600000000000) (max base (Tab.get (fun _ => 0) s.ras.obsAt i) + 10000000000)
  | none => base + 600000000000

/-- A test more than one period overdue counts in ST_LATE, once (R291). -/
def State.noteLate (s : State) (f t : Nat) : State :=
  let k := s.pfield f * 5184 + s.ptile f t
  let due := s.testDue f t
  if s.now ≤ due + s.testPeriod f t || Tab.get (fun _ => 0) s.ras.late k == due then s
  else
    let s1 := s.countF F.rasStStat_ST_LATE 1
    { s1 with ras := { s1.ras with late := Tab.insert s1.ras.late k due } }

/-- The look at every used tile's test, once per ms (assumption 140). -/
def State.countLate (s : State) : State :=
  if !s.released || s.now % 1000000 != 0 then s
  else (upTo 92).foldl (fun s f => if s.offline f then s else (upTo 4900).foldl (fun s t => s.noteLate f t) s) s

/-- TILE_SELF_TEST: a used tile's own test, every 10 min, or every 10 s under observation, while it is idle with no slot
ready; a failure, or injection 0x04, raises ST_FAIL and a fence. -/
def execTileSelfTest (f : FieldNo) (t : TileNo) (pass : Bool) (s : State) : Out :=
  .next (
    let c := s.tile f.val t.val
    let pf := s.pfield f.val
    let pt := s.ptile f.val t.val
    if !s.released || s.offline f.val || !c.idle || (s.readySlot f.val t.val).isSome || (s.field f.val).freezing
        || decide (s.now < s.testDue f.val t.val) then s
    else
      let s1 := s.noteLate f.val t.val
      let s2 := { s1 with ras := { s1.ras with tested := Tab.insert s1.ras.tested (pf * 5184 + pt) s.now } }
      let fail (inj fence : Bool) (s : State) : State :=
        let s1 := s.rasEvent { kind := 6, injected := inj, lfield := f.val, pfield := pf, ltile := t.val, ptile := pt }
        if fence then s1.engineFence pf pt inj else s1
      match s2.ras.inj.find? (fun i => i.point == 4 && i.where_ == f.val && i.ltile == t.val) with
      | some i => fail true (bitsOf i.arg 0 1 == 1) (s2.useInj i)
      | none => if pass then s2 else fail false true s2)

/-- A commanded field test begins its quiesce, at once or when the field's switch or quiesce has ended. -/
def State.testStart (s : State) : State :=
  match s.ras.st with
  | some (1, n, _) =>
    if (s.field n).switching.isSome || (s.field n).quiesce.isSome || s.offline n then s
    else
      let s1 := { s with ras := { s.ras with st := some (1, n, s.now) } }
      s1.quiesceStart (Fin.ofNat 92 n) { kind := 2, start := s.now, len := 100000000 }
  | _ => s

/-- A write of `RAS_ST_CMD`: at most one commanded test runs; one of a field quiesces it, and one of a
spare switches its domain on (R292, R300). -/
def State.stCmd (s : State) (v : Nat) : State :=
  let k := bitsOf v 0 2
  let n := bitsOf v 2 7
  if k = 0 then s
  else
    let ok := if k = 1 then decide (n < 92) && !s.offline n
      else if k = 2 then decide (n < 16) else decide (n < 96) && s.getF F.fldPmap_ROLE n == 1
    if s.ras.st.isSome || !ok then s.rasRefuse
    else
      let s1 := ((s.setF F.rasStStat_BUSY 1).setF F.rasStStat_KIND k).setF F.rasStStat_NUM n
      let s2 := if k = 3 then s1.setDomain n true else s1
      { s2 with ras := { s2.ras with st := some (k, n, s.now) } }.testStart

/-- Mark the target of a test as tested, and as failed or not. -/
def State.stMark (s : State) (k n : Nat) (fail : Bool) : State :=
  let put (r : Fld) (b : Nat) (v : Bool) (s : State) : State := s.setF r (putBits (s.getF r) b 1 (bit v))
  if k = 1 then
    (if n < 64 then put F.rasStFail0_FIELDS n fail (put F.rasStRun0_FIELDS n true s)
     else put F.rasStFail1_FIELDS (n - 64) fail (put F.rasStRun1_FIELDS (n - 64) true s))
  else if k = 2 then put F.rasStFail1_STACKS n fail (put F.rasStRun1_STACKS n true s)
  else s

/-- The test area of a stack is left zero (R292). -/
def State.clearTestArea (s : State) (m : Nat) : State :=
  let lo := m * 0x900000000 + 0x8FC000000
  let hi := (m + 1) * 0x900000000
  { s with hbm := { s.hbm with
    bytes := s.hbm.bytes.filter (fun x => decide (x.1 < lo) || decide (hi ≤ x.1))
    err := s.hbm.err.filter fun x => decide (x.1 * 64 < lo) || decide (hi ≤ x.1 * 64) } }

/-- A stack goes offline (R167). -/
def State.stackOffline (s : State) (m : Nat) : State := (s.setF F.hbmStat_OFFLINE 1 m).setF F.hbmStat_SCRUB_BUSY 0 m

/-- What the read of every unit of a stack finds: an uncorrectable error, or more than 1,024 corrected units (R292). -/
def State.stackBad (s : State) (m : Nat) : Bool :=
  let l := s.hbm.err.filter fun x => decide (m * 0x900000000 ≤ x.1 * 64) && decide (x.1 * 64 < (m + 1) * 0x900000000)
  l.any (fun x => x.2 == 2) || decide (1024 < (l.filter fun x => x.2 == 1).length)

/-- The units of a stack that hold an error mark. -/
def State.markedUnits (s : State) (m : Nat) : List Nat :=
  (s.hbm.err.filter fun x => decide (m * 0x900000000 ≤ x.1 * 64) && decide (x.1 * 64 < (m + 1) * 0x900000000)).map (·.1)

/-- A commanded test of a field has begun its quiesce. -/
def State.testRuns (s : State) (k n : Nat) : Bool :=
  k != 1 || (match (s.field n).quiesce with
    | some q => q.kind == 2
    | none => false)

/-- ST_DONE: the commanded test ends after its duration; `r` is what it found of tiles, parts, and a stack's margins. Failures act as
R292 lays down; an injected one acts only with ARG[0] = 1 (R298). A fence that has become due in the field is applied with them. -/
def execStDone (r : TestResult) (s : State) : Out :=
  .next (
    match s.ras.st with
    | none => s
    | some (k, n, start) =>
      let dur := if k = 1 then 100000000 else if k = 2 then 2500000000 else 90000000
      if s.now < start + dur || (!s.testRuns k n && !s.offline n) then s
      else
        let inj := if k = 1 then s.injected 0x15 n else if k = 2 then s.injected 0x14 n else none
        let acts := match inj with
          | some i => bitsOf i.arg 0 1 == 1
          | none => false
        let tl := (r.tiles.map (·.val)).eraseDups
        let extra := match inj with
          | some i => if k = 1 then [s.ptile n i.ltile] else []
          | none => []
        let part := r.part || (k == 2 && (inj.isSome || s.stackBad n))
        let all := (tl ++ extra).eraseDups
        let res := if part then 3 else if all.isEmpty then 1 else if k = 1 then 2 else 3
        let s0 := match inj with
          | some i => s.useInj i
          | none => s
        let s1 := ((({ s0 with ras := { s0.ras with st := none } }).setF F.rasStStat_BUSY 0).setF F.rasStStat_RESULT res).stMark k n
          (res != 1)
        let ev (s : State) : State := s.rasEvent
          { kind := 7, injected := inj.isSome, arg := res, lfield := if k = 1 then n else 0x7F,
            pfield := if k = 1 then s.pfield n else if k = 3 then n else 0x7F }
        if k = 1 ∧ s.offline n then ev s1
        else if k = 1 then
          let s3 := s1.setF F.rasStStat_BAD all.length
          let pf := s3.pfield n
          let fn := if s3.fencesDue pf then s3.dueFences pf else []
          let add := (if acts then all else tl) ++ fn.map (·.1)
          if r.part then
            let x := s3.field n
            ev { (s3.setField n { x with quiesce := x.quiesce.map fun q => { q with kind := 3 } }) with
              ras := { s3.ras with retire := if s3.ras.retire.contains n then s3.ras.retire else s3.ras.retire ++ [n] } }
          else if add.isEmpty then ev (s3.quiesceEnd n)
          else
            let s4 := s3.setField n { s3.field n with
              quiesce := some { kind := 0, start := s.now, len := 30000000, fences := add.length, injected := acts || fn.any (·.2) } }
            ev (s4.applyFences n add [])
        else if k = 2 then
          let s2 := (s1.hbmScan n (s1.markedUnits n)).clearTestArea n
          ev (if r.part || !tl.isEmpty || s.stackBad n || (inj.isSome && acts) then s2.stackOffline n else s2)
        else
          let s2 := s1.setDomain n false
          ev (if res = 1 then s2 else (s2.setPmap n 0x7F 3).healthUpdate false))

/-! ### Hardened registers (R293) -/

/-- A register that the Hub writes from the map: it reads its reset value until field release (R44, R140). -/
def Reg.isMap : Reg → Bool
  | .fldUnitId | .fldUnitHealth | .fldPmap | .fldId | .fldMapRows | .fldMapStatus | .fldColskip | .fldBrStat => true
  | _ => false

/-- The bits of a list of fields. -/
def fieldMask (fs : List FieldDesc) : Nat := fs.foldl (fun a f => putBits a f.lsb f.width (2 ^ f.width - 1)) 0

/-- The bits of a register that are configuration fields: its RW and RWL fields, and the RO fields that the Hub writes from the
defect store, the OTP or a map. -/
def Reg.hardMask (r : Reg) : Nat :=
  fieldMask (r.desc.fields.filter fun f => f.acc == .rw || f.acc == .rwl
    || (f.acc == .ro && (r.isMap || r == .otpStat || r == .otpDefect))
    || (r == .hubBrTrunk && (f.lsb == F.hubBrTrunk_TWIN.lsb || f.lsb == F.hubBrTrunk_ABSENT.lsb)))

/-- A register with a hardened field. -/
def Reg.hardened (r : Reg) : Bool := r.hardMask != 0

/-- The three copies of the hardened word at an offset, as the bits of each that differ from what was written. -/
def State.hardCopies (s : State) (a : Nat) : List Nat := Tab.get (fun _ => [0, 0, 0]) s.ras.hard a

/-- A number has an odd count of ones: the parity bit kept with a byte no longer fits it. -/
def oddOnes (v : Nat) : Bool := ((upTo 8).filter fun i => bitsOf v i 1 == 1).length % 2 == 1

/-- The vote on byte `b`: what two or more copies of good parity agree on; none where it is uncorrectable (R294). -/
def hardByte (cs : List Nat) (b : Nat) : Option Nat :=
  match (cs.map fun c => bitsOf c (8 * b) 8).filter fun v => !oddOnes v with
  | v :: w :: r => if v = w ∧ r.all (· == v) then some v else none
  | _ => none

/-- What a vote finds of a hardened word: 0 three equal copies, 1 a copy to rewrite, 2 an uncorrectable byte. -/
def State.hardAt (s : State) (a : Nat) : Nat :=
  let cs := s.hardCopies a
  if (upTo 8).any (fun b => (hardByte cs b).isNone) then 2 else if cs.all (· == cs.headD 0) then 0 else 1

/-- Every copy of a hardened word is what was last written. -/
def State.hardClean (s : State) (a : Nat) : State := { s with ras := { s.ras with hard := Tab.erase s.ras.hard a } }

/-- Injections 0x05 and 0x06 invert a bit of the hardened word at an offset in `n` copies: its lowest configuration bit that is not yet
inverted in the first copy (assumption 138). -/
def State.hardUpset (s : State) (a n : Nat) : State :=
  match regAt a with
  | none => s
  | some (r, _, _) =>
    let cs := s.hardCopies a
    match (upTo 64).find? (fun i => bitsOf r.hardMask i 1 == 1 && bitsOf (cs.headD 0) i 1 == 0) with
    | none => s
    | some i => { s with ras := { s.ras with hard := Tab.insert s.ras.hard a ((cs.take n).map (· ^^^ 2 ^ i) ++ cs.drop n) } }

/-! ### Injection (R297, R298) -/

/-- A write of `RAS_INJECT` that carries a code of Table 13.4: armed at its detector; any other is refused. -/
def State.rasInject (s : State) (v : Nat) : State :=
  let p := bitsOf v 0 8
  let w := bitsOf v 8 7
  let t := bitsOf v 15 13
  let a := bitsOf v 32 32
  let field := decide (w < 92)
  let keep : State := { s with ras := { s.ras with inj := s.ras.inj ++ [{ point := p, where_ := w, ltile := t, arg := a }] } }
  let x := s.field w
  if p = 1 ∨ p = 2 then
    (if field && decide (t < 4900) then s.setTile w t { s.tile w t with sramInj := p } else s.rasRefuse)
  else if p = 3 then (if field then keep else s.rasRefuse)
  else if p = 4 then (if field && decide (t < 4900) then keep else s.rasRefuse)
  else if p = 5 ∨ p = 6 then s.hardUpset (a / 8 * 8) (p - 4)
  else if p = 7 ∨ p = 8 then (if field then s.setField w { x with laneInj := p - 6 } else s.rasRefuse)
  else if p = 9 then (if field then s.setField w { x with dropInj := true } else s.rasRefuse)
  else if p = 0x0A ∨ p = 0x0B then
    (if w < 96 then { s with mesh := { s.mesh with trunkInj := Tab.insert s.mesh.trunkInj w (p - 9) } } else s.rasRefuse)
  else if p = 0x0C ∨ p = 0x0D then
    (if field then s.setDense w { s.dense w with inj := p - 0x0B + 2 * bitsOf a 1 1 } else s.rasRefuse)
  else if p = 0x0E ∨ p = 0x0F then
    (if w < 16 then { s with hbm := { s.hbm with inj := Tab.insert s.hbm.inj w (p - 0x0D) } } else s.rasRefuse)
  else if p = 0x10 ∨ p = 0x11 then (if field then s.setSeq w { s.seq w with storeInj := p - 0x0F } else s.rasRefuse)
  else if p = 0x12 then (if field then s.setSeq w { s.seq w with mfault := true } else s.rasRefuse)
  else if p = 0x13 then
    (if w < 4 then s.setPort w { s.port w with withheldUntil := s.now + 60000000 } else s.rasRefuse)
  else if p = 0x14 then (if w < 16 then keep else s.rasRefuse)
  else if p = 0x15 then (if field && decide (t < 4900) then keep else s.rasRefuse)
  else if p = 0x20 then (if field then s.setPfld w { s.pfld w with injUntil := s.now + 1000000000 } else s.rasRefuse)
  else if p = 0x30 then s.lidOpened
  else if p = 0x33 then { s with sloe := { s.sloe with
    active := Tab.set zeroByte s.sloe.active 0 (Tab.get zeroByte s.sloe.active 0 ^^^ 1) } }
  else if p = 0x21 ∨ p = 0x31 ∨ p = 0x32 then keep
  else s.rasRefuse

/-! ### Event messages (R296) -/

/-- RAS_NOTIFY: one message covers every event since the last, at most one every 10 µs to a port. -/
def execRasNotify (p : Port) (s : State) : Out :=
  .next (
    let early := match s.ras.notifyAt.find? (fun e => e.1 == p.val) with
      | some e => decide (s.now < e.2 + 10000)
      | none => false
    if !s.ras.notifyDue.contains p.val || early || !s.portIssues p.val || s.creditNow p.val == 0 then s
    else
      let s1 := { s with ras := { s.ras with
        notifyDue := s.ras.notifyDue.erase p.val, notifyAt := Tab.insert s.ras.notifyAt p.val s.now } }
      s1.sendMsi p.val (s.getF F.prtCfg_EVT_VEC p.val))

end Sys2Proof.Machine
end

