-- ==== Sys2Proof/Machine/Links.lean ====
section
/-! DEFINITION. Tchimel links: training (R263 to R266), routes between units (R267, R268), flits, retry and credits (R269 to
R271), remote requests and lost ones (R274, R276), and the writes of the TCH_ registers (R273, R277, R278). -/

namespace Sys2Proof.Machine

open Sys2Proof

/-! ### Arrangements (R266) -/

/-- The bundle that link `k` belongs to. -/
def State.bundleOf (s : State) (k : Nat) : List Nat :=
  let g := s.getF F.tchUnit_GSIZE - 1
  if s.getF F.tchUnit_TOPO = 1 then (upTo 4).map (· + k / 4 * 4)
  else if s.getF F.tchUnit_TOPO = 2 then (upTo 16).filter fun j => j % g == k % g
  else [k]

/-- A torus bundle of a dimension of size 1, which stays OFF. -/
def State.unusedLink (s : State) (k : Nat) : Bool :=
  s.getF F.tchUnit_TOPO == 1 && (if k < 8 then s.getF F.tchUnit_XM1 else s.getF F.tchUnit_YM1) == 0

/-- The unit and link that link `k` of this unit connects to. -/
def State.partner (s : State) (k : Nat) : Nat × Nat :=
  let u := s.getF F.tchUnit_UNIT
  let xd := s.getF F.tchUnit_XM1 + 1
  let yd := s.getF F.tchUnit_YM1 + 1
  let g := s.getF F.tchUnit_GSIZE
  let x := u % xd
  let y := u / xd
  if s.getF F.tchUnit_TOPO = 1 then
    if k < 4 then (y * xd + (x + 1) % xd, k + 4)
    else if k < 8 then (y * xd + (x + xd - 1) % xd, k - 4)
    else if k < 12 then ((y + 1) % yd * xd + x, k + 4)
    else ((y + yd - 1) % yd * xd + x, k - 4)
  else ((u + k % (g - 1) + 1) % g, 15 - k)

/-- The routing number of a source node: SRC[12:0] + SRC[20:14] (R267). -/
def nodeSum (n : Nat) : Nat := n % 2 ^ 13 + n / 2 ^ 14 % 2 ^ 7

/-! ### Sending -/

/-- A mesh packet at an edge die as it goes over a link. -/
def State.toLink (s : State) (p : Packet) : LinkPkt :=
  match p.ext with
  | some r => { r with err := if p.err = .ok then r.err else p.err }
  | none =>
    { err := p.err, dstUnit := BitVec.ofNat 8 p.unit, srcUnit := BitVec.ofNat 8 (s.getF F.tchUnit_UNIT), sys := p.sys, tenant := Fin.ofNat 16 p.tenant,
      op := match p.op with
        | .read => .read
        | .write => .write
        | .posted => .posted
        | .atomic a => .atomic a
        | .readData => .readData
        | .writeAck => .writeAck
        | .maintRead => .maintRead
        | .maintWrite => .other 9,
      src := BitVec.ofNat 24 p.src.node24, tag := BitVec.ofNat 16 p.access, addr := BitVec.ofNat 48 p.ga, len := p.len,
      data := p.data }

/-- The routing number of a mesh packet that leaves the unit. -/
def Packet.linkSum (p : Packet) : Nat :=
  match p.ext with
  | some r => nodeSum r.src.toNat
  | none => p.src.srcSum

/-- The VC of a packet, by its class (R268). -/
def vcOf (c : PClass) : Nat :=
  match c with
  | .request => 0
  | .response => 1
  | .sync => 2
  | .maintenance => 3

/-- The dateline sub-channel of a packet on the next link `k` (R267). -/
def State.dlOf (s : State) (p : Packet) (k : Nat) : Nat :=
  if (s.bundle p.unit).2 then 1
  else if p.lane.1 < 16 ∧ p.lane.1 / 8 = k / 8 ∧ s.getF F.tchUnit_TOPO = 1 then p.lane.2 else 0

/-- A flit goes onto the wire as a codeword: scrambled lanes of PAM4 symbols, the bytes at `flip` inverted (R261, R262, R278). -/
def State.transmit (s : State) (k : Nat) (flit : List Byte) (flip : List Nat) : State :=
  let l := s.link k
  let hit := if l.sym then 0 :: flip else flip
  let cw := (codeword flit).mapIdx fun i b => if hit.contains i then ~~~b else b
  let lanes := (upTo 16).map fun j =>
    laneSymbols (Tab.get (fun _ => 0) l.scr j) ((cw.mapIdx fun i b => (i, b)).filterMap fun x =>
      if laneOfByte l.width x.1 = j then some x.2 else none)
  s.setLink k { l with
    sym := false, wire := lanes.map (·.1), scr := (upTo 16).foldl (fun m j => Tab.set (fun _ => 0) m j ((lanes[j]?.getD ([], 0)).2)) [] }

/-- An IDLE flit goes out (R261, R269). -/
def State.sendIdle (s : State) (k : Nat) : State :=
  let l := s.link k
  (s.setLink k { l with idleIn := 0 }).transmit k (flitBytes (idleHeader l.seq l.ack l.nak) (List.replicate 248 0)) []

/-- A DATA flit goes out, also in a replay, with the ACK and NAK of now; the injections UNCORR and CRC act on it (R278). At least one
IDLE flit goes out in every 4,096 flits (R261). -/
def State.flitOut (s : State) (k : Nat) (f : SentFlit) : State :=
  let l := s.link k
  let b := flitBytes (headerBits 1 f.vc f.dl f.seq l.ack l.nak f.fpo f.crVc f.crDl f.crCount) f.body
  let b1 := if l.crc then b.mapIdx fun i x => if i = 8 then x ^^^ 1 else x else b
  let s1 := (s.setLink k { l with uncorr := false, crc := false, idleIn := l.idleIn + 1 }).transmit k b1
    (if l.uncorr then [2, 4, 6, 8, 10] else [])
  if 4095 ≤ (s1.link k).idleIn then s1.sendIdle k else s1

/-- Put one DATA flit on link `k`: it takes the next SEQ, carries up to 15 owed credits of one VC and DL, and enters the replay
buffer. -/
def State.sendFlit (s : State) (k vc dl fpo : Nat) (body : List Byte) : State :=
  let l := s.link k
  let c := ((upTo 8).find? fun c => Tab.get (fun _ => 0) l.owed c != 0).getD 0
  let n := min 15 (Tab.get (fun _ => 0) l.owed c)
  let f : SentFlit := { seq := l.seq, vc := vc, dl := dl, fpo := fpo, crVc := c / 2, crDl := c % 2, crCount := n, body := body }
  ((s.setLink k { l with
    seq := (l.seq + 1) % 2048, replay := l.replay ++ [f], progAt := if l.replay.isEmpty then s.now else l.progAt,
    owed := Tab.set (fun _ => 0) l.owed c (Tab.get (fun _ => 0) l.owed c - n) }).count48 .tchLinkCnt 1 k 0).flitOut k f

/-- Send packets of VC and DL `c` back to back (R269). -/
def State.sendPkts (s : State) (k c : Nat) (l : List LinkPkt) : State :=
  (packFlits (l.map fun r => linkPktBytes r (c / 2) s.age)).foldl (fun s f => s.sendFlit k (c / 2) (c % 2) f.1 f.2) s

/-- The bundle of a link sends under one choice: the links its choice counts are its ACTIVE ones (R267). -/
def State.settled (s : State) (k : Nat) : Bool := (s.bundleOf k).all fun j => (s.link j).use == s.linkActive j

/-- A packet may be sent on link `k` now: credits for the whole of it beyond `more` that others are to have, and room in the replay
buffer beside `n` flits on their way (R270, R271). -/
def State.canSend (s : State) (k c : Nat) (r : LinkPkt) (more n : Nat) : Bool :=
  s.linkActive k && s.settled k && decide (linkCredits r + more ≤ Tab.get (fun _ => 0) (s.link k).credits c)
    && decide ((s.link k).replay.length + n + linkFlits r ≤ 1024)

/-- Take the credits of a packet that is sent. -/
def State.payCredits (s : State) (k c : Nat) (r : LinkPkt) : State :=
  let l := s.link k
  s.setLink k { l with credits := Tab.set (fun _ => 0) l.credits c (Tab.get (fun _ => 0) l.credits c - linkCredits r) }

/-- A packet forwarded between links on its way to its next link (R268). -/
def Packet.forwarded (p : Packet) : Bool := p.unit != 256 && p.ext.isSome && decide (p.lane.1 < 16)

/-- The link and the VC and DL by which a mesh packet leaves the unit. -/
def State.exitOf (s : State) (p : Packet) : Option (Nat × Nat) :=
  (s.routeLink p.unit p.linkSum).map fun k => (k, vcOf p.cls * 2 + s.dlOf p k)

/-- Credits of link `k` that are kept for forwarded packets on their way to it (R271). -/
def State.promised (s : State) (k c : Nat) : Nat :=
  s.mesh.pkts.foldl (fun a q => if q.forwarded && s.exitOf q == some (k, c) then a + linkCredits (s.toLink q) else a) 0

/-- A packet to another unit that stays behind an earlier one of its source, class and remote home: none overtakes it by another edge
die or link (R134, R275). -/
def State.behindFar (s : State) (p : Packet) : Bool :=
  let src (q : Packet) : Nat := match q.ext with
    | some r => r.src.toNat
    | none => q.src.node24
  let home (q : Packet) : Nat := if q.isResp then (s.toLink q).addr.toNat else stackOf q.ga
  s.mesh.pkts.any fun q => decide (q.id < p.id) && q.unit == p.unit && q.cls == p.cls && q.isResp == p.isResp && src q == src p
    && home q == home p

/-- A mesh packet at the edge die of link `k` is sent: a request awaits its answer. -/
def State.leaveBy (s : State) (p : Packet) (k c : Nat) : State :=
  let s1 := s.payCredits k c (s.toLink p)
  let l := s1.link k
  (s1.setLink k { l with out := if p.isResp then l.out else l.out ++ [{ pkt := p }] }).dropPkt p.id

/-- A packet with no route: a request answers poisoned at once and counts (R276); a response is lost. -/
def State.noRoute (s : State) (p : Packet) : State :=
  let s1 := s.dropPkt p.id
  if p.isResp then s1
  else
    let wr := p.op == .write || p.op == .posted
    (s1.countF F.tchStat_NOROUTE 1).respond p (if wr then .writeAck else .readData) .poison [] true false

/-- One packet that waits at edge die `e` to leave the unit: one with no route is answered, one whose link is on another die goes there,
one that its link can take is sent; one that cannot go keeps its place. `staged` are the packets to be sent, with link, VC and DL. -/
def State.edgeStep (s : State) (e : Nat) (stuck : List (Nat × Nat)) (staged : List (Nat × Nat × LinkPkt)) (p : Packet) :
    State × List (Nat × Nat) × List (Nat × Nat × LinkPkt) :=
  match s.exitOf p with
  | none => (s.noRoute p, stuck, staged)
  | some (k, c) =>
    let r := s.toLink p
    let flits := staged.foldl (fun a x => if x.1 = k then a + linkFlits x.2.2 else a) 0
    if k / 2 ≠ e then (s.setPkt { p with prev := .edge e, node := .edge e, dst := .edge (k / 2) }, stuck, staged)
    else if !stuck.contains (k, c) && !s.behindFar p && s.canSend k c r (if p.forwarded then 0 else s.promised k c) flits then
      (s.leaveBy p k c, stuck, staged ++ [(k, c, r)])
    else (s, (k, c) :: stuck, staged)

/-- An edge die works through the packets that wait at it, in order, and sends those that may go, back to back. -/
def State.edgeWork (s : State) (e : Nat) : State :=
  let l := s.mesh.pkts.filter fun p => p.arrived && p.dst == .edge e && p.unit != 256
  let r := l.foldl (fun a p => a.1.edgeStep e a.2.1 a.2.2 p) (s, [], [])
  ((r.2.2.map fun x => (x.1, x.2.1)).eraseDups).foldl (fun s y =>
    s.sendPkts y.1 y.2 ((r.2.2.filter fun x => x.1 == y.1 && x.2.1 == y.2).map (·.2.2))) r.1

/-- Packets of the edge die's own (R268) go out on link `k` as its credits and replay buffer allow, each VC and DL in order. -/
def State.linkFlush (s : State) (k : Nat) : State :=
  let r := (s.link k).wait.foldl (fun (a : State × List (Nat × LinkPkt)) x =>
    if a.2.any (fun y => y.1 == x.1) || !a.1.canSend k x.1 x.2 (a.1.promised k x.1) 0 then (a.1, a.2 ++ [x])
    else ((a.1.payCredits k x.1 x.2).sendPkts k x.1 [x.2], a.2)) (s, [])
  r.1.setLink k { r.1.link k with wait := r.2 }

/-- A packet of the edge die's own is to be sent. -/
def State.linkPost (s : State) (k c : Nat) (r : LinkPkt) : State :=
  (s.setLink k { s.link k with wait := (s.link k).wait ++ [(c, r)] }).linkFlush k

/-- A packet reaches an edge die. -/
def State.atEdge (s : State) (p : Packet) : State :=
  match p.dst with
  | .edge e => s.edgeWork e
  | _ => s

/-- Return owed credits in DATA flits that carry no packet, when no other flit took them (R269). -/
def State.returnCredits (s : State) (k : Nat) : State :=
  (upTo 8).foldl (fun s _ =>
    let l := s.link k
    if s.linkActive k && l.owed.any (fun x => x.2 != 0) && decide (l.replay.length < 1024) then s.sendFlit k 0 0 31 (List.replicate 248 0) else s) s

/-- The links of a bundle whose flits are all acknowledged count its ACTIVE links from now on; waiting packets move (R267). -/
def State.reassign (s : State) (k : Nat) : State :=
  let b := s.bundleOf k
  if b.all fun j => (s.link j).replay.isEmpty then
    let s1 := b.foldl (fun s j => s.setLink j { s.link j with use := s.linkActive j }) s
    (upTo 8).foldl (fun s e => s.edgeWork e) (b.foldl (fun s j => s.linkFlush j) s1)
  else s

/-- BUNDLE_REASSIGN. -/
def execBundleReassign (k : LinkNo) (s : State) : Out := .next (s.reassign k.val)

/-! ### States of a link (Table 12.1) -/

/-- Enter a state. -/
def State.linkState (s : State) (k st : Nat) : State :=
  (s.setF F.tchLinkStat_STATE st k).setLink k { s.link k with since := s.now, cfg := none, ctrlOut := none }

/-- The link stops carrying packets: what it sent and has not seen answered is lost (R276). -/
def State.linkDrop (s : State) (k : Nat) : State :=
  let l := s.link k
  let s1 := s.setLink k { l with
    out := [], lost := l.lost ++ l.out, replay := [], owed := [], credits := [], retrains := [], replays := 0, nak := false, held := [],
    wait := [] }
  (s1.setF F.tchLinkStat_WIDTH 0 k).reassign k

/-- Enter FAILED with a REASON of Table 12.2; a LINK_FAILED event (Table 13.3). -/
def State.linkFail (s : State) (k reason : Nat) : State :=
  let s1 := ((s.linkState k 7).setF F.tchLinkStat_REASON reason k).linkDrop k
  s1.rasEvent { kind := 0x0D, arg := (Config.linkEvent k reason).toNat }

/-- Enter OFF. -/
def State.linkOff (s : State) (k : Nat) : State := (s.linkState k 0).linkDrop k

/-- The domain of link `k`. -/
def linkDomain (k : Nat) : Nat := 112 + k

/-- Switch a link domain on when it is OFF and may be: it ramps for 0.5 ms (R300, R301). -/
def State.domainOn (s : State) (k : Nat) : State :=
  let d := linkDomain k
  if s.getF F.pwrDom_STATE d = 0 ∧ !s.flag F.pwrDom_OFF_REQ d then
    { s.setF F.pwrDom_STATE 1 d with pwr := { s.pwr with rampAt := Tab.insert s.pwr.rampAt d s.now } }
  else s

/-- Start training from OFF (R264, R266). -/
def State.linkStart (s : State) (k : Nat) : State :=
  if s.getF F.tchLinkStat_STATE k ≠ 0 ∨ !s.flag F.tchLinkCtrl_EN k ∨ s.unusedLink k then s
  else if s.getF F.tchUnit_TOPO = 0 then s.linkFail k 3
  else if s.getF F.pwrDom_STATE (linkDomain k) = 2 then s.linkState k 1
  else s.domainOn k

/-- ACTIVE goes to RETRAIN; the third retrain within 1 s fails the link (R270). -/
def State.linkRetrain (s : State) (k : Nat) : State :=
  if !s.linkActive k then s
  else
    let l := s.link k
    let r := l.retrains.filter fun t => decide (s.now < t + 1000000000)
    let s1 := (s.setLink k { l with retrains := r ++ [s.now], phase := 3 }).countF F.tchLinkErr_RETRAINS 1 k
    if r.length ≥ 2 then s1.linkFail k 6 else (s1.linkState k 6).reassign k

/-- DETECT: lanes are detected (Table 12.1). -/
def execDetect (k : LinkNo) (lanes : BitVec 16) (s : State) : Out :=
  .next (if s.getF F.tchLinkStat_STATE k.val = 1 ∧ lanes ≠ 0 then s.linkState k.val 2 else s)

/-- EQUALISE_DONE. -/
def execEqualiseDone (k : LinkNo) (s : State) : Out :=
  .next (if s.getF F.tchLinkStat_STATE k.val = 2 then s.linkState k.val 3 else s)

/-- The training state a link is in, also within RETRAIN. -/
def State.linkPhase (s : State) (k : Nat) : Nat :=
  if s.getF F.tchLinkStat_STATE k = 6 then (s.link k).phase else s.getF F.tchLinkStat_STATE k

/-- The width that the good lanes allow (R263): 3 x16, 1 or 2 x8, 0 none; 4 when x8 would do but is not allowed. -/
def chooseWidth (lanes : Nat) (x8 : Bool) : Nat :=
  let lo := bitsOf lanes 0 8 == 255
  let hi := bitsOf lanes 8 8 == 255
  if lo && hi then 3 else if !lo && !hi then 0 else if !x8 then 4 else if lo then 1 else 2

/-- The CTRL flit that this side sends on a link of a width (R265): 256 credits for each VC and DL (R271). -/
def State.ownCtrl (s : State) (k : LinkNo) (w : Nat) : CtrlFlit :=
  { groupId := BitVec.ofNat 32 (s.getF F.tchUnit_GROUP_ID), unit := BitVec.ofNat 8 (s.getF F.tchUnit_UNIT),
    topo := BitVec.ofNat 2 (s.getF F.tchUnit_TOPO), xm1 := BitVec.ofNat 4 (s.getF F.tchUnit_XM1),
    ym1 := BitVec.ofNat 4 (s.getF F.tchUnit_YM1), gsize := BitVec.ofNat 5 (s.getF F.tchUnit_GSIZE), link := k,
    width := BitVec.ofNat 2 w, credits := List.replicate 8 256 }

/-- ALIGN_DONE: lock with the lanes found good; the width is chosen, the scramblers are
seeded, and CONFIG follows with this side's CTRL flits. An injected quiet lane 0 takes effect in
a retrain (R278). -/
def execAlignDone (k : LinkNo) (lanes : BitVec 16) (s : State) : Out :=
  .next (if s.linkPhase k.val ≠ 3 then s
    else
      let l := s.link k.val
      let re := s.getF F.tchLinkStat_STATE k.val = 6
      let quiet := re ∧ l.quiet
      let w := chooseWidth (if quiet then lanes.toNat &&& 0xFFFE else lanes.toNat) (s.flag F.tchLinkCtrl_ALLOW_X8 k.val)
      let s1 := if re then s.setLink k.val { l with quiet := false } else s
      if w = 0 then s1
      else if w = 4 then s1.linkFail k.val 4
      else
        let s2 := if re then s1.setLink k.val { s1.link k.val with phase := 4 } else s1.linkState k.val 4
        (s2.setF F.tchLinkStat_WIDTH w k.val).setLink k.val { s2.link k.val with
          width := w, cfg := none, ctrlOut := some (s.ownCtrl k w), idleIn := 0
          scr := (upTo 16).foldl (fun m j => Tab.set (fun _ => 0) m j (Config.laneSeed k.val j).toNat) [] })

/-- The first check of Table 12.2 that a partner's CTRL flit fails; 0 when it fails none. -/
def State.ctrlCheck (s : State) (k : Nat) (c : CtrlFlit) : Nat :=
  let topo := s.getF F.tchUnit_TOPO
  let shape := if topo = 1 then c.xm1.toNat = s.getF F.tchUnit_XM1 ∧ c.ym1.toNat = s.getF F.tchUnit_YM1
    else c.gsize.toNat = s.getF F.tchUnit_GSIZE
  if c.groupId.toNat ≠ s.getF F.tchUnit_GROUP_ID ∨ c.topo.toNat ≠ topo ∨ !decide shape then 1
  else if c.unit.toNat = s.getF F.tchUnit_UNIT then 2
  else if (c.unit.toNat, c.link.val) ≠ s.partner k then 3
  else if c.width.toNat ≠ (s.link k).width then 4
  else 0

/-- The link becomes ACTIVE: from CONFIG with fresh numbers and the partner's credits, from RETRAIN with its own kept. -/
def State.linkGo (s : State) (k : Nat) (c : CtrlFlit) : State :=
  let l := s.link k
  let l1 : Link := if s.getF F.tchLinkStat_STATE k = 6 then { l with replays := 0, progAt := s.now, nakAck := none }
    else { l with
      credits := (upTo 8).foldl (fun m i => Tab.set (fun _ => 0) m i (c.credits[i]?.getD 0)) [], owed := [], seq := 0, ack := 2047, nak := false,
      replay := [], replays := 0, progAt := s.now, nakAck := none, held := [], wait := [] }
  ((s.setLink k l1).linkState k 5).reassign k

/-- CTRL_FLIT: the third identical one in CONFIG is checked (R265). -/
def execCtrlFlit (k : LinkNo) (c : CtrlFlit) (s : State) : Out :=
  .next (if s.linkPhase k.val ≠ 4 then s
    else
      let l := s.link k.val
      let n := match l.cfg with
        | some (d, m) => if d = c then m + 1 else 1
        | none => 1
      let s1 := s.setLink k.val { l with cfg := some (c, n) }
      if n < 3 then s1
      else
        let s2 := (s1.setF F.tchLinkStat_PEER_UNIT c.unit.toNat k.val).setF F.tchLinkStat_PEER_LINK c.link.val k.val
        let r := s2.ctrlCheck k.val c
        if r = 0 then s2.linkGo k.val c
        else s2.linkFail k.val (if s.getF F.tchLinkStat_STATE k.val = 6 ∧ r ≠ 4 then 6 else r))

/-- TRAINING_TIMEOUT: a limit of Table 12.1 has expired. -/
def execTrainingTimeout (k : LinkNo) (s : State) : Out :=
  .next (
    let st := s.getF F.tchLinkStat_STATE k.val
    let lim := if st = 2 then 40000000 else if st = 3 then 5000000 else if st = 4 then 1000000 else 10000000
    if (st = 2 ∨ st = 3 ∨ st = 4 ∨ st = 6) ∧ (s.link k.val).since + lim ≤ s.now then s.linkFail k.val (if st = 6 then 6 else 5) else s)

/-! ### Retry (R270) -/

/-- Replay the unacknowledged flits; after 8 replays without progress the link enters RETRAIN. -/
def State.linkReplay (s : State) (k : Nat) : State :=
  let l := s.link k
  let s0 := (s.setLink k { l with replays := l.replays + 1, progAt := s.now }).countF F.tchLinkErr_REPLAY 1 k
  let s1 := l.replay.foldl (fun s f => s.flitOut k f) s0
  if l.replays + 1 ≥ 8 then s1.linkRetrain k else s1

/-- The partner has received everything up to `a` in order. -/
def State.linkAck (s : State) (k a : Nat) : State :=
  let l := s.link k
  if l.replay.any fun f => f.seq == a then
    s.setLink k { l with replay := (l.replay.dropWhile fun f => f.seq != a).drop 1, replays := 0, progAt := s.now }
  else s

/-- A NAK that carries `a`: the first makes the sender replay; more of them are ignored for 2 µs. -/
def State.linkNak (s : State) (k a : Nat) : State :=
  let s1 := s.linkAck k a
  let l := s1.link k
  let again := match l.nakAck with
    | some (b, t) => b == a && decide (s.now < t + 2000)
    | none => false
  if again || l.replay.isEmpty then s1 else (s1.setLink k { l with nakAck := some (a, s.now) }).linkReplay k

/-- The ACK and NAK of an intact flit. -/
def State.linkAckNak (s : State) (k a : Nat) (nak : Bool) : State := if nak then s.linkNak k a else s.linkAck k a

/-- NAK. -/
def execNak (k : LinkNo) (ack : BitVec 11) (s : State) : Out :=
  .next (if s.linkActive k.val then s.linkNak k.val ack.toNat else s)

/-- REPLAY_TIMEOUT: 4 µs with flits unacknowledged and no progress. -/
def execReplayTimeout (k : LinkNo) (s : State) : Out :=
  .next (if s.linkActive k.val ∧ !(s.link k.val).replay.isEmpty ∧ (s.link k.val).progAt + 4000 ≤ s.now then s.linkReplay k.val
    else s)

/-! ### Receiving -/

/-- A response over link `k` answers the request it belongs to; one with an error is its last (R276). -/
def State.answered (s : State) (k : Nat) (hit : Packet → Bool) (n : Nat) (err : RespErr) : State :=
  let l := s.link k
  s.setLink k { l with out := (l.out.map fun x => if hit x.pkt then { x with got := x.got + n } else x).filter fun x =>
    !(hit x.pkt && (x.got ≥ x.pkt.len || x.pkt.op != .read || err != .ok)) }

/-- Put a packet on the mesh at an edge die. -/
def State.fromEdge (s : State) (e : Nat) (p : Packet) : State :=
  let id := s.mesh.nextId
  { s with mesh := { s.mesh with
    nextId := id + 1, pkts := s.mesh.pkts ++ [{ p with id := id, age := s.age, prev := .edge e, node := .edge e }] } }

/-- An enabled export window covers a remote request and grants it (R274). -/
def State.exported (s : State) (u addr len : Nat) (perm : Fld) : Bool :=
  (upTo 16).any fun j =>
    s.flag F.tchExp_EN j && (s.flag F.tchExp_ANY j || s.getF F.tchExp_SRC_UNIT j == u) && s.flag perm j
      && decide (s.getF F.tchExp_BASE j * 2 ^ 30 ≤ addr)
      && decide (addr + len ≤ (s.getF F.tchExp_BASE j + s.getF F.tchExp_SIZE j) * 2 ^ 30)

/-- The mesh operation of a link packet, none for one that no remote request may be. -/
def meshOp : LinkOp → Option PktOp
  | .read => some .read
  | .write => some .write
  | .posted => some .posted
  | .atomic a => some (.atomic a)
  | _ => none

/-- A remote request at its destination edge die (R274): it goes on to its stack, or is answered PROTECTION. -/
def State.remoteReq (s : State) (k dl : Nat) (r : LinkPkt) : State :=
  let e := k / 2
  let a := r.addr.toNat
  let u := r.srcUnit.toNat
  let n := if r.data.length = 0 then r.len else r.data.length
  let perm := match r.op with
    | .read => F.tchExp_R
    | .atomic _ => F.tchExp_A
    | _ => F.tchExp_W
  let base : Packet :=
    { id := 0, op := .read, cls := .request, err := r.err, sys := r.sys, tenant := r.tenant.val, src := .edge e, dst := .hbm (stackOf a),
      purpose := .host, access := r.tag.toNat, ga := a, len := n, data := r.data, prev := .edge e, node := .edge e,
      ext := some r, lane := (k, dl) }
  match meshOp r.op with
  | some op =>
    if gaSpace a = 0 ∧ a + n ≤ hbmSize ∧ s.exported u a n perm then s.fromEdge e { base with op := op }
    else (s.countF F.tchStat_EXP_DENY 1).respond { base with op := op, dst := .edge e, src := .edge e }
      (if op = .write ∨ op = .posted then .writeAck else .readData) .protection [] true false
  | none => (s.countF F.tchStat_EXP_DENY 1).respond { base with dst := .edge e } .readData .protection [] true false

/-- A response to a request of this unit. -/
def State.remoteResp (s : State) (k : Nat) (r : LinkPkt) : State :=
  match s.mesh.outst.find? (fun a => a.unit != 256 && a.id % 2 ^ 16 == r.tag.toNat) with
  | none => s
  | some a =>
    let p : Packet :=
      { id := 0, op := if r.op = .writeAck then .writeAck else .readData, cls := .response, err := r.err, src := .edge (k / 2),
        dst := a.agent, purpose := a.purpose, access := a.id, ga := a.ga, len := r.data.length, data := r.data, okBit := r.ok,
        contend := r.contend, prev := .done, node := .done, unit := a.unit, lane := (k, 0) }
    (s.answered k (fun q => q.access == a.id && q.ext.isNone) r.data.length r.err).fromEdge (k / 2)
      p

/-- A packet for another unit is forwarded over the trunk to the edge die of its next link (R268). -/
def State.forward (s : State) (k dl vc : Nat) (r : LinkPkt) : State :=
  let e := k / 2
  let r1 := { r with hops := r.hops + 1 }
  let resp := linkResp r
  let s1 := if resp then s.answered k (fun q => match q.ext with
      | some x => x.tag == r.tag && x.src.toNat == r.addr.toNat && x.srcUnit == r.dstUnit
      | none => false) r.data.length r.err else s
  let op : PktOp := match meshOp r.op with
    | some o => o
    | none => if r.op = .readData then .readData else if r.op = .writeAck then .writeAck else .maintRead
  s1.fromEdge e
    { id := 0, op := op, cls := if vc = 0 then .request else if vc = 1 then .response else if vc = 2 then .sync else .maintenance,
      err := r.err, sys := r.sys, tenant := r.tenant.val, src := .edge e, dst := s.target r.dstUnit.toNat 0 (nodeSum r.src.toNat),
      purpose := .host, access := r.tag.toNat, ga := r.addr.toNat, len := r.len, data := r.data, prev := .edge e, node := .edge e,
      unit := r.dstUnit.toNat, ext := some r1, lane := (k, dl) }

/-- The register of this unit's TCH_ block that a partner's peer register read names. -/
def State.peerReg (s : State) (off : Nat) : Nat :=
  match regAt off with
  | some (r, i, j) => if 0x500000 ≤ off ∧ off < 0x600000 then s.reg r i j 0 else 0
  | none => 0

/-- RTT follows from a partner's TIME packet; the spec does not say how, so its value is free (assumption 19). -/
def State.timeFrom (s : State) (k : Nat) : State :=
  let d := s.draw
  d.2.setF F.tchLinkStat_RTT (d.1.toNat % 2 ^ 16) k

/-- A packet leaves the receive buffer of VC `vc` and DL `dl` of link `k`: its credits are owed (R271). -/
def State.linkPkt (s : State) (k vc dl : Nat) (r : LinkPkt) : State :=
  let l := s.link k
  let c := vc * 2 + dl
  let s1 := s.setLink k { l with owed := Tab.set (fun _ => 0) l.owed c (Tab.get (fun _ => 0) l.owed c + linkCredits r) }
  if r.kind = 1 then s1.timeFrom k
  else if r.kind = 2 then
    if linkResp r then s1.setReg .tchLinkPeer k 0 0 (natLE r.data)
    else s1.linkPost k 6 { r with
      dstUnit := r.srcUnit, srcUnit := BitVec.ofNat 8 (s.getF F.tchUnit_UNIT), op := .readData, addr := BitVec.ofNat 48 r.src.toNat,
      src := BitVec.ofNat 24 (Agent.edge (k / 2)).node24, data := bytesLE 8 (s.peerReg r.addr.toNat) }
  else if r.dstUnit.toNat ≠ s.getF F.tchUnit_UNIT then s1.forward k dl vc r
  else if linkResp r then s1.remoteResp k r
  else s1.remoteReq k dl r

/-- The edge die takes a packet out of the receive buffer: one to be forwarded only with credit on its next link (R271). -/
def State.accepts (s : State) (k vc dl : Nat) (r : LinkPkt) : Bool :=
  if r.kind = 1 ∨ r.kind = 2 ∨ r.dstUnit.toNat = s.getF F.tchUnit_UNIT then true
  else
    let s1 := s.forward k dl vc r
    match s1.mesh.pkts.getLast?.bind s1.exitOf with
    | some (j, c) => decide (s1.promised j c ≤ Tab.get (fun _ => 0) (s.link j).credits c)
    | none => true

/-- Work through the receive buffers of link `k`, each VC and DL in order. -/
def State.rxWork (s : State) (k : Nat) : State :=
  let r := (s.link k).held.foldl (fun (a : State × List (Nat × LinkPkt)) x =>
    if a.2.any (fun y => y.1 == x.1) || !a.1.accepts k (x.1 / 2) (x.1 % 2) x.2 then (a.1, a.2 ++ [x])
    else (a.1.linkPkt k (x.1 / 2) (x.1 % 2) x.2, a.2)) (s, [])
  r.1.setLink k { r.1.link k with held := r.2 }

/-- Packets complete on VC and DL `c` of link `k`. -/
def State.rxPush (s : State) (k c : Nat) (l : List LinkPkt) : State :=
  s.setLink k { s.link k with held := (s.link k).held ++ l.map fun r => (c, r) }

/-- A flit is discarded (R270): UNCORR counts it and NAK is set in every flit sent until the next in order. -/
def State.discardFlit (s : State) (k : Nat) : State :=
  (s.countF F.tchLinkErr_UNCORR 1 k).setLink k { s.link k with nak := true }

/-- After a flit of link `k` is taken: its credits and ACK let waiting packets go, in the receive buffers, at its edge die and of its own;
credits still owed then go out in flits without packets. -/
def State.linkTurn (s : State) (k : Nat) : State :=
  let s1 := (upTo 16).foldl (fun s j => if (s.link j).held.isEmpty then s else s.rxWork j) s
  ((s1.edgeWork (k / 2)).linkFlush k).returnCredits k

/-- DATA_FLIT (R269, R270): FEC, CRC, TYPE and SEQ are checked; the packets, the ACK and the credits of an accepted flit are taken. -/
def execDataFlit (k : LinkNo) (fl : DataFlit) (err : LineErrors) (s : State) : Out :=
  .next (if !s.linkActive k.val then s
    else match fecPass err with
      | none => s.discardFlit k.val
      | some fixed =>
        let s1 := if fixed then s.countF F.tchLinkErr_CORR 1 k.val else s
        let l := s1.link k.val
        if fl.typ = 3 ∨ err.crc.toNat ≠ flitCrc (flitHeader fl) fl.body ∨ fl.seq.toNat ≠ (l.ack + 1) % 2048 then s1.discardFlit k.val
        else
          let c := fl.crVc.val * 2 + fl.crDl.val
          let s2 := s1.setLink k.val { l with
            ack := fl.seq.toNat, nak := false, credits := Tab.set (fun _ => 0) l.credits c (Tab.get (fun _ => 0) l.credits c + fl.crCount.val) }
          let s3 := s2.rxPush k.val (fl.vc.val * 2 + fl.dl.val) fl.packets
          (s3.linkAckNak k.val fl.ack.toNat fl.nak).linkTurn k.val)

/-- IDLE_FLIT (R269): ACK and NAK; its body is zero. -/
def execIdleFlit (k : LinkNo) (ack : BitVec 11) (nak : Bool) (seq : BitVec 11) (err : LineErrors) (s : State) : Out :=
  .next (if !s.linkActive k.val then s
    else match fecPass err with
      | none => s.discardFlit k.val
      | some fixed =>
        let s1 := if fixed then s.countF F.tchLinkErr_CORR 1 k.val else s
        if err.crc.toNat ≠ flitCrc (idleHeader seq.toNat ack.toNat nak) (List.replicate 248 0) then s1.discardFlit k.val
        else (s1.linkAckNak k.val ack.toNat nak).linkTurn k.val)

/-- TIME_PACKET: this side sends its Hub timestamp on VC 2, and the partner's has come (R268). -/
def execTimePacket (k : LinkNo) (_stamp : DWord) (s : State) : Out :=
  .next (if !s.linkActive k.val then s
    else
      let u := BitVec.ofNat 8 (s.getF F.tchUnit_UNIT)
      let s1 := s.linkPost k.val 4
        { dstUnit := BitVec.ofNat 8 (s.getF F.tchLinkStat_PEER_UNIT k.val), srcUnit := u, kind := 1, op := .posted,
          src := BitVec.ofNat 24 (Agent.edge (k.val / 2)).node24, tag := 0, addr := 0, data := bytesLE 8 s.now }
      s1.timeFrom k.val)

/-- PEER_REGISTER_READ: the Hub's read of the partner's `TCH_LINK_STAT` goes out and `v` is its answer (R268). -/
def execPeerRegisterRead (k : LinkNo) (v : DWord) (s : State) : Out :=
  .next (if !s.linkActive k.val then s
    else
      let s1 := s.linkPost k.val 6
        { dstUnit := BitVec.ofNat 8 (s.getF F.tchLinkStat_PEER_UNIT k.val), srcUnit := BitVec.ofNat 8 (s.getF F.tchUnit_UNIT), kind := 2,
          op := .maintRead, src := BitVec.ofNat 24 Agent.hub.node24, tag := 0,
          addr := BitVec.ofNat 48 (Reg.tchLinkStat.offset (s.getF F.tchLinkStat_PEER_LINK k.val) 0) }
      s1.setReg .tchLinkPeer k.val 0 0 v.toNat)

/-- REMOTE_REQUEST: a request of another unit at the destination edge die of link `k`. -/
def execRemoteRequest (k : LinkNo) (r : LinkPkt) (s : State) : Out :=
  .next (if s.linkActive k.val then s.remoteReq k.val 0 r else s)

/-- LINK_LOST_POISON: within 10 µs of leaving ACTIVE, the requests not seen answered are answered poisoned (R276). -/
def execLinkLostPoison (k : LinkNo) (s : State) : Out :=
  .next (
    let l := s.link k.val
    let s1 := s.setLink k.val { l with lost := [] }
    l.lost.foldl (fun s x =>
      let wr := x.pkt.op == .write || x.pkt.op == .posted
      (s.countF F.tchLinkErr_LOST 1 k.val).respond x.pkt (if wr then .writeAck else .readData) .poison [] true false) s1)

/-! ### Register writes (R273, R274, R277, R278) -/

/-- A TCH_ write was refused. -/
def State.tchRefuse (s : State) : State := s.setF F.tchStat_REFUSED 1

/-- A write of `TCH_UNIT` is refused. -/
def State.unitRefused (s : State) (v : Nat) : Bool :=
  let old := s.reg .tchUnit 0 0 0
  let topo := bitsOf v 8 2
  let g := bitsOf v 18 5
  let units := if topo = 1 then (bitsOf v 10 4 + 1) * (bitsOf v 14 4 + 1) else g
  let changed := bitsOf v 0 23 != bitsOf old 0 23 || bitsOf v 32 32 != bitsOf old 32 32
  (changed && (upTo 16).any fun k => s.flag F.tchLinkCtrl_EN k) || topo == 3 || (topo == 2 && !([2, 3, 5, 9, 17].contains g))
    || (topo != 0 && decide (units ≤ bitsOf v 0 8))

/-- A write of `TCH_UNIT`. -/
def State.tchUnitWrite (s : State) (v : Nat) : State :=
  if s.unitRefused v then s.tchRefuse
  else s.setReg .tchUnit 0 0 0 (putBits (putBits v 23 1 0) 26 6 0)

/-- A GiB range lies in 0 to 575 and holds no system region (R273, R166). -/
def gibGood (base size : Nat) : Bool :=
  size != 0 && decide (base + size ≤ 576) && !((upTo size).any fun i => (base + i) % 36 == 35)

/-- A write of `TCH_RAP[j]` is refused. -/
def State.apertureRefused (s : State) (j v : Nat) : Bool :=
  let lb := bitsOf v 16 10
  let sz := bitsOf v 26 10
  let clash := (upTo 16).any fun i => i != j && s.flag F.tchRap_EN i && decide (lb < s.getF F.tchRap_LBASE i + s.getF F.tchRap_SIZE i)
    && decide (s.getF F.tchRap_LBASE i < lb + sz)
  bitsOf v 0 1 == 1 && (s.flag F.tchRap_EN j || bitsOf v 8 8 == s.getF F.tchUnit_UNIT || !gibGood lb sz || !gibGood (bitsOf v 36 10) sz || clash)

/-- A write of `TCH_RAP[j]`. -/
def State.apertureWrite (s : State) (j v : Nat) : State :=
  if s.apertureRefused j v then s.tchRefuse
  else s.setReg .tchRap j 0 0 (putBits (bitsOf v 0 46) 1 7 0)

/-- A write of `TCH_EXP[j]` is refused. -/
def exportRefused (v : Nat) : Bool := bitsOf v 0 1 == 1 && !gibGood (bitsOf v 16 10) (bitsOf v 26 10)

/-- A write of `TCH_EXP[j]`. -/
def State.exportWrite (s : State) (j v : Nat) : State :=
  if exportRefused v then s.tchRefuse
  else s.setReg .tchExp j 0 0 (putBits (bitsOf v 0 36) 5 3 0)

/-- A write of `TCH_LINK_CTRL[k]`. -/
def State.linkCtrl (s : State) (k v : Nat) : State :=
  let s1 := if bitsOf v 3 1 = 1 then s.setReg .tchLinkErr k 0 0 0 else s
  let s2 := (s1.setF F.tchLinkCtrl_ALLOW_X8 (bitsOf v 2 1) k).setF F.tchLinkCtrl_EN (bitsOf v 0 1) k
  let s3 :=
    if bitsOf v 0 1 = 0 then (if s2.getF F.tchLinkStat_STATE k = 0 then s2 else s2.linkOff k)
    else if s.flag F.tchLinkCtrl_EN k then s2 else s2.linkStart k
  if bitsOf v 1 1 = 1 then s3.linkRetrain k else s3

/-- A write of `TCH_LINK_INJECT[k]`. SYM acts on the next codeword, an IDLE flit's on an ACTIVE link where nothing waits to be sent. -/
def State.linkInject (s : State) (k v : Nat) : State :=
  let l := s.link k
  let s1 := s.setLink k { l with
    sym := l.sym || bitsOf v 0 1 == 1, uncorr := l.uncorr || bitsOf v 1 1 == 1, crc := l.crc || bitsOf v 2 1 == 1,
    quiet := l.quiet || bitsOf v 3 1 == 1 }
  if (s1.link k).sym && s1.linkActive k then s1.sendIdle k else s1

/-- CLEAR of `TCH_STAT`. -/
def State.tchStatClear (s : State) : State := (s.setF F.tchStat_NOROUTE 0).setF F.tchStat_EXP_DENY 0

end Sys2Proof.Machine
end

