-- ==== Sys2Proof/Machine/Images.lean ====
section
/-! DEFINITION. The OTP (R328 to R331), firmware images and their verification (R335 to R338), and the lifecycle burn (R332). -/

namespace Sys2Proof.Machine

open Sys2Proof

/-! ### The OTP -/

/-- Bytes of the OTP. -/
def State.otpBytes (s : State) (a n : Nat) : List Byte := Tab.readBytes zeroByte s.sec.otp a n

/-- Burn bits into an OTP byte: a bit once burned stays 1. -/
def State.otpBurn (s : State) (a v : Nat) : State :=
  { s with sec := { s.sec with otp := Tab.set zeroByte s.sec.otp a (Tab.get zeroByte s.sec.otp a ||| BitVec.ofNat 8 v) } }

/-- The lifecycle byte that at least two of the three copies hold (R330). -/
def State.lcByte (s : State) : Option Nat :=
  let a := s.otpByte 0
  let b := s.otpByte 1
  let c := s.otpByte 2
  if a = b ∨ a = c then some a else if b = c then some b else none

/-- The LC code of a lifecycle byte (Table 15.4): 0 BLANK, 1 OPEN, 2 SECURED, 3 RETURNED. -/
def lcCode (v : Nat) : Option Nat := if v = 0 then some 0 else if v = 1 then some 1 else if v = 3 then some 2 else if v = 7 then some 3 else none

/-- One of the three lifecycle bytes disagrees. -/
def State.lcSplit (s : State) : Bool := !(s.otpByte 0 == s.otpByte 1 && s.otpByte 1 == s.otpByte 2)

/-- The LC wire: each bit the majority of its copies (R331). -/
def State.lcWire (s : State) : Nat := (lcCode (major3 (s.otpByte 0) (s.otpByte 1) (s.otpByte 2))).getD 0

/-- The DEBUG_DIS wire: the majority of its three copies, or SECURED (Table 15.4). -/
def State.debugDis (s : State) : Bool :=
  let b := s.otpByte 3
  major3 (bitsOf b 0 1) (bitsOf b 1 1) (bitsOf b 2 1) == 1 || s.lcWire == 2

/-- The wires are sensed: a change of LC clears UNLOCKED of the Sloe flash (R331, R386). -/
def State.senseWires (s : State) : State :=
  let s1 := (s.setF F.secBootStat_LC s.lcWire).setF F.secBootStat_DEBUG_DIS (bit s.debugDis)
  let s2 := if s.sloe.lc = s.lcWire then s1 else s1.setF F.fshStat_UNLOCKED 0
  (s2.mapSloe fun v => { v with lc := s.lcWire }).bootCopy

/-- FIELD_EN of a physical field (Table 15.3). -/
def State.fieldEn (s : State) (p : Nat) : Bool :=
  bitsOf (major3 (s.otpByte (0x40 + p / 8)) (s.otpByte (0x4C + p / 8)) (s.otpByte (0x58 + p / 8))) (p % 8) 1 == 1

/-- A key slot is revoked (R330). -/
def State.keyRevoked (s : State) (k : Nat) : Bool :=
  let b := s.otpByte 4
  major3 (bitsOf b k 1) (bitsOf b (2 + k) 1) (bitsOf b (4 + k) 1) == 1

/-- The 1 bits of the SVN thermometer of a kind (R336). -/
def State.thermo (s : State) (kind : Nat) : Nat :=
  ((upTo 64).filter fun i => bitsOf (s.otpByte (0x008 * kind + i / 8)) (i % 8) 1 == 1).length

/-- The regions that a digest can finalise, in the order of OTP_STAT: first byte and length of the content (Table 15.3). -/
def otpRegions : List (Nat × Nat) := [(0x40, 0xA0), (0x100, 0x40), (0x160, 0x1E0), (0x360, 0x40), (0x3C0, 0x420)]

/-- A region is finalised: its digest has been burned (R328). -/
def State.otpFinal (s : State) (r : Nat × Nat) : Bool := (s.otpBytes (r.1 + r.2) 32).any fun b => b != 0

/-- A region's digest matches its content. -/
def State.otpGood (s : State) (r : Nat × Nat) : Bool := sha256 (s.otpBytes r.1 r.2) == s.otpBytes (r.1 + r.2) 32

/-! ### Images -/

/-- The header of a slot; none where a Sloe slot's header page is not DONE (R387). -/
def State.slotHeader (s : State) (kind slot : Nat) : List Byte :=
  if kind = 3 then
    (if (s.fpage (sloeSector slot * 16)).st = 1 then s.flashBytes (sloeSector slot * 4096) 256 else [])
  else Tab.readBytes erasedByte s.sec.images (storeBase kind slot) 256

/-- `n` bytes of the body of a slot. -/
def State.slotBody (s : State) (kind slot n : Nat) : List Byte :=
  if kind = 3 then s.flashBytes ((sloeSector slot + 1) * 4096) n
  else Tab.readBytes erasedByte s.sec.images (storeBase kind slot + 256) n

/-- A number of a header. -/
def hdr (h : List Byte) (a n : Nat) : Nat := fieldAt h a n

/-- The slot holds a header. -/
def present (h : List Byte) : Bool := h.length == 256 && hdr h 0 4 == 0x4D49584B

/-- The greatest body of a kind (Table 15.7). -/
def maxBody (kind : Nat) : Nat :=
  if kind = 1 then 16777216 else if kind = 2 then 2097152 else if kind = 3 then 229376 else 0

/-- The header check of R336: MAGIC, KIND, KEY_SLOT, LENGTH and the zero fields. -/
def headerGood (h : List Byte) (kind : Nat) : Bool :=
  present h && hdr h 4 1 == kind && decide (hdr h 6 1 ≤ 1) && hdr h 0xC 4 % 256 == 0 && decide (hdr h 0xC 4 ≤ maxBody kind)
    && zeroAt h 7 1 && zeroAt h 0x14 4 && zeroAt h 0x20 0x60
    && (if kind = 4 then zeroAt h 5 1 else zeroAt h 0x10 4 && zeroAt h 0x18 8)

/-- Checks 1 to 3 of R336: 0, or the code of Table 15.8. -/
def State.publicChecks (s : State) (h : List Byte) (kind : Nat) : Nat :=
  let k := hdr h 6 1
  if !headerGood h kind then 9
  else if sha256 ((h.drop 0x80).take 64) != s.otpBytes (0x360 + 32 * k) 32 || s.keyRevoked k then 8
  else if kind ≤ 3 ∧ hdr h 5 1 < s.thermo kind then 10
  else 0

/-- The signature engine's answer (R337); `inj` inverts bit 0 of r (R341). -/
def signature (h body : List Byte) (inj : Bool) : Nat :=
  let r := hdr h 0xC0 32
  ecdsa (hdr h 0x80 32) (hdr h 0xA0 32) (if inj then r ^^^ 1 else r) (hdr h 0xE0 32) (sha256 (h.take 0xC0 ++ body))

/-- Use up injection 0x21 at the start of a verification. -/
def State.sigInject (s : State) : Bool × State :=
  match s.ras.inj.find? (fun i => i.point == 0x21) with
  | some i => (true, s.useInj i)
  | none => (false, s)

/-- A whole verification (R336). -/
def State.verifyImage (s : State) (h body : List Byte) (kind : Nat) : Nat × State :=
  let c := s.publicChecks h kind
  if c ≠ 0 then (c, s)
  else
    let i := s.sigInject
    (signature h body i.1, i.2)

/-- `SEC_IMG` of a slot: present, result, SVN and version. -/
def State.imgShow (s : State) (kind slot : Nat) (h : List Byte) (code : Nat) : State :=
  s.setReg .secImg ((kind - 1) * 2 + slot) 0 0 (if present h then
    packF [(F.secImg_PRESENT, 1), (F.secImg_CODE, code), (F.secImg_SVN, hdr h 5 1), (F.secImg_VERSION, hdr h 8 4)]
    else packF [(F.secImg_CODE, code)])

/-- Write an image into a slot, body first and header last (R339, R387). -/
def State.writeImage (s : State) (kind slot : Nat) (h body : List Byte) : State :=
  if kind = 3 then
    let a := sloeSector slot * 4096
    let lo := a / 256
    let pages := (upTo ((body.length + 255) / 256)).map fun i => lo + 16 + i
    let f := s.sloe.flash.filter fun x => decide (x.1 < a) || decide (a + 57 * 4096 ≤ x.1)
    let st := s.sloe.pages.filter fun x => decide (x.1 < lo) || decide (lo + 57 * 16 ≤ x.1)
    let s1 := s.mapSloe fun v => { v with
      flash := Tab.writeBytes erasedByte (Tab.writeBytes erasedByte f (a + 4096) body) a h, pages := st }
    ((pages ++ [lo]).foldl (fun s p => s.setFpage p { progs := 1, st := 1 }) s1).toMonitor
  else
    let b := storeBase kind slot
    let old := s.sec.images.filter fun x => decide (x.1 < b) || decide (b + 2 ^ 25 ≤ x.1)
    { s with sec := { s.sec with images := Tab.writeBytes erasedByte (Tab.writeBytes erasedByte old (b + 256) body) b h } }

/-! ### Lifecycle (R332) -/

/-- A lifecycle command is refused; a pending ARM is cancelled. -/
def State.lcRefuse (s : State) : State :=
  { s.setF F.secCtrl_REFUSED 1 with sec := { s.sec with arm := none } }

/-- Start the burn of a lifecycle byte. -/
def State.lcBurn (s : State) (v : Nat) : State :=
  { s with sec := { s.sec with arm := none, burn := some { value := v, start := s.now } } }

/-- A write of `OTP_LC_CMD` by source `src`. -/
def State.lcCmd (s : State) (src v : Nat) : State :=
  let arm := bitsOf v 2 1 == 1
  let go := bitsOf v 3 1 == 1
  let pend := s.sec.arm.filter fun a => decide (s.now ≤ a.2 + 1000000000)
  let other := match pend with
    | some a => a.1 != src
    | none => false
  if !arm && !go then s
  else if (arm && go) || bitsOf v 0 2 != 2 || other then s.lcRefuse
  else if arm then
    (if s.getF F.secBootStat_LC = 1 then { s with sec := { s.sec with arm := some (src, s.now) } } else s.lcRefuse)
  else if pend.isNone || s.sec.burn.isSome then s.lcRefuse
  else s.lcBurn 3

/-- ARM_EXPIRY. -/
def execArmExpiry (s : State) : Out :=
  .next (match s.sec.arm with
    | some a => if a.2 + 1000000000 < s.now then { s with sec := { s.sec with arm := none } } else s
    | none => s)

/-- LIFECYCLE_BURN: the next of the three copies completes, 1 ms each; the wires are sensed again. -/
def execLifecycleBurn (s : State) : Out :=
  .next (match s.sec.burn with
    | none => s
    | some b =>
      if s.now < b.start + (b.done + 1) * 1000000 then s
      else
        let s1 := (s.otpBurn b.done b.value).senseWires
        { s1 with sec := { s1.sec with burn := if b.done = 2 then none else some { b with done := b.done + 1 } } })

/-! ### Updates (R339, R340) -/

/-- A command of `SEC_UPD_CMD` is refused. -/
def State.updRefuse (s : State) : State := (s.setF F.secUpdStat_REFUSED 1).setF F.secCtrl_REFUSED 1

/-- A command ends with a result code. -/
def State.updDone (s : State) (code : Nat) : State :=
  let s1 := ((s.setF F.secUpdStat_BUSY 0).setF F.secUpdStat_DONE 1).setF F.secUpdStat_CODE code
  { s1 with sec := { s1.sec with verify := none } }

/-- A new nonce (R340). -/
def State.newNonce (s : State) : State :=
  let d := s.draw
  d.2.setReg .secNonce 0 0 0 d.1.toNat

/-- A RETURN ends: the nonce is renewed, valid or not. -/
def State.returnDone (s : State) (code : Nat) : State := (s.updDone code).newNonce

/-- The administering port reads `len` bytes of the image at `SEC_UPD_ADDR`, from offset `o` of the image. -/
def State.updAsk (s : State) (o len : Nat) : State :=
  if len = 0 then s else s.hostAsk (s.getF F.secCtrl_ADMIN) (256 * s.getF F.secUpdAddr_ADDR + o) len

/-- A write of `SEC_UPD_CMD`: STAGE and RETURN begin and await the image read; SVN_COMMIT burns the thermometer. -/
def State.updCmd (s : State) (v : Nat) : State :=
  let op := bitsOf v 0 2
  let kind := bitsOf v 2 3
  let good := decide (1 ≤ kind) && decide (kind ≤ 3)
  if op = 0 then s
  else if s.flag F.secUpdStat_BUSY ∨ (op ≠ 3 ∧ !good) then s.updRefuse
  else if op = 2 then
    let b := s.bootedSlot kind
    if b = 2 then s.updRefuse
    else
      let n := s.getF F.secImg_SVN ((kind - 1) * 2 + b)
      let s1 := (upTo 8).foldl (fun s i => s.otpBurn (8 * kind + i) (2 ^ min 8 (n - 8 * i) - 1)) s
      let s2 := s1.setF F.secUpdStat_DONE 1
      s2.setF (if kind = 1 then F.otpStat_SVN_HUB else if kind = 2 then F.otpStat_SVN_MC else F.otpStat_SVN_SLOE) (s2.thermo kind)
  else
    { (s.setF F.secUpdStat_BUSY 1).updAsk 0 256 with sec := { s.sec with
      verify := some { op := op, kind := if op = 3 then 4 else kind, header := [], body := [], start := s.now } } }

/-- The image read of a command comes back: the public checks, then the engine starts (R336, R337). A port that may issue no read
(R238) has none back. -/
def State.updImage (s : State) (op kind : Nat) (r : HostRead) : State :=
  match s.sec.verify with
  | none => s
  | some v =>
    let fin (s : State) (c : Nat) : State := if op = 3 then s.returnDone c else s.updDone c
    if v.op ≠ op ∨ v.kind ≠ kind ∨ !v.header.isEmpty then s
    else match r with
      | .failed => fin s 12
      | .data d =>
        let h := d.take 256
        let c := s.publicChecks h kind
        if !s.portIssues (s.getF F.secCtrl_ADMIN) then fin s 12
        else if c ≠ 0 then fin s c
        else if op = 3 ∧ (hdr h 0x10 4 ≠ natLE (s.otpBytes 0x3C0 4) ∨ hdr h 0x18 8 ≠ s.reg .secNonce 0 0 0) then
          let x := s.draw
          fin x.2 (2 + x.1.toNat % 9)
        else if (d.drop 256).length < hdr h 0xC 4 then fin s 12
        else
          let i := (s.updAsk 256 (hdr h 0xC 4)).sigInject
          { i.2 with sec := { i.2.sec with
            verify := some { v with header := h, body := (d.drop 256).take (hdr h 0xC 4), start := s.now, inj := i.1 } } }

/-- SIGNATURE_VERIFY: the engine returns exactly 1.9 ms after it started. -/
def execSignatureVerify (s : State) : Out :=
  .next (match s.sec.verify with
    | none => s
    | some v =>
      if v.header.isEmpty ∨ v.valid ∨ s.now < v.start + 1900000 then s
      else
        let c := signature v.header v.body v.inj
        if v.op = 3 then
          let s1 := s.returnDone c
          if c = 1 ∧ s.getF F.secBootStat_LC = 2 ∧ s.sec.burn.isNone then s1.lcBurn 7 else s1
        else if c ≠ 1 then s.updDone c
        else { s.setF F.secUpdStat_VERSION (hdr v.header 8 4) with sec := { s.sec with verify := some { v with valid := true } } })

/-- STAGE_COMPLETE: the image stands in the slot that was not booted, and has been read back. -/
def execStageComplete (readbackOk : Bool) (s : State) : Out :=
  .next (match s.sec.verify with
    | none => s
    | some v =>
      if !v.valid then s
      else
        let slot := if s.bootedSlot v.kind = 0 then 1 else 0
        let code := if readbackOk then 1 else 11
        let s1 := ((s.writeImage v.kind slot v.header v.body).imgShow v.kind slot v.header code).setF F.secUpdStat_SLOT slot
        s1.updDone code)

end Sys2Proof.Machine
end

