-- ==== Sys2Proof/Machine/Boot.lean ====
section
/-! DEFINITION. Resets and the boot sequence (R322 to R327, R342), and the power domains (R300 to R302). -/

namespace Sys2Proof.Machine

open Sys2Proof

/-! ### Domains -/

/-- Switch every domain of a list on or off. -/
def State.setDomains (s : State) (l : List Nat) (v : Nat) : State := l.foldl (fun s d => s.setF F.pwrDom_STATE v d) s

/-- The boot ends in SAFE (R342): only PD132 to PD139 stay on; the Sloe's ring records the code. -/
def State.safe (s : State) (code : Nat) : State :=
  let off := (upTo 148).filter fun d => s.getF F.pwrDom_STATE d != 3 && !(decide (132 ≤ d) && decide (d < 140))
  let s1 := ((s.setDomains off 0).setF F.secBootStat_SAFE 1).setF F.secBootStat_SAFE_CODE code
  ({ s1 with sec := { s1.sec with booting := false, released := false } }.ringPut 2 code 0).bootCopy

/-- The Sloe is told of a power-domain fault (Table 16.6): AL05 and, in RUN, the power stage off at once. -/
def State.domainNotice (s : State) (d : Nat) : State :=
  let s1 := (s.setF F.sloAlarm_PF_DOMAIN d).alarmRaise 5 d
  if s1.mode = 0 then s1.mainOff else s1

/-- DOMAIN_FAULT (R302): a domain that is ON loses power-good. -/
def execDomainFault (d : Domain) (s : State) : Out :=
  .next (
    let n := d.val
    if s.getF F.pwrDom_STATE n ≠ 2 then s
    else
      let s1 := (s.setF F.pwrDom_STATE 3 n).countF F.pwrDom_FAULTS 1 n
      if n < 96 then
        let lf := s.getF F.fldPmap_LFIELD n
        if s.getF F.fldPmap_ROLE n = 0 ∧ lf < 92 then
          { s1 with ras := { s1.ras with retire := if s1.ras.retire.contains lf then s1.ras.retire else s1.ras.retire ++ [lf] } }
        else if s.getF F.fldPmap_ROLE n = 1 then (s1.setPmap n 0x7F 3).healthUpdate false
        else s1
      else if n < 112 then s1.stackOffline (n - 96)
      else if n < 128 then (if s1.getF F.tchLinkStat_STATE (n - 112) = 0 then s1 else s1.linkOff (n - 112))
      else if s1.sec.booting && decide (132 ≤ n) then (s1.safe 0x0A).domainNotice n
      else s1.domainNotice n)

/-- A write of `PWR_DOM[d]` (R301): OFF_REQ switches a link domain, and is refused for any other. -/
def State.domWrite (s : State) (d v : Nat) : State :=
  let s1 := if bitsOf v 3 1 = 1 then s.setF F.pwrDom_REFUSED 0 d else s
  let req := bitsOf v 2 1
  if 112 ≤ d ∧ d < 128 then
    let k := d - 112
    let s2 := s1.setF F.pwrDom_OFF_REQ req d
    if req = 1 then
      let s3 := if s2.getF F.pwrDom_STATE d = 3 then s2 else s2.setF F.pwrDom_STATE 0 d
      if s3.getF F.tchLinkStat_STATE k = 0 then s3 else s3.linkOff k
    else if s.flag F.pwrDom_OFF_REQ d then s2.domainOn k
    else s2
  else if req = 1 then s1.setF F.pwrDom_REFUSED 1 d
  else s1

/-- DOMAIN_RAMP_DONE: a link domain reads ON after 0.5 ms, and its link trains when EN is 1. -/
def execDomainRampDone (d : Domain) (s : State) : Out :=
  .next (
    let n := d.val
    if n < 112 ∨ 128 ≤ n ∨ s.getF F.pwrDom_STATE n ≠ 1 ∨ s.now < Tab.get (fun _ => 0) s.pwr.rampAt n + 500000 then s
    else (s.setF F.pwrDom_STATE 2 n).linkStart (n - 112))

/-! ### Resets (Table 15.1) -/

/-- POWER_ON_RESET: main power is applied in STANDBY or CELL; the power stage stays off while a power-off cause stands (R357). -/
def execPowerOnReset (s : State) : Out :=
  .next (if s.sloe.stopped || s.mode == 0 || s.sloe.stage || s.offCause then s else s.stageOn)

/-- A write of `SEC_RESET` (R322, R323). -/
def State.resetWrite (s : State) (v : Nat) : State :=
  if bitsOf v 16 1 = 0 then s
  else if bitsOf v 0 16 = 0xB007 then s.beginReset 1
  else s.setF F.secCtrl_REFUSED 1

/-- WATCHDOG_RESET: Hub firmware left its watchdog unserviced; it runs once the boot has released the fields. -/
def execWatchdogReset (s : State) : Out := .next (if s.released then s.beginReset 2 else s)

/-! ### Boot steps (Table 15.2) -/

/-- Step `n` may run now: the step before it is the last completed; a unit or watchdog reset starts at step 2. -/
def State.stepIs (s : State) (n : Nat) : Bool :=
  s.sec.booting && (s.getF F.secBootStat_STEP + 1 == n
    || (n == 2 && s.getF F.secBootStat_STEP == 0 && s.getF F.secBootStat_RESET_CAUSE != 0))

/-- Step `n` completes. -/
def State.stepDone (s : State) (n : Nat) : State :=
  { s.setF F.secBootStat_STEP n with sec := { s.sec with stepStart := s.now } }.bootCopy

/-- SLOE_ALIVE: step 1; the Sloe runs its ROM monitor until step 5 (R338). -/
def execSloeAlive (s : State) : Out :=
  .next (if s.stepIs 1 then s.toMonitor.stepDone 1 else s)

/-- POWER_UP: step 2, steps 1 to 5 of Table 14.1. A field whose FIELD_EN is 0 is off after it (Table 15.4). -/
def execPowerUp (s : State) : Out :=
  .next (if !s.stepIs 2 then s
    else
      let on := (upTo 148).filter fun d => !(decide (112 ≤ d) && decide (d < 128)) && (decide (96 ≤ d) || s.fieldEn d)
      ((s.setDomains on 2).senseWires).stepDone 2)

/-- HUB_ROM: step 3, the self-check of the ROM. -/
def execHubRom (ok : Bool) (s : State) : Out :=
  .next (if !s.stepIs 3 then s else if ok then s.stepDone 3 else s.safe 1)

/-- The number a list of bits spells, the first the lowest. -/
def bitsNum : List Bool → Nat
  | [] => 0
  | b :: r => bit b + 2 * bitsNum r

/-- OTP_CHECK: step 4 (R329, R330). -/
def execOtpCheck (s : State) : Out :=
  .next (if !s.stepIs 4 then s
    else
      let fin := otpRegions.map s.otpFinal
      let bad := otpRegions.map fun r => s.otpFinal r && !s.otpGood r
      let s1 := s.setReg .otpStat 0 0 0 (packF [(F.otpStat_LC_SPLIT, bit s.lcSplit), (F.otpStat_FINAL, bitsNum fin),
        (F.otpStat_MISMATCH, bitsNum bad), (F.otpStat_REVOKED, bit (s.keyRevoked 0) + 2 * bit (s.keyRevoked 1)),
        (F.otpStat_SVN_HUB, s.thermo 1), (F.otpStat_SVN_MC, s.thermo 2), (F.otpStat_SVN_SLOE, s.thermo 3)])
      match s.lcByte.bind lcCode with
      | none => s1.safe 2
      | some 0 => s1.safe 9
      | some _ =>
        let stop := (upTo 5).find? fun i => bad.getD i false || ((i == 0 || i == 3) && !fin.getD i false)
        match stop with
        | some i => s1.safe (3 + i)
        | none => s1.stepDone 4)

/-- The Sloe leaves its ROM monitor for a firmware slot: the core starts there, unless it runs that slot (R338). -/
def State.chooseSlot (s : State) (slot : Nat) : State :=
  let stay := !s.sloe.monitor && s.sloe.slot == slot
  let s1 := s.mapSloe fun v => { v with monitor := false, slot := slot, core := if stay then v.core else v.core.atRom }
  if stay then s1 else s1.setF F.sloFbank_ROM 1

/-- IMAGE_VERIFICATION: step 5 (R338). Both slots of each kind are verified; the VALID slot of the higher VERSION boots, A on a
tie; a kind with none ends the boot in SAFE. The Sloe runs its chosen slot, sectors 0 to 113 write-protected (R386). -/
def execImageVerification (s : State) : Out :=
  .next (if !s.stepIs 5 then s
    else
      let one (s : State) (kind slot : Nat) : Nat × State :=
        let h := s.slotHeader kind slot
        let r := s.verifyImage h (s.slotBody kind slot (if present h then hdr h 0xC 4 else 0)) kind
        (r.1, r.2.imgShow kind slot h r.1)
      let pick (a : State × Nat) (kind : Nat) : State × Nat :=
        let x := one a.1 kind 0
        let y := one x.2 kind 1
        let s2 := y.2
        let va := s2.getF F.secImg_VERSION ((kind - 1) * 2)
        let vb := s2.getF F.secImg_VERSION ((kind - 1) * 2 + 1)
        if x.1 ≠ 1 ∧ y.1 ≠ 1 then (s2, if a.2 = 0 then 0x0F + kind else a.2)
        else
          let slot := if x.1 = 1 ∧ (y.1 ≠ 1 ∨ vb ≤ va) then 0 else 1
          (s2.setF F.secImg_BOOTED 1 ((kind - 1) * 2 + slot), a.2)
      let r := [1, 2, 3].foldl pick (s, 0)
      if r.2 ≠ 0 then r.1.safe r.2
      else
        let s1 := r.1
        let slot := s1.bootedSlot 3
        let wp := ((s1.setReg .fshWp 0 0 0 (2 ^ 64 - 1)).setReg .fshWp 1 0 0 (s1.reg .fshWp 1 0 0 ||| (2 ^ 50 - 1)))
        let s2 := (wp.chooseSlot slot).setF F.secBootStat_SLOE_ROM 0
        s2.stepDone 5)

/-- DEFECT_RECORD_VERIFY: step 6 (R333, R334). -/
def execDefectRecordVerify (s : State) : Out :=
  .next (if !s.stepIs 6 then s
    else
      let n := natLE (s.otpBytes 0x120 4)
      let es := s.appendEntries
      let bad := (es.filter fun v => v != 0 && !entryGood v).length
      let s1 := s.setReg .otpDefect 0 0 0 (packF [(F.otpDefect_USED, s.appendUsed), (F.otpDefect_BAD_CRC, bad), (F.otpDefect_RECORD_LEN, n)])
      if 49152 < n ∨ sha256 (Tab.readBytes zeroByte s.sec.store 0 n) ≠ s.otpBytes 0x100 32 then s1.safe 8
      else
        let fences := (es.filter fun v => entryGood v && bitsOf v 0 2 == 1).map fun v => (bitsOf v 2 7, bitsOf v 9 13)
        { s1 with ras := { s1.ras with badTiles := (s1.sec.facTiles ++ fences).eraseDups, badParts := s1.sec.facParts } }.stepDone 6)

/-- Physical fields that a retirement entry names. -/
def State.retired (s : State) : List Nat :=
  (s.appendEntries.filter fun v => entryGood v && bitsOf v 0 2 == 2).map fun v => bitsOf v 2 7

/-- A physical field is usable (R35, R36). -/
def State.usable (s : State) (p : Nat) : Bool :=
  s.fieldEn p && !s.retired.contains p && !s.ras.badParts.contains p && (mapOf (s.badOf p)).isSome

/-- The tile maps, the placement of logical fields and the detour codes (R35, R36, R132). -/
def State.buildMaps (s : State) : State :=
  let us := preference.filter s.usable
  let s1 := (upTo 96).foldl (fun s p => s.setPmap p 0x7F (if s.retired.contains p then 2 else 3)) s
  let s2 := (us.drop 92).foldl (fun s p => s.setPmap p 0x7F 1) s1
  let s3 := (upTo 92).foldl (fun s f =>
    match us[f]? with
    | some p =>
      (match mapOf (s.badOf p) with
       | some m => (s.setPmap p f 0).loadMap f p m
       | none => s.loadOffline f)
    | none => s.loadOffline f) s2
  s3.loadTwins.setReg .fldUnitId 0 0 0 (packF [(F.fldUnitId_STEP_LETTER, s.otpByte 0x3C4), (F.fldUnitId_STEP_DIGIT, s.otpByte 0x3C5),
    (F.fldUnitId_PART, 0x4B01), (F.fldUnitId_WAFER_SERIAL, natLE (s.otpBytes 0x3C0 4))])

/-- BOOT_MAP_BUILD: step 7. -/
def execBootMapBuild (s : State) : Out := .next (if s.stepIs 7 then s.buildMaps.stepDone 7 else s)

/-- QUICK_SELF_TEST: step 8 of one enabled physical field, `last` the last of them. A failing tile joins the bad set with a fence
entry; another failing part makes the field UNUSABLE; the maps are built again (R325). -/
def execQuickSelfTest (p : PField) (r : TestResult) (last : Bool) (s : State) : Out :=
  .next (if !s.stepIs 8 then s
    else
      let q := p.val
      let fails := if s.usable q then ((r.tiles.map (·.val)).eraseDups).filter fun t => !(s.badOf q).contains t else []
      let s1 := fails.foldl (fun s t => s.burnEntry 1 q t) (s.addBad q fails)
      let s2 := if r.part && s.usable q then { s1 with ras := { s1.ras with badParts := s1.ras.badParts ++ [q] } } else s1
      let s3 := if fails.isEmpty && !r.part then s2 else s2.buildMaps
      if last then (s3.setF F.otpDefect_USED s3.appendUsed).stepDone 8 else s3)

/-- HBM_TRAINING: step 9; a stack that fails goes offline. -/
def execHbmTraining (failed : List Stack) (s : State) : Out :=
  .next (if !s.stepIs 9 then s
    else
      let s1 := (upTo 16).foldl (fun s m =>
        if (failed.map (·.val)).contains m then s.stackOffline m else s.setF F.hbmStat_TRAINED 1 m) { s with hbm := {} }
      s1.stepDone 9)

/-- FIELD_RELEASE: step 10. Tile SRAM and weight buffers are cleared, the microcode stands in 92 sequencers, spare fields and those
that hold no logical field are off, and the map registers show (R44). In RETURNED the boot ends here (R327). -/
def execFieldRelease (s : State) : Out :=
  .next (if !s.stepIs 10 then s
    else
      let b := if s.bootedSlot 2 = 1 then 1 else 0
      let n := hdr (s.slotHeader 2 b) 0xC 4
      let mc := Tab.writeBytes zeroByte [] 0 (s.slotBody 2 b n)
      let off := (upTo 96).filter fun p => s.getF F.fldPmap_ROLE p != 0 && s.getF F.pwrDom_STATE p != 3
      let s1 := { s with tiles := [], sec := { s.sec with mc := mc, released := true, booting := s.sec.booting && s.getF F.secBootStat_LC != 3 }, ras := { s.ras with relAt := s.now } }
      let q : Seq := { store := copyBytes mc [] 0 tenantArea }
      let s2 := (upTo 92).foldl (fun s f => (s.setField f { quietSince := s.now, dlSince := s.now, seq := q, lanes := (s.field f).lanes }).setF F.seqStat_HALTED 0 f) s1
      let s3 := (upTo 92).foldl (fun s f => s.setF F.pwrFldStat_RAIL (opRail 7) f) s2
      (((s3.setDomains off 0).healthUpdate true).reevaluate).stepDone 10)

/-- HOST_LINK_UP: step 11, not run in RETURNED (R327): the unit is ready, and the ports with a partner train. -/
def execHostLinkUp (partners : List LinkPartner) (s : State) : Out :=
  .next (if !s.stepIs 11 || s.getF F.secBootStat_LC == 3 then s
    else
      let ms := min 65535 ((s.now - s.sec.bootStart) / 1000000)
      let s1 := { s with sec := { s.sec with booting := false } }
      partners.foldl (fun s x => if s.linkUp x.port.val || !linkTrains x then s else s.portUp x) ((s1.setF F.secBootStat_BOOT_MS ms).stepDone 11))

/-- The maximum of a step in ns (Table 15.2). -/
def stepMax (n : Nat) : Nat :=
  ([2500, 50, 80, 20, 500, 10, 440, 1800, 12500, 3600, 500])[n - 1]?.getD 500 * 1000000

/-- BOOT_STEP_TIMEOUT: the running step exceeds its maximum. -/
def execBootStepTimeout (s : State) : Out :=
  .next (
    let st := s.getF F.secBootStat_STEP
    let n := if st = 0 ∧ s.getF F.secBootStat_RESET_CAUSE ≠ 0 then 2 else st + 1
    if s.sec.booting ∧ n ≤ 11 ∧ s.sec.stepStart + stepMax n < s.now then s.safe (0x30 + n) else s)

end Sys2Proof.Machine
end

