-- ==== Sys2Proof/Machine/Sloe.lean ====
section
/-! DEFINITION. The commands of the Sloe: power modes, keypad, display, sensors, ring, menus and PIN (R344 to R365, R388, R389). -/

namespace Sys2Proof.Machine

open Sys2Proof

/-- A meaning of the Sloe, which does nothing while the Sloe is stopped (R344). -/
def State.live (s : State) (f : State → State) : State := if s.sloe.stopped then s else f s

/-! ### Power modes (R344, R345) -/

/-- MAIN_POWER_GOOD_RISE: the power stage is on and its outputs are in regulation. -/
def execMainPowerGoodRise (s : State) : Out :=
  .next (s.live fun s => if s.sloe.stage then (s.setF F.sloMode_MAIN_OK 1).setMode 0 else s)

/-- MAIN_POWER_GOOD_DROP. -/
def execMainPowerGoodDrop (s : State) : Out := .next (s.live fun s => if s.mode = 0 then s.mainOff else s)

/-- STANDBY_RAIL_FALL: from STANDBY the Sloe goes to CELL. -/
def execStandbyRailFall (s : State) : Out :=
  .next (s.live fun s =>
    let s1 := s.setF F.sloMode_STBY_OK 0
    if s1.mode = 1 then s1.setMode 2 else s1)

/-- STANDBY_RAIL_STABLE: from CELL the Sloe goes to STANDBY. -/
def execStandbyRailStable (s : State) : Out :=
  .next (s.live fun s =>
    let s1 := s.setF F.sloMode_STBY_OK 1
    if s1.mode = 2 then s1.setMode 1 else s1)

/-- CELL_STOP: in CELL below 2.2 V the Sloe stops, with what a power loss leaves of the flash. -/
def execCellStop (s : State) : Out :=
  .next (s.live fun s =>
    if s.mode ≠ 2 then s
    else
      let s1 := s.flashLose
      let v := s1.sloe
      { s1 with
        regs := s1.regs.filter fun x => decide (x.1 % 1024 < Reg.idx .sloMode)
        sloe := { stopped := true, flash := v.flash, opt := v.opt, cal := v.cal, pages := v.pages, sectors := v.sectors,
                  logNext := v.logNext, slot := v.slot, monitor := v.monitor, lc := v.lc } })

/-- AUTO_ON (R345). -/
def execAutoOn (s : State) : Out :=
  .next (s.live fun s =>
    match s.sloe.stbyAt with
    | some t =>
      if s.mode = 1 ∧ s.flag F.sloPwrCfg_AUTO_ON ∧ t + 1000000000 ≤ s.now ∧ !s.sloe.stage ∧ s.getF F.sloAlarm_NOW = 0
          ∧ bitsOf (s.getF F.sloAlarm_PENDING) 4 1 = 0 then s.stageOn else s
    | none => s)

/-- A use of an item of menu 6 (R364): it needs an open session, and the ring records it. -/
def State.menuUse (s : State) (code : Nat) (f : State → State) : State :=
  s.live fun s => if s.flag F.sloPin_UNLOCKED then f (s.ringPut 3 code 0) else s

/-- POWER_ON by SMBus, by menu item 0x64, or by `SLO_PWR_CFG`. -/
def execPowerOn (by_ : PowerBy) (s : State) : Out :=
  .next (
    match by_ with
    | .menu => s.menuUse 0x64 State.powerOnReq
    | .smbus => s.powerOnReq
    | .register => s.powerOnReq)

/-- POWER_OFF by SMBus (not served in CELL), by menu item 0x65, or by `SLO_PWR_CFG`. -/
def execPowerOff (by_ : PowerBy) (s : State) : Out :=
  .next (
    match by_ with
    | .menu => s.menuUse 0x65 State.powerOffReq
    | .smbus => if s.mode = 2 then s else s.powerOffReq
    | .register => s.powerOffReq)

/-! ### Starts of the core (R347, R379, R383, R385, R386) -/

/-- The volatile write-protect bits as the ROM sets them before it enters a firmware slot: sectors 0 to 113 (R386). -/
def State.romProtect (s : State) : State :=
  (s.setReg .fshWp 0 0 0 (2 ^ 64 - 1)).setReg .fshWp 1 0 0 (s.reg .fshWp 1 0 0 ||| (2 ^ 50 - 1))

/-- The ROM resumes a suspended operation, which then runs to its end (R379). -/
def State.romResume (s : State) : State :=
  match s.sloe.fop with
  | some o => (s.mapSloe fun v => { v with fop := some { o with suspended := false, since := s.now } }).flashStat
  | none => s

/-- The core stands at the start of the ROM. -/
def State.toRom (s : State) : State := (s.mapSloe fun v => { v with core := v.core.atRom }).setF F.sloFbank_ROM 1

/-- The core starts: its SRAM stays, it stands at the ROM, and no sector is write-protected (R347, R386). -/
def State.coreStart (s : State) : State := ((s.toRom.optLoad.romResume).setReg .fshWp 0 0 0 0).setReg .fshWp 1 0 0 0

/-- The core stands in the ROM. -/
def State.inRom (s : State) : Bool :=
  s.flag F.sloFbank_ROM && decide (0x4000 ≤ s.sloe.core.pc.toNat) && decide (s.sloe.core.pc.toNat < 0x6000)

/-- The ROM enters the chosen firmware slot (R338, R386). -/
def State.enterSlot (s : State) : State :=
  let e := Config.slotEntry s.sloe.slot
  (((s.mapSloe fun v => { v with core := { v.core with pc := e.2 } }).romProtect).setF F.sloFbank_ROM 0).setF F.sloFbank_BANK e.1.toNat

/-- What the ROM does of itself: the ROM monitor holds the core (R338); else, from its start, it waits for the end of every flash
operation, which it resumes where one is suspended, and enters the chosen slot (R379). -/
def State.romTurn (s : State) : State :=
  if !s.sloeRuns then s
  else if s.sloe.monitor then (if s.inRom then s else s.toRom)
  else if !s.inRom || s.sloe.core.pc != 0x4000 then s
  else if s.sloe.fop.isSome then (if s.flashRuns then s else s.romResume)
  else s.enterSlot

/-- SLOE_WATCHDOG_RESTART: a halted core restarts. -/
def execSloeWatchdogRestart (s : State) : Out :=
  .next (s.live fun s => if s.sloe.core.fault then (s.ringPut 0 0x10 0).coreStart else s)

/-- The calibration row is good (Table 17.5). -/
def State.calGood (s : State) : Bool :=
  crcMSB 16 0x1021 0xFFFF (Tab.readBytes erasedByte s.sloe.cal 0 0xFE) == Tab.readLE erasedByte s.sloe.cal 0xFE 2

/-- SLOE_START: the Sloe starts, in CELL after a stop, with the ring, clock and PIN state of R344, R365 and R386. -/
def execSloeStart (s : State) : Out :=
  .next (
    let s1 := (s.mapSloe fun v => { v with stopped := false, password := 0 }).coreStart
    (s1.setF F.fshStat_CAL_BAD (bit (!s1.calGood))).setF F.fshStat_PW_FAILS 0)

/-! ### Keypad (R348 to R351) -/

/-- Key `c` is recognised pressed. -/
def State.keyDown (s : State) (c : Nat) : Bool := bitsOf (s.getF F.sloKeyState_DOWN) c 1 == 1

/-- The chord timer stops. -/
def State.chordStop (s : State) : State :=
  ((s.setF F.sloChord_ELAPSED s.chordMs).setF F.sloChord_ARMED 0).mapSloe fun v => { v with fnAt := none }

/-- A recognised press or release: in the FIFO, or to the wake chord while the keypad is locked. -/
def State.keyEvent (s : State) (c : Nat) (press : Bool) : State :=
  let s1 := s.setF F.sloKeyState_DOWN (putBits (s.getF F.sloKeyState_DOWN) c 1 (bit press))
  let s2 := if press then s1.mapSloe fun v => { v with lastPress := s.now } else s1
  if s.flag F.sloChord_LOCKED then
    if c = 0 then
      (if press then ((s2.setF F.sloChord_ARMED 1).setF F.sloChord_ELAPSED 0).mapSloe fun v => { v with fnAt := some s.now }
       else if s.sloe.fnAt.isSome then s2.chordStop else s2)
    else if c = 5 ∧ press then
      match s.sloe.fnAt with
      | some t =>
        if s.now ≤ t + 2000000000 ∧ s.keyDown 0 then (s2.chordStop.setF F.sloChord_WAKE 1).setF F.sloChord_LOCKED 0 else s2
      | none => s2
    else s2
  else if 16 ≤ s.sloe.fifo.length then s2.setF F.sloKey_OVF 1
  else (s2.mapSloe fun v => { v with fifo := v.fifo ++ [(c, !press)] }).keyShow

/-- One sample of one key (R349). -/
def State.keySample (s : State) (c : Nat) (closed : Bool) : State :=
  let k := Tab.get (fun _ => (false, 0)) s.sloe.keys c
  let n := if closed = k.1 then min 3 (k.2 + 1) else 1
  let s1 := s.mapSloe fun v => { v with keys := Tab.set (fun _ => (false, 0)) v.keys c (closed, n) }
  if (if s.mode = 2 then 2 else 3) ≤ n ∧ closed ≠ s.keyDown c then s1.keyEvent c closed else s1

/-- KEY_SCAN: every key is sampled, in ascending code. -/
def execKeyScan (closed : BitVec 30) (s : State) : Out :=
  .next (s.live fun s => (upTo 30).foldl (fun s c => s.keySample c (closed.getLsbD c)) s)

/-- KEY_POP: a read of `SLO_KEY` pops the head. -/
def execKeyPop (s : State) : Out := .next (s.live fun s => (s.sloReg .sloKey 0 0).2)

/-- KEYPAD_LOCK. -/
def execKeypadLock (s : State) : Out :=
  .next (s.live fun s =>
    let d := s.getF F.sloChord_IDLE_S
    if d = 0 ∨ s.flag F.sloChord_LOCKED ∨ s.now < s.sloe.lastPress + d * 1000000000 then s
    else (s.setF F.sloChord_LOCKED 1).mapSloe fun v => { v with page := (0, 0) })

/-- CHORD_TIMEOUT. -/
def execChordTimeout (s : State) : Out :=
  .next (s.live fun s =>
    match s.sloe.fnAt with
    | some t => if t + 2000000000 ≤ s.now then s.chordStop else s
    | none => s)

/-! ### Display (R352 to R356) -/

/-- CRC-16 of the display and the flash records (R353). -/
def crc16 (l : List Byte) : Nat := crcMSB 16 0x1021 0xFFFF l

/-- The 32 bytes of the shadow frame. -/
def State.shadow (s : State) : List Byte := (upTo 4).flatMap fun w => bytesLE 8 (s.reg .sloDispFrame w 0 0)

/-- The level driven: the target, from the cell at most 50 mV below it; SHORT when that falls short (R356). -/
def State.drive (s : State) (cell : Bool) (target cellMv : Nat) : State :=
  (s.setF F.sloLcd_VLCD_MV (if cell then min target (cellMv - 50) else target)).setF F.sloLcd_SHORT
    (bit (cell && decide (cellMv - 50 < target)))

/-- The bias source follows the mode at a frame start, with the level that it gives. -/
def State.biasChange (s : State) : State :=
  let cell := s.mode == 2
  if s.flag F.sloLcd_LADDER = cell then s
  else (s.setF F.sloLcd_LADDER (bit cell)).drive cell (s.getF F.sloLcd_TARGET_MV) (s.getF F.sloMode_CELL_MV)

/-- FRAME_START: a commit takes effect, the bias follows the mode, and the frame's CRC is checked. -/
def execFrameStart (s : State) : Out :=
  .next (s.live fun s =>
    let s1 :=
      if s.flag F.sloDispCrc_PENDING then
        (s.mapSloe fun v => { v with active := Tab.writeBytes zeroByte [] 0 s.shadow, ref := s.getF F.sloDispCrc_CRC }).setF
          F.sloDispCrc_PENDING 0
      else s
    let s2 := s1.biasChange
    if !s.flag F.sloDispBlink_EN then s2
    else
      let c := crc16 (Tab.readBytes zeroByte s2.sloe.active 0 32)
      let s3 := s2.setF F.sloDispCrc_LAST_CALC c
      if c = s2.sloe.ref then s3.setF F.sloDispCrc_ROM_SHOWN 0
      else if s.flag F.sloDispCrc_ROM_SHOWN then s3
      else (((s3.setF F.sloDispCrc_ROM_SHOWN 1).setF F.sloDispCrc_MISMATCH 1).countF F.sloDispCrc_MISMATCHES 1).ringPut 0 0x0E 0)

/-- DISPLAY_COMMIT: `SLO_DISP_CRC` with COMMIT = 1. -/
def execDisplayCommit (crc : Half) (s : State) : Out :=
  .next (s.live fun s => s.sloRegWrite .sloDispCrc 0 0 (crc.toNat + 2 ^ 16) false)

/-- VLCD_UPDATE: the die temperature sets the target; from the cell the level stays 50 mV below it. -/
def execVlcdUpdate (temp : BitVec 8) (cellMv : Nat) (s : State) : Out :=
  .next (s.live fun s =>
    let target := (max 2600 (min 3400 (3000 - 10 * (temp.toInt - 25)))).toNat
    ((s.setF F.sloLcd_TEMP temp.toNat).setF F.sloLcd_TARGET_MV target).drive (s.flag F.sloLcd_LADDER) target cellMv)

/-- The segment bytes of the ROM pattern of R354: "dISP" in digits 15 to 12, "Err" in digits 10 to 8, ERR on. -/
def romPattern : List Byte :=
  [0, 0, 0, 0, 0, 0, 0, 0, 0x50, 0x50, 0x79, 0, 0x73, 0x6D, 0x06, 0x5E, 0, 0x40, 0]

/-- What the LCD drives: digits 0 to 15, then the annunciators; nothing while EN is 0. Blinking blanks the second half of every
second of the clock (R355). -/
def State.lcd (s : State) : List Byte :=
  if !s.flag F.sloDispBlink_EN then List.replicate 19 0
  else
    let l := if s.flag F.sloDispCrc_ROM_SHOWN then romPattern else Tab.readBytes zeroByte s.sloe.active 0 19
    if 500000000 ≤ (s.now - s.sloe.rtcAt) % 1000000000 then
      (upTo 19).map fun i =>
        let b := l.getD i 0
        if i < 16 then (if bitsOf (s.getF F.sloDispBlink_DIGITS) i 1 = 1 then 0 else b)
        else b &&& ~~~(BitVec.ofNat 8 (bitsOf (s.getF F.sloDispBlink_ANN) (8 * (i - 16)) 8))
    else l

/-! ### Sensors and alarms (R357, R358) -/

/-- Whether an injection of a point waits, and the state without it. -/
def State.takeInj (s : State) (point : Nat) : Bool × State :=
  match s.ras.inj.find? fun i => i.point == point with
  | some i => (true, { s with ras := { s.ras with inj := s.ras.inj.erase i } })
  | none => (false, s)

/-- LEAK_SAMPLE: AL01 on two consecutive wet samples; a dry sample ends the condition. -/
def execLeakSample (wet : Bool) (s : State) : Out :=
  .next (s.live fun s =>
    let i := s.takeInj 0x31
    let s1 := i.2
    if wet || i.1 then
      let s2 := s1.mapSloe fun v => { v with wet := min 2 (v.wet + 1) }
      if s2.sloe.wet = 2 ∧ !s.alarmNow 1 then (s2.mapSloe fun v => { v with leakAt := s.now }).alarmRaise 1 0 else s2
    else (s1.mapSloe fun v => { v with wet := 0 }).alarmClear 1)

/-- LEAK_SHUT: the power stage goes off when the rope has stayed wet for LEAK_SHUT seconds. -/
def execLeakShut (s : State) : Out :=
  .next (s.live fun s =>
    let d := s.getF F.sloAlarmCfg_LEAK_SHUT
    if s.mode = 0 ∧ s.alarmNow 1 ∧ d ≠ 0 ∧ s.sloe.leakAt + d * 1000000000 ≤ s.now then s.mainOff else s)

/-- OUTLET_TEMP_SAMPLE: AL02 above OT_LIMIT, with the power stage off at once in RUN; it clears 5 °C below. -/
def execOutletTempSample (temp : BitVec 8) (s : State) : Out :=
  .next (s.live fun s =>
    let i := s.takeInj 0x32
    let s1 := i.2.setF F.sloMode_OUTLET_T temp.toNat
    let lim : Int := s.getF F.sloAlarmCfg_OT_LIMIT
    if i.1 || decide (lim < temp.toInt) then
      if s.alarmNow 2 then s1
      else
        let s2 := s1.alarmRaise 2 0
        if s2.mode = 0 then s2.mainOff else s2
    else if temp.toInt ≤ lim - 5 then s1.alarmClear 2
    else s1)

/-- LID_OPEN: the lid latch raises AL03. -/
def execLidOpen (s : State) : Out := .next s.lidOpened

/-- CELL_MEASURE: AL04 below 2.60 V. -/
def execCellMeasure (mv : Nat) (s : State) : Out :=
  .next (s.live fun s =>
    let low := decide (mv < 2600)
    let s1 := (s.setF F.sloMode_CELL_MV mv).setF F.sloMode_CELL_LOW (bit low)
    if !low then s1.alarmClear 4 else if s.alarmNow 4 then s1 else s1.alarmRaise 4 0)

/-- ALARM_ACK by SMBus (not served in CELL), by OK on an alarm page, or by a write of PENDING. -/
def execAlarmAck (by_ : AckBy) (s : State) : Out :=
  .next (s.live fun s =>
    match by_ with
    | .smbus m => if s.mode = 2 then s else s.alarmAck (m.toNat % 32)
    | .page k => s.alarmAck (2 ^ k.val)
    | .register m => s.sloRegWrite .sloAlarm 0 0 (m.toNat * 2 ^ 8) false)

/-- ACKNOWLEDGE_ALL_ALARMS: menu item 0x6A. -/
def execAcknowledgeAllAlarms (s : State) : Out := .next (s.menuUse 0x6A fun s => s.alarmAck 31)

/-! ### Ring and flash records (R360, R388, R389) -/

/-- A flash sector takes a program or an erase of the firmware: no operation runs, and neither protection holds it. -/
def State.sectorOpen (s : State) (sec : Nat) : Bool :=
  s.mode != 2 && s.sloe.fop.isNone && bitsOf (s.getF F.fshWp_WP (sec / 64)) (sec % 64) 1 == 0 && !s.nvLocked sec

/-- A whole program by the firmware: `data` at flash address `a`. -/
def State.flashPut (s : State) (a : Nat) (data : List Byte) : State :=
  let s1 := s.mapSloe fun v => { v with flash := andBytes v.flash a data }
  (s1.setFpage (a / 256) { progs := (s.fpage (a / 256)).progs + 1, st := 1 }).setF F.fshStat_DONE 1

/-- A whole erase of a sector by the firmware. -/
def State.sectorErase (s : State) (sec : Nat) : State :=
  let s1 := (s.mapSloe fun v => { v with flash := v.flash.filter fun x => x.1 / 4096 != sec }).setFsector sec 0
  ((upTo 16).foldl (fun s i => s.setFpage (sec * 16 + i) {}) s1).setF F.fshStat_DONE 1

/-- The next log slot that takes an entry, from slot `n`: a sector is erased before its first program; a TORN or full page is left
(R388). -/
def State.logSlot : Nat → Nat → State → Nat × State
  | 0, n, s => (n, s)
  | k + 1, n, s =>
    let s1 := if n % 256 = 0 then s.sectorErase (114 + n / 256) else s
    let p := s1.fpage (1824 + n / 16)
    if p.st = 2 ∨ 16 ≤ p.progs then State.logSlot k ((n / 16 + 1) * 16 % 2048) s1 else (n, s1)

/-- Copy the oldest pending entry of the ring to the flash log. -/
def State.copyEntry (s : State) : State :=
  let pend := s.getF F.sloRing_PEND
  let k := (s.sloe.ringNo + 2 ^ 32 - pend) % 2 ^ 32
  let r := State.logSlot 130 s.sloe.logNext s
  let n := r.1
  if pend = 0 ∨ !s.sectorOpen (114 + s.sloe.logNext / 256) ∨ !s.sectorOpen (114 + n / 256) then s
  else
    let s1 := r.2.flashPut (0x72000 + n * 16) (Tab.readBytes zeroByte s.sloe.ring (k % 64 * 16) 16)
    (s1.mapSloe fun v => { v with logNext := (n + 1) % 2048 }).setF F.sloRing_PEND (pend - 1)

/-- Copy every pending entry. -/
def State.copyRing (s : State) : State := (upTo 64).foldl (fun s _ => s.copyEntry) s

/-- RING_COPY: in RUN or STANDBY every entry not yet copied goes to the flash log. -/
def execRingCopy (s : State) : Out := .next (s.live fun s => if s.mode = 2 then s else s.copyRing)

/-- RING_COPY_NOW: menu item 0x67. -/
def execRingCopyNow (s : State) : Out := .next (s.menuUse 0x67 fun s => if s.mode = 2 then s else s.copyRing)

/-- RING_CLEAR: menu item 0x68; its own entry is the first of the emptied ring. -/
def execRingClear (s : State) : Out :=
  .next (s.live fun s => if s.flag F.sloPin_UNLOCKED then s.ringEmpty.ringPut 3 0x68 0 else s)

/-- A PIN record (R389): bytes 0 to 13 and their CRC. -/
def pinRecord (seqNo : Nat) (digits : List Nat) : List Byte :=
  let g (i : Nat) : Nat := digits.getD i 0
  let b := bytesLE 4 seqNo ++ (upTo 3).map (fun i => BitVec.ofNat 8 (g (2 * i) * 16 + g (2 * i + 1))) ++ List.replicate 7 0xFF
  b ++ bytesLE 2 (crc16 b)

/-- The PIN record in slot `n` of sectors 122 and 123: its SEQ and digits. -/
def State.pinAt (s : State) (n : Nat) : Option (Nat × List Nat) :=
  let b := Tab.readBytes erasedByte s.sloe.flash (0x7A000 + n * 16) 16
  let p := s.fpage (1952 + n / 16)
  let ds := (b.drop 4).take 3 |>.flatMap fun x => [x.toNat / 16, x.toNat % 16]
  if p.progs ≤ n % 16 || (p.st == 2 && n % 16 + 1 == p.progs) || s.fsector (122 + n / 256) != 0 || ds.any (fun d => decide (9 < d)) then none
  else if crc16 (b.take 14) = natLE (b.drop 14) then some (natLE (b.take 4), ds)
  else none

/-- The valid record with the highest SEQ, modulo 2^32, with its slot. -/
def State.pinLast (s : State) : Option (Nat × Nat × List Nat) :=
  (upTo 512).foldl (fun a n =>
    match s.pinAt n, a with
    | some r, some b => if (r.1 + 2 ^ 32 - b.2.1) % 2 ^ 32 < 2 ^ 31 then some (n, r) else a
    | some r, none => some (n, r)
    | none, _ => a) none

/-- The PIN in force. -/
def State.pinNow (s : State) : List Nat :=
  match s.pinLast with
  | some r => r.2.2
  | none => [0, 0, 0, 0, 0, 0]

/-- PIN_ENTRY: a correct PIN opens a session; the fifth consecutive wrong one, or a wrong one after a lockout, starts the lockout. -/
def execPinEntry (digits : List (Fin 10)) (s : State) : Out :=
  .next (s.live fun s =>
    if digits.length ≠ 6 ∨ s.lockLeft ≠ 0 then s
    else
      let s0 := s.mapSloe fun v => { v with lockAt := none, lastPress := s.now }
      if digits.map (·.val) = s.pinNow then (s0.setF F.sloPin_UNLOCKED 1).setF F.sloPin_FAILS 0
      else
        let n := min 5 (s.getF F.sloPin_FAILS + 1)
        (s0.setF F.sloPin_FAILS n).mapSloe fun v => { v with lockAt := if n = 5 then some s.now else none })

/-- PIN_SESSION_TIMEOUT. -/
def execPinSessionTimeout (s : State) : Out :=
  .next (s.live fun s => if s.sloe.lastPress + 300000000000 ≤ s.now then s.setF F.sloPin_UNLOCKED 0 else s)

/-- PIN_LOCKOUT_END: one attempt is allowed; FAILS stays at 5. -/
def execPinLockoutEnd (s : State) : Out :=
  .next (s.live fun s => if s.lockLeft = 0 then s.mapSloe fun v => { v with lockAt := none } else s)

/-- The first page of a sector that takes another program. -/
def State.freePage (s : State) (sec : Nat) : Option Nat :=
  ((upTo 16).map fun i => sec * 16 + i).find? fun p => (s.fpage p).st != 2 && decide ((s.fpage p).progs < 16)

/-- PIN_CHANGE: menu item 0x69 programs a new record with the next SEQ, in the other sector where it would not fit. -/
def execPinChange (digits : List (Fin 10)) (s : State) : Out :=
  .next (
    if digits.length ≠ 6 then s
    else s.menuUse 0x69 fun s =>
      let cur := s.pinLast
      let sec := match cur with
        | some r => 122 + r.1 / 256
        | none => 122
      let sq := match cur with
        | some r => (r.2.1 + 1) % 2 ^ 32
        | none => 0
      let rec_ := pinRecord sq (digits.map (·.val))
      let oth := 245 - sec
      if !s.sectorOpen sec then s
      else match s.freePage sec with
        | some p => s.flashPut (p * 256 + (s.fpage p).progs * 16) rec_
        | none => if s.sectorOpen oth then (s.sectorErase oth).flashPut (oth * 4096) rec_ else s)

/-! ### Menus (R364) -/

/-- MENU: MENU opens the menus while the keypad is unlocked; UP and DOWN move between the menus, or the items of menu 6; OK
enters, and in menu 6 uses an item that is a command of its own to the Hub (0x61, 0x62, 0x66), whose ring entry it writes; ESC
leaves, and from menu 6 it ends the session. -/
def execMenu (k : MenuKey) (s : State) : Out :=
  .next (s.live fun s =>
    if s.flag F.sloChord_LOCKED then s
    else
      let m := s.sloe.page.1
      let i := s.sloe.page.2
      let go (m i : Nat) : State := s.mapSloe fun v => { v with page := (m, i) }
      match k with
      | .menu => if m = 0 then go 1 0 else s
      | .up => if m = 0 then s else if i = 0 then go (max 1 (m - 1)) 0 else if m = 6 then go 6 (max 1 (i - 1)) else s
      | .down => if m = 0 then s else if i = 0 then go (min 6 (m + 1)) 0 else if m = 6 then go 6 (min 10 (i + 1)) else s
      | .ok =>
        if m = 0 then s
        else if i = 0 then go m 1
        else if m = 6 ∧ (i = 1 ∨ i = 2 ∨ i = 6) ∧ s.relayUp then s.menuUse (0x60 + i) id
        else s
      | .esc =>
        let s1 := if i = 0 then go 0 0 else go m 0
        if m = 6 then s1.setF F.sloPin_UNLOCKED 0 else s1)

end Sys2Proof.Machine
end

