-- ==== Sys2Proof/Machine/Calc.lean ====
section
/-! DEFINITION. The service calculator (R361, R362), and what its page and the idle page show (R357, R363). -/

namespace Sys2Proof.Machine

open Sys2Proof

/-! ### Values (R361) -/

/-- The number of decimal digits of a number, up to `fuel`. -/
def decLen : Nat → Nat → Nat
  | 0, _ => 0
  | k + 1, n => if n = 0 then 0 else 1 + decLen k (n / 10)

/-- `a / b` to the nearest number, ties to even. -/
def divEven (a b : Nat) : Nat :=
  let q := a / b
  let r := a - q * b
  if b < 2 * r ∨ (2 * r = b ∧ q % 2 = 1) then q + 1 else q

/-- The value of mantissa `q` (at most 10^15) at exponent `e`; none is an error, an underflow is 0. -/
def calcMake (neg : Bool) (q : Nat) (e : Int) : Option CVal :=
  let q' := if q = 10 ^ 15 then 10 ^ 14 else q
  let e' := if q = 10 ^ 15 then e + 1 else e
  if q = 0 ∨ e' < -99 then some {} else if 99 < e' then none else some ⟨neg, q', e'⟩

/-- An exact ratio rounded to 15 significant digits half-even (R361). -/
def calcRound (neg : Bool) (n d : Nat) : Option CVal :=
  if n = 0 then some {}
  else
    let e0 : Int := (decLen 450 n : Int) - decLen 450 d
    let up := if 0 ≤ e0 then decide (d * 10 ^ e0.toNat ≤ n) else decide (d ≤ n * 10 ^ (-e0).toNat)
    let e := if up then e0 else e0 - 1
    calcMake neg (if e ≤ 14 then divEven (n * 10 ^ (14 - e).toNat) d else divEven n (d * 10 ^ (e - 14).toNat)) e

/-- The magnitude of a value as a ratio. -/
def CVal.ratio (x : CVal) : Nat × Nat :=
  if 14 ≤ x.e then (x.m * 10 ^ (x.e - 14).toNat, 1) else (x.m, 10 ^ (14 - x.e).toNat)

/-- The negated value. -/
def CVal.negate (x : CVal) : CVal := if x.m = 0 then x else { x with neg := !x.neg }

/-- One operation, formed exactly and rounded; none is an error. -/
def calcOp (op : COp) (a b : CVal) : Option CVal :=
  let x := a.ratio
  let y := b.ratio
  let sum (bn : Bool) : Option CVal :=
    let p : Int := if a.neg then -(x.1 * y.2 : Nat) else (x.1 * y.2 : Nat)
    let q : Int := if bn then -(y.1 * x.2 : Nat) else (y.1 * x.2 : Nat)
    calcRound (decide (p + q < 0)) (p + q).natAbs (x.2 * y.2)
  match op with
  | .add => sum b.neg
  | .sub => sum (!b.neg)
  | .mul => calcRound (a.neg != b.neg) (x.1 * y.1) (x.2 * y.2)
  | .div => if b.m = 0 then none else calcRound (a.neg != b.neg) (x.1 * y.2) (x.2 * y.1)

/-- The integer square root of a number below 4^k. -/
def isqrt (k n : Nat) : Nat := (List.range k).foldr (fun i r => if (r + 2 ^ i) * (r + 2 ^ i) ≤ n then r + 2 ^ i else r) 0

/-- The square root, rounded half-even. -/
def calcRoot (x : CVal) : Option CVal :=
  if x.m = 0 then some {}
  else if x.neg then none
  else
    let h : Int := x.e / 2
    let k : Int := 14 + x.e - 2 * h
    let n := x.m * 10 ^ k.toNat
    let q := isqrt 52 n
    calcMake false (if (2 * q + 1) * (2 * q + 1) < 4 * n ∨ ((2 * q + 1) * (2 * q + 1) = 4 * n ∧ q % 2 = 1) then q + 1 else q) h

/-- The number 100. -/
def hundred : CVal := ⟨false, 10 ^ 14, 2⟩

/-- The percent rule of R362: each step rounded. -/
def calcPercentOf (a : CVal) (op : COp) (b : CVal) : Option CVal :=
  let part := (calcOp .mul a b).bind fun t => calcOp .div t hundred
  match op with
  | .add => part.bind fun t => calcOp .add a t
  | .sub => part.bind fun t => calcOp .sub a t
  | .mul => part
  | .div => (calcOp .div a b).bind fun t => calcOp .mul t hundred

/-! ### Keys (R362) -/

/-- The value of an entry: digits, decimals, sign. -/
def entryVal (e : List Nat × Option Nat × Bool) : CVal :=
  let n := e.1.foldl (fun a d => 10 * a + d) 0
  (calcRound e.2.2 n (10 ^ e.2.1.getD 0)).getD {}

/-- The calculator with an entry. -/
def Calc.enter (c : Calc) (e : List Nat × Option Nat × Bool) : Calc := { c with entry := some e, x := entryVal e, have_ := true }

/-- The calculator with a result: an operand where `operand` says so. -/
def Calc.result (c : Calc) (r : Option CVal) (operand : Bool) : Calc :=
  match r with
  | some v => { c with x := v, entry := none, have_ := operand }
  | none => { c with x := {}, entry := none, have_ := operand, err := true }

/-- A digit key. -/
def Calc.digit (c : Calc) (d : Nat) : Calc :=
  match c.entry with
  | none => c.enter ([d], none, false)
  | some (ds, p, n) =>
    if ds = [0] ∧ p = none then c.enter ([d], none, n)
    else if 12 ≤ ds.length then c
    else c.enter (ds ++ [d], p.map (· + 1), n)

/-- The point key. -/
def Calc.point (c : Calc) : Calc :=
  match c.entry with
  | none => c.enter ([0], some 0, false)
  | some (ds, none, n) => c.enter (ds, some 0, n)
  | some (_, some _, _) => c

/-- Complete the pending operation, if there is one. -/
def Calc.complete (c : Calc) : Calc :=
  match c.pend with
  | some (a, op) => { (c.result (calcOp op a c.x) false) with pend := none, last := some (op, c.x) }
  | none => { c with entry := none }

/-- An operation key: left to right, with no precedence. -/
def Calc.opKey (c : Calc) (op : COp) : Calc :=
  let c1 := if c.have_ then c.complete else c
  if c1.err then c1 else { c1 with pend := some (c1.x, op), entry := none, have_ := false }

/-- The = key. -/
def Calc.equals (c : Calc) : Calc :=
  match c.pend, c.last with
  | some _, _ => c.complete
  | none, some (op, b) => c.result (calcOp op c.x b) false
  | none, none => { c with entry := none }

/-- The % key; it leaves no operation for = to repeat (assumption 25). -/
def Calc.percent (c : Calc) : Calc :=
  match c.pend with
  | some (a, op) => { (c.result (calcPercentOf a op c.x) false) with pend := none, last := none }
  | none => c.result (calcOp .div c.x hundred) true

/-- The ± key. -/
def Calc.sign (c : Calc) : Calc :=
  match c.entry with
  | some (ds, p, n) => c.enter (ds, p, !n)
  | none => { c with x := c.x.negate, have_ := true }

/-- The ← key; a point with no digit behind it goes with the digit (assumption 25). -/
def Calc.delete (c : Calc) : Calc :=
  match c.entry with
  | none => c
  | some (ds, p, n) =>
    let ds' := ds.dropLast
    let p' := match p with
      | some (k + 1) => some k
      | some 0 => none
      | none => none
    c.enter (if ds'.isEmpty then [0] else ds', p', n)

/-- M+ and M−. -/
def Calc.memAdd (c : Calc) (op : COp) : Calc :=
  match calcOp op c.mem c.x with
  | some v => { c with mem := v, entry := none, have_ := true }
  | none => { c with err := true, entry := none }

/-- A key acts on the calculator, unless an error shows. -/
def State.calcKey (s : State) (f : Calc → Calc) : Out :=
  .next (s.live fun s => if s.sloe.calculator.err then s else s.mapSloe fun v => { v with calculator := f v.calculator })

/-- C and AC act in an error, too. -/
def State.calcClear (s : State) (f : Calc → Calc) : Out :=
  .next (s.live fun s => s.mapSloe fun v => { v with calculator := f v.calculator })

def execCalcDigit (d : Fin 10) (s : State) : Out := s.calcKey fun c => c.digit d.val
def execCalcPoint (s : State) : Out := s.calcKey Calc.point
def execCalcAdd (s : State) : Out := s.calcKey fun c => c.opKey .add
def execCalcSubtract (s : State) : Out := s.calcKey fun c => c.opKey .sub
def execCalcMultiply (s : State) : Out := s.calcKey fun c => c.opKey .mul
def execCalcDivide (s : State) : Out := s.calcKey fun c => c.opKey .div
def execCalcEquals (s : State) : Out := s.calcKey Calc.equals
def execCalcPercent (s : State) : Out := s.calcKey Calc.percent
def execCalcSqrt (s : State) : Out := s.calcKey fun c => c.result (calcRoot c.x) true
def execCalcSquare (s : State) : Out := s.calcKey fun c => c.result (calcOp .mul c.x c.x) true
def execCalcReciprocal (s : State) : Out := s.calcKey fun c => c.result (calcOp .div ⟨false, 10 ^ 14, 0⟩ c.x) true
def execCalcSign (s : State) : Out := s.calcKey Calc.sign
def execCalcDelete (s : State) : Out := s.calcKey Calc.delete
/-- C: the entry and any error are cleared. -/
def execCalcC (s : State) : Out := s.calcClear fun c => { c with x := {}, entry := none, have_ := true, err := false }
/-- AC: the entry, the pending operation and any error are cleared. -/
def execCalcAc (s : State) : Out :=
  s.calcClear fun c => { c with x := {}, entry := none, have_ := false, pend := none, err := false }
def execCalcMc (s : State) : Out := s.calcKey fun c => { c with mem := {} }
def execCalcMr (s : State) : Out := s.calcKey fun c => c.result (some c.mem) true
def execCalcMPlus (s : State) : Out := s.calcKey fun c => c.memAdd .add
def execCalcMMinus (s : State) : Out := s.calcKey fun c => c.memAdd .sub

/-! ### What the pages show (R352, R357, R363) -/

/-- The segments of a decimal digit (R352). -/
def digitSeg (d : Nat) : Byte := [0x3F, 0x06, 0x5B, 0x4F, 0x66, 0x6D, 0x7D, 0x07, 0x7F, 0x6F].getD d 0

/-- `a / b` rounded half-up (R363). -/
def divUp (a b : Nat) : Nat := (2 * a + b) / (2 * b)

/-- The decimal digits of a number, lowest first, `k` of them. -/
def decDigits : Nat → Nat → List Nat
  | 0, _ => []
  | k + 1, n => n % 10 :: decDigits k (n / 10)

/-- Trailing fractional zeros go: the number and its decimals. -/
def trimZeros : Nat → Nat → Nat × Nat
  | 0, n => (n, 0)
  | k + 1, n => if n % 10 = 0 then trimZeros k (n / 10) else (n, k + 1)

/-- Segments of digits 3 to 14 for `n` with `k` decimals, right-justified. -/
def fixedSegs (n k : Nat) : List Byte :=
  let len := max (decLen 20 n) (k + 1)
  (decDigits 12 n).mapIdx fun i d =>
    if len ≤ i then 0 else if i = k ∧ k ≠ 0 then digitSeg d ||| 0x80 else digitSeg d

/-- The number and decimals of fixed notation, where it applies after rounding. -/
def fixedForm (x : CVal) : Option (Nat × Nat) :=
  let r := x.ratio
  let k : Nat := if 0 ≤ x.e then 11 - x.e.toNat else 11
  let q := divUp (r.1 * 10 ^ k) r.2
  if x.m = 0 then some (0, 0)
  else if 11 < x.e then none
  else if q < 10 ^ 9 ∧ x.e < 0 then none
  else if q < 10 ^ 12 then some (trimZeros k q)
  else if k = 0 then none
  else some (trimZeros (k - 1) (q / 10))

/-- The calculator page: digits 0 to 15. -/
def calcView (c : Calc) : List Byte :=
  if c.err then [0x50, 0x50, 0x79] ++ List.replicate 13 0
  else
    let sg : Byte := if c.x.neg then 0x40 else 0
    match fixedForm c.x with
    | some (n, k) => [0, 0, 0] ++ fixedSegs n k ++ [sg]
    | none =>
      let q := divUp c.x.m 1000
      let e := if q = 10 ^ 12 then c.x.e + 1 else c.x.e
      let ds := decDigits 12 (if q = 10 ^ 12 then 10 ^ 11 else q)
      [digitSeg (e.natAbs % 10), digitSeg (e.natAbs / 10 % 10), if e < 0 then 0x40 else 0]
        ++ ds.mapIdx (fun i d => if i = 11 then digitSeg d ||| 0x80 else digitSeg d) ++ [sg]

/-- The lowest-numbered alarm that the idle page shows: a pending one, else one in force. -/
def State.shownAlarm (s : State) : Option Nat :=
  let m := if s.getF F.sloAlarm_PENDING = 0 then s.getF F.sloAlarm_NOW else s.getF F.sloAlarm_PENDING
  (upTo 5).find? fun k => bitsOf m k 1 == 1

/-- The idle page: digits 0 to 15 (Table 16.6, R342). -/
def State.idleView (s : State) : List Byte :=
  let safe := s.mode == 0 && s.flag F.secBootStat_SAFE
  let code := s.getF F.secBootStat_SAFE_CODE
  let hexSeg (d : Nat) : Byte := if d < 10 then digitSeg d else [0x77, 0x7C, 0x39, 0x5E, 0x79, 0x71].getD (d - 10) 0
  let low : List Byte :=
    if safe then [hexSeg (code % 16), hexSeg (code / 16), 0]
    else if s.mode ≠ 0 then [0, 0, 0]
    else if s.getF F.fldUnitHealth_STATE = 0 then [0x37, 0x3F, 0x54]
    else if s.getF F.fldUnitHealth_STATE = 1 then [0x3D, 0x79, 0x5E]
    else [0x58, 0x54, 0x06]
  let al : List Byte := match s.shownAlarm with
    | some k => [digitSeg (k + 1), digitSeg 0, 0x38, 0x77]
    | none => [0, 0, 0, 0]
  let top : List Byte :=
    if safe then [0x79, 0x71, 0x77, 0x6D]
    else if s.mode = 0 then [0, 0x54, 0x1C, 0x50]
    else if s.mode = 1 then [0x6E, 0x7C, 0x78, 0x6D]
    else [0x38, 0x38, 0x79, 0x39]
  low ++ [0] ++ al ++ [0, 0, 0, 0] ++ top

end Sys2Proof.Machine
end

