-- ==== Sys2Proof/Machine/Flash.lean ====
section
/-! DEFINITION. The commands of the Sloe flash (R370 to R390). -/

namespace Sys2Proof.Machine

open Sys2Proof

/-- PROGRAM (R373). -/
def execFlProgram (key : Half) (s : State) : Out := .next (s.live fun s => s.flashCmd 1 key.toNat)

/-- ERASE (R373). -/
def execFlErase (key : Half) (s : State) : Out := .next (s.live fun s => s.flashCmd 2 key.toNat)

/-- OPT_PROGRAM (R384). -/
def execFlOptProgram (key : Half) (s : State) : Out := .next (s.live fun s => s.flashCmd 3 key.toNat)

/-- OPT_ERASE (R384). -/
def execFlOptErase (key : Half) (s : State) : Out := .next (s.live fun s => s.flashCmd 4 key.toNat)

/-- UNLOCK (R386). -/
def execFlUnlock (s : State) : Out := .next (s.live fun s => s.flashCmd 5 0)

/-- LOCK (R386). -/
def execFlLock (s : State) : Out := .next (s.live fun s => s.flashCmd 6 0)

/-- OPT_LOAD (R383). -/
def execFlOptLoad (s : State) : Out := .next (s.live fun s => s.flashCmd 7 0)

/-- SUSPEND (R377). -/
def execFlSuspend (s : State) : Out := .next (s.live fun s => s.flashSuspend)

/-- RESUME (R377). -/
def execFlResume (s : State) : Out := .next (s.live fun s => s.flashResume)

/-- The length of a pulse or pass in ns, and how many there are at most (R375). -/
def pulseNs (cmd : Nat) : Nat := if cmd = 1 ∨ cmd = 3 then 400000 else 1000000

/-- At most 3 passes or 40 pulses (R375). -/
def pulseMax (cmd : Nat) : Nat := if cmd = 1 ∨ cmd = 3 then 3 else 40

/-- FLASH_PULSE_COMPLETE: a pulse or pass of the running operation has had its time. -/
def execFlashPulseComplete (s : State) : Out :=
  .next (s.live fun s =>
    match s.sloe.fop with
    | some o =>
      if o.suspended || decide (s.now < o.since + pulseNs o.cmd) || decide (pulseMax o.cmd ≤ o.pulses) then s
      else (s.mapSloe fun v => { v with fop := some { o with pulses := o.pulses + 1, since := s.now } }).flashStat
    | none => s)

/-- FLASH_OPERATION_COMPLETE: after its last pass, or its last pulse and the verify. -/
def execFlashOperationComplete (s : State) : Out :=
  .next (s.live fun s =>
    match s.sloe.fop with
    | some o =>
      let v := if o.cmd = 1 ∨ o.cmd = 3 then 0 else 500000
      if o.suspended || o.pulses == 0 || decide (s.now < o.since + v) then s else s.flashDone o
    | none => s)

/-- FLASH_WINDOW_READ_STALL: a read of the window at a Sloe address while an operation runs (R376). -/
def execFlashWindowReadStall (addr : BitVec 16) (s : State) : Out := .next (s.live fun s => s.flashStallRead addr.toNat)

/-- WP_CLEAR: a write of `FSH_WP_CLR0` or 1, kept only from code of the Sloe ROM (R386). -/
def execWpClear (hi : Bool) (v : DWord) (fromRom : Bool) (s : State) : Out :=
  .next (s.live fun s => s.sloRegWrite .fshWpClr (if hi then 1 else 0) 0 v.toNat fromRom)

end Sys2Proof.Machine
end

