-- ==== Sys2Proof/Machine/RegView.lean ====
section
/-! DEFINITION. What the BAR0 registers read as: stored fields, and the fields that show other state (R6 to R8, R14, R44, R45, R319). -/

namespace Sys2Proof.Machine

open Sys2Proof

/-- The source copy of a register that exists once per source (R45). -/
def srcCopy (x : Source) : Nat := x.code + 1

/-- A register of a logical field of the power manager: its reset value until field release (R321). -/
def Reg.isPwrFld : Reg → Bool
  | .pwrFldReq | .pwrFldStat | .pwrClampStatus => true
  | _ => false

/-- A register that holds a 48-bit or 64-bit count, which a read of its low word latches (R319). -/
def Reg.isCount : Reg → Bool
  | .seqCnt | .dnsCntPass | .dnsCntStream | .hubEpochStamp | .hubSpill | .hbmCntRd | .hbmCntWr | .fldDlSnapTime | .tchLinkCnt
  | .rasWitSamples | .pwrEnergy | .pwrCntLend => true
  | _ => false

/-- `FLD_XLATE` of a source (Table 2.8). Before field release no map is in force: only LTILE and ERR show (assumption 101). -/
def State.xlateView (s : State) (f src : Nat) : Nat :=
  let t := s.getF F.fldXlate_LTILE f 0 src
  let err := decide (4900 ≤ t) || (s.released && s.offline f)
  let xy := s.ptileXY f t
  if !s.released then packF [(F.fldXlate_LTILE, t), (F.fldXlate_ERR, bit err)]
  else packF ([(F.fldXlate_LTILE, t), (F.fldXlate_ERR, bit err), (F.fldXlate_MAP_GEN, s.getF F.fldId_MAP_GEN f)]
    ++ if err then [] else [(F.fldXlate_PX, xy.1), (F.fldXlate_PY, xy.2), (F.fldXlate_PTILE, s.ptile f t)])

/-- `FLD_BAR` of the group that the source's selector names (Table 9.4). -/
def State.barView (s : State) (f src : Nat) : Nat :=
  let b := s.bar f (s.getF F.fldBarSel_GROUP f 0 src)
  packF [(F.fldBar_EXPECT, b.expect), (F.fldBar_CNT, b.cnt), (F.fldBar_SENSE, bit b.sense)]

/-- The tenant whose allotment holds a pool cell; 0 when none does. -/
def State.cellOwner (s : State) (f i : Nat) : Nat :=
  ((upTo 16).find? fun t => decide ((s.allot f t).1 ≤ i) && decide (i < (s.allot f t).1 + (s.allot f t).2)).getD 0

/-- `FLD_CELL` of the cell that the source's selector names (Table 9.4). -/
def State.cellView (s : State) (f src : Nat) : Nat :=
  let i := s.getF F.fldCellSel_CELL f 0 src
  let c := s.cell f i
  packF [(F.fldCell_SET, bit c.set), (F.fldCell_BOUND, bit c.bound), (F.fldCell_SIG, c.sig), (F.fldCell_LTILE, c.tile),
    (F.fldCell_OWNER, s.cellOwner f i), (F.fldCell_POISON, bit c.poison), (F.fldCell_WAITERS, c.waiters.length)]

/-- `DNS_STAT` (Table 7.4). -/
def State.dnsView (s : State) (f : Nat) : Nat :=
  let d := s.dense f
  let cur := d.running.getD ((d.queue.head?).getD ⟨0, 0, 0, 0, 0, 0, 0, false, false⟩)
  let bank := match d.conv with
    | c :: _ => c.pass.bank
    | [] => 0
  packF [(F.dnsStat_QUEUED, d.queue.length), (F.dnsStat_STREAMING, bit d.running.isSome), (F.dnsStat_CONVERTING, bit !d.conv.isEmpty),
    (F.dnsStat_CONV_BANK, bank), (F.dnsStat_FENCE_WAIT, bit d.fenceWait), (F.dnsStat_LOAD_WAIT, bit d.loadWait),
    (F.dnsStat_FEED_WAIT, bit d.feedWait), (F.dnsStat_DRAIN_WAIT, bit d.drainWait), (F.dnsStat_FROZEN, bit d.frozen),
    (F.dnsStat_WLOAD_BUSY, bit !d.wload.isEmpty), (F.dnsStat_TENANT, cur.tenant), (F.dnsStat_VEC, if d.running.isSome then d.vec else 0), (F.dnsStat_RSLOT, cur.rslot)]

/-- `HUB_TBL_STATE` of a table (Table 8.5). -/
def Tbl.view (x : Tbl) : Nat :=
  packF [(F.hubTblState_STATE_A, x.stA), (F.hubTblState_STATE_B, x.stB), (F.hubTblState_REGISTERED, bit x.registered),
    (F.hubTblState_RETIRING, bit x.retiring), (F.hubTblState_REFUSED, bit x.refused), (F.hubTblState_FLIP_EPOCH, x.flipEpoch),
    (F.hubTblState_DENIED, x.denied)]

/-- The requests of a tenant in flight in a field (R182). -/
def State.flying (s : State) (f t : Nat) : List Req :=
  s.hub.reqs.filter fun r => r.out && r.tenant == t && r.fields.contains f && !r.ended.contains f

/-- `FLD_EPOCH_DRAIN[t]` of a field (Table 8.7). -/
def State.drainView (s : State) (f t : Nat) : Nat :=
  let l := s.flying f t
  if l.isEmpty then packF [(F.fldEpochDrain_EMPTY, 1)]
  else packF [(F.fldEpochDrain_OLDEST, oldestEpoch (s.getF F.hubEpochStatus_EPOCH t) (l.map (·.epoch))),
    (F.fldEpochDrain_INFLIGHT, min 65535 l.length)]

/-- Whole minutes since a time, saturating. -/
def State.minutes (s : State) (t : Nat) : Nat := min 65535 ((s.now - t) / 60000000000)

/-- What a register reads as for a source: its fields under Table 0.1, with those that show other state. -/
def State.regView (s : State) (src : Nat) (r : Reg) (i j : Nat) : Nat :=
  let d := r.desc
  let v := accRead (s.reg r i j (if d.perSrc then src else 0)) d.fields
  let put (f : Fld) (x v : Nat) : Nat := putBits v f.lsb f.width x
  let tn := s.tblSel src
  if r.isMap && !s.released then (if r = .fldUnitHealth then put F.fldUnitHealth_STATE_EVT (v / 2 ^ 48) r.resetVal else r.resetVal)
  else if r.isPwrFld && !s.released then r.resetVal
  else match r with
    | .fldXlate => s.xlateView i src
    | .hubBrTrunk => if s.released then v else put F.hubBrTrunk_TWIN 0 (put F.hubBrTrunk_ABSENT 0 v)
    | .fldBar => s.barView i src
    | .fldCell => s.cellView i src
    | .dnsStat => s.dnsView i
    | .hubTblBaseA => (s.tbl tn.1 tn.2).baseA
    | .hubTblBaseB => (s.tbl tn.1 tn.2).baseB
    | .hubTblGeom => (s.tbl tn.1 tn.2).geom
    | .hubTblCtrl => put F.hubTblCtrl_COPY_FWD (bit (s.tbl tn.1 tn.2).copyFwd) 0
    | .hubTblState => (s.tbl tn.1 tn.2).view
    | .hubEpochStatus =>
      put F.hubEpochStatus_IN_FLIGHT (s.epochsOut i).length (put F.hubEpochStatus_DRAINING
        ((s.tablesOf i).filter fun x => x.2.stA == 4 || x.2.stA == 5 || x.2.stB == 4 || x.2.stB == 5).length v)
    | .hubEpochOldest =>
      let l := s.epochsOut i
      let e := s.getF F.hubEpochStatus_EPOCH i
      packF [(F.hubEpochOldest_OLDEST, if l.isEmpty then e else oldestEpoch e l), (F.hubEpochOldest_EMPTY, bit l.isEmpty)]
    | .fldEpochDrain => s.drainView i j
    | .fldDlStat => put F.fldDlStat_COUNTING (bit (s.condC i)) (put F.fldDlStat_COUNT (s.dlCount i) v)
    | .hubTenStat =>
      let m := (s.maskFields i).filter fun f => s.belongs i f
      put F.hubTenStat_RESIDENT (m.filter fun f => s.residentIs f i).length
        (put F.hubTenStat_SLICED (m.filter fun f => decide (1 < (s.tenantsOf f).length)).length v)
    | .hubWinBase => put F.hubWinBase_PAGE ((s.lastWindow (s.getF F.hubWinSel_TENANT 0 0 src) (s.getF F.hubWinSel_WINDOW 0 0 src)).base / 4096) 0
    | .hubWinLimit => put F.hubWinLimit_PAGE ((s.lastWindow (s.getF F.hubWinSel_TENANT 0 0 src) (s.getF F.hubWinSel_WINDOW 0 0 src)).limit / 4096) 0
    | .hubWinPerm => (s.lastWindow (s.getF F.hubWinSel_TENANT 0 0 src) (s.getF F.hubWinSel_WINDOW 0 0 src)).perm
    | .prtLink => put F.prtLink_PORT i v
    | .prtStat =>
      let x := s.port i
      let far := s.mesh.pkts.any fun k =>
        k.arrived && k.dst == .far && !k.isResp && k.op != .read && k.hostAt.1 == i && decide (s.creditNow i < k.data.length)
      let some_ := decide (s.creditNow i < 8) && !(x.pages.isEmpty && x.rejs.isEmpty)
      let msg := s.creditNow i == 0 && (x.evtDue || !x.irqDue.isEmpty)
      put F.prtStat_CREDIT_WAIT (bit (s.portIssues i && (some_ || far || msg))) v
    | .prtFar => put F.prtFar_START (s.farStart i / 2 ^ 30) v
    | .prtRingStat => put F.prtRingStat_WAITING ((s.port i).waiting j) (put F.prtRingStat_RING_FULL (bit (s.ringFull i j)) v)
    | .rasFencePend =>
      if s.flag F.rasFencePend_VALID i then put F.rasFencePend_LEFT ((Tab.get (fun _ => 0) s.ras.fenceDue i - s.now) / 1000000) v else v
    | .rasFenceStat =>
      packF [(F.rasFenceStat_PENDING, s.pendFences.length),
        (F.rasFenceStat_QUIESCING, bit ((upTo 92).any fun f => match (s.field f).quiesce with
          | some q => q.kind != 2
          | none => false))]
    | .rasSuspect =>
      if s.flag F.rasSuspect_VALID i then
        put F.rasSuspect_AGE (s.minutes (s.suspTime i)) (put F.rasSuspect_CONF (bit (s.confNow i)) (put F.rasSuspect_CONF_AGE
          (if s.confNow i then s.minutes (Tab.get (fun _ => 0) s.ras.confAt i) else 0) v))
      else v
    | .pwrEnvelope => put F.pwrEnvelope_BASE_Q s.baseQ v
    | .otpRdData => Tab.readLE zeroByte s.sec.otp (8 * s.getF F.otpRdSel_WORD 0 0 src) 8
    | _ => v

/-! ### Hardened registers (R293, R294) -/

/-- A hardened register's configuration fields at their reset value, in every copy that a source has of it; a table register names the
table that a source selects (assumption 138). -/
def State.hardReset (s : State) (r : Reg) (i j : Nat) : State :=
  let m := r.hardMask
  let v (k : Nat) : Nat := (r.resetVal &&& m) ||| (s.reg r i j k ^^^ (s.reg r i j k &&& m))
  let tbl (g : Tbl → Tbl) : State := (upTo 6).foldl (fun s k =>
    let n := s.tblSel (k + 1)
    s.setTbl n.1 n.2 (g (s.tbl n.1 n.2))) s
  match r with
  | .hubTblBaseA => tbl fun x => { x with baseA := 0 }
  | .hubTblBaseB => tbl fun x => { x with baseB := 0 }
  | .hubTblGeom => tbl fun x => { x with geom := 0 }
  | .hubTblCtrl => tbl fun x => { x with copyFwd := false }
  | .prtRingCtrl => (s.setReg r i j 0 (v 0)).setF F.prtRingStat_ENABLED 0 i j
  | _ => if r.desc.perSrc then (upTo 6).foldl (fun s k => s.setReg r i j (k + 1) (v (k + 1))) s else s.setReg r i j 0 (v 0)

/-- An uncorrectable hardened word is found (R294): its register goes to its reset value, counts and is raised; map registers and
`HUB_BR_TRUNK` are rebuilt, and so keep what they held. -/
def State.hardFound (s : State) (a : Nat) : State :=
  match regAt a with
  | some (r, i, j) =>
    let s1 := ((s.hardClean a).countF F.rasHard_UNCORR 1).setF F.rasHard_LAST_OFFSET a
    (if r.isMap || r == .hubBrTrunk then s1 else s1.hardReset r i j).rasEvent { kind := 8, injected := true, arg := a }
  | none => s.hardClean a

/-- A scrub visit of one hardened word: copies that differ from the vote, or have bad parity, are rewritten and the word counts. -/
def State.hardScrub (s : State) (a : Nat) : State :=
  if s.hardAt a = 2 then s.hardFound a
  else if s.hardAt a = 1 then (s.hardClean a).countF F.rasHard_CORR 1
  else s

/-! ### Reads -/

/-- Log a write, or a narrow access, in `HUB_RSVD_WRITE` (R7 to R9). -/
def State.rsvdLog (s : State) (src off : Nat) (locked : Bool) : State :=
  (((s.setF F.hubRsvdWrite_LAST_OFFSET off).setF F.hubRsvdWrite_LAST_SRC src).setF F.hubRsvdWrite_LOCKED (bit locked)).countF
    F.hubRsvdWrite_COUNT 1

/-- A source's own copy of `HUB_LAST_WRITER` after its last access of this cycle (R234). -/
def State.lastWriter (s : State) (src : Nat) : State :=
  let l := s.bus.cycle.reverse
  match l.find? (fun e => e.src == src) with
  | none => s
  | some e =>
    let same := l.filter fun x => x.slot == e.slot && !x.read
    let later := (l.takeWhile fun x => x.src != src).filter fun x => x.slot == e.slot && x.ok
    let win := match same.find? fun x => x.ok with
      | some x => x.src
      | none => src
    let out := if e.conflict then 3 else if !e.ok then 4 else if later.isEmpty then 1 else 2
    ((((s.setF F.hubLastWriter_OFFSET e.off 0 0 (src + 1)).setF F.hubLastWriter_WINNER (if e.read then src else win) 0 0 (src + 1)).setF
      F.hubLastWriter_OUTCOME out 0 0 (src + 1))).setF F.hubLastWriter_SAME_CYCLE (min 7 same.length) 0 0 (src + 1)

/-- Record an access of this cycle: its source's copy, and those of the sources whose last write went to the same register. -/
def State.noteAccess (s : State) (e : CycWrite) : State :=
  let s1 := { s with bus := { s.bus with cycle := s.bus.cycle ++ [e] } }
  let s2 := if e.conflict then s1.countF F.hubLastWriter_CONFLICTS 1 0 0 (e.src + 1) else s1
  (upTo 6).foldl (fun s k =>
    let own := s.bus.cycle.reverse.find? fun x => x.src == k
    let hit := match own with
      | some x => x.slot == e.slot && s.getF F.hubLastWriter_OUTCOME 0 0 (k + 1) != 0
      | none => false
    if k = e.src || hit then s.lastWriter k else s) s2

/-- CLEAR of `HUB_LAST_WRITER`: the accesses of the same cycle update the copy at the end of the cycle all the same (R234). -/
def State.lastWriterClear (s : State) (src : Nat) : State :=
  ((s.setReg .hubLastWriter 0 0 (src + 1) 0).lastWriter src).setF F.hubLastWriter_CONFLICTS
    (min 0xFFFF (s.bus.cycle.filter fun x => x.src == src && x.conflict).length) 0 0 (src + 1)

/-- The place of an offset within a field's tile window: field and control-space offset (R52). -/
def tileWindow (off : Nat) : Option (Nat × Nat) :=
  let f := (off - 0x1000000) / 0x40000
  let o := (off - 0x1000000) % 0x40000
  if 0x1000000 ≤ off ∧ f < 92 ∧ 0x4000 ≤ o ∧ o < 0x5000 then some (f, o - 0x4000) else none

/-- The access reaches no register: narrower than 32 bits or not aligned to its size (R8). -/
def narrow (off : Nat) (w : AccW) : Bool := decide (w.bytes < 4) || off % w.bytes != 0

/-- The bytes of a 64-bit value that an access takes. -/
def halfOf (v off : Nat) (w : AccW) : Nat := if w = .w64 then v else bitsOf v (8 * (off % 8)) 32

/-- An access of a register takes its turn in the Hub cycle (R230): one whose source ranks before that of an access already made of
the same register belongs to a later cycle (assumption 74). -/
def State.busTurn (s : State) (src : Source) (off : Nat) : State :=
  let a := off / 8
  let late := s.bus.turns.any fun x => x.1 == a && decide (src.code < x.2)
  { s with bus := { s.bus with
    cycle := if late then [] else s.bus.cycle
    moved := if late then [] else s.bus.moved
    turns := (if late then [] else s.bus.turns) ++ [(a, src.code)] } }

/-- A read of BAR0 by a source in its turn (R8, R13, R52, R294, R319). -/
def State.busRead (s0 : State) (src : Source) (off : Nat) (w : AccW) : Nat × State :=
  let s := s0.busTurn src off
  let a := off / 8 * 8
  if narrow off w then (0, s.rsvdLog src.code off false)
  else match tileWindow a with
    | some (f, o) =>
      if !s.mayReach src f then (0, s.noteAccess { src := src.code, slot := a * 8, off := off, ok := false, conflict := true, read := true })
      else
        let t := s.getF F.tilSel_LTILE f 0 (srcCopy src)
        if 4900 ≤ t ∨ s.offline f then (0, s)
        else (halfOf ((s.ctlRead (.tile (Fin.ofNat 92 f) (Fin.ofNat 4900 t)) o).getD 0) off w, s)
    | none =>
      match regAt a with
      | none => (0, s)
      | some (r, i, j) =>
        let s1 := if r.hardened && s.hardAt a == 2 then s.hardFound a else s
        let v := s1.regView (srcCopy src) r i j
        let key := rkey r i j (srcCopy src)
        if !r.isCount || w == .w64 then (halfOf v off w, s1)
        else if off % 8 = 0 then (halfOf v off w, { s1 with bus := { s1.bus with latch := Tab.insert s1.bus.latch key (BitVec.ofNat 64 v) } })
        else (halfOf (Tab.get (fun _ => BitVec.ofNat 64 v) s1.bus.latch key).toNat off w, s1)

end Sys2Proof.Machine
end

