-- ==== Sys2Proof/Machine/Regs.lean ====
section
/-! DEFINITION. Writes of BAR0 registers: ownership, access codes, actions, and the records of R9 and R234 (R6 to R9, R13, R52, R230 to R234). -/

namespace Sys2Proof.Machine

open Sys2Proof

/-! ### Who may write (R217, R218, R233, R260, R277, R299, R321, R343) -/

/-- Which source's writes a register takes. -/
inductive Guard where
  | any
  | hosts
  | tenant (t : Nat)
  | port (p : Nat)
  | holder (f : Nat)
  | refused
  deriving DecidableEq, Repr

/-- The lowest-numbered VALID wafer group's owner. -/
def State.wbarOwner (s : State) : Option Nat :=
  ((upTo 64).find? fun g => s.flag F.hubWbar_VALID g).map fun g => s.getF F.hubWbar_OWNER g

/-- The guard of a register write with value `v`. -/
def State.guardOf (s : State) (src : Source) (r : Reg) (i v : Nat) : Guard :=
  match r with
  | .hubTenCtrl =>
    if bitsOf v 3 1 = 1 then .refused
    else if s.tenState i = 0 then (if bitsOf v 0 1 = 1 then .hosts else .refused)
    else .tenant i
  | .hubTenCfg | .hubTenFields0 | .hubTenFields1 | .hubTenImg | .hubWinCtrl | .hubEpochFlip | .rasWitRate => .tenant i
  | .hubWinPerm => if bitsOf v 8 1 = 1 then .tenant (s.getF F.hubWinSel_TENANT 0 0 (srcCopy src)) else .any
  | .hubTblBaseA | .hubTblBaseB | .hubTblGeom | .hubTblCtrl | .hubTblState => .tenant (s.tblSel (srcCopy src)).1
  | .hubWbarErr =>
    if bitsOf v 24 1 = 0 then .any
    else match s.wbarOwner with
      | some t => .tenant t
      | none => .refused
  | .fldDlCtrl | .fldSyncInject => .holder i
  | .prtLink | .prtCfg | .prtStat | .prtRefuse | .prtErr | .prtFar | .prtRqCfg | .prtRsCfg | .prtRingCtrl | .prtRingStat => .port i
  | .hubCntCtrl | .pwrCfg | .pwrLendThreshold | .pwrEnvelope | .pwrStat | .pwrEnergy | .pwrCntLend | .pwrFldReq | .pwrFldStat
  | .pwrClampStatus | .pwrDom => .port (s.getF F.pwrCfg_ADMIN)
  | .secCtrl | .secBootStat | .secReset | .secUpdAddr | .secUpdCmd | .secUpdStat | .secNonce | .secImg | .otpStat | .otpLcCmd
  | .otpRdSel | .otpRdData | .otpDefect => .port (s.getF F.secCtrl_ADMIN)
  | .tchUnit | .tchStat | .tchRap | .tchExp | .tchLinkCtrl | .tchLinkStat | .tchLinkErr | .tchLinkPeer | .tchLinkCnt
  | .tchLinkInject => .port (s.getF F.tchUnit_ADMIN)
  | .rasCtrl | .rasFenceCmd | .rasStCmd | .rasInject => .port (s.getF F.rasCtrl_ADMIN)
  | _ => .any

/-- A source passes a guard; the Sloe passes every one. -/
def State.passes (s : State) (src : Source) (g : Guard) : Bool :=
  match src, g with
  | .sloe, _ => true
  | _, .any => true
  | .host _, .hosts => true
  | .host p, .tenant t => s.ownerOf t == some p.val
  | .host p, .port q => p.val == q
  | .host p, .holder f =>
    (match (s.field f).resident with
     | some t => s.ownerOf t == some p.val
     | none => false)
  | _, _ => false

/-! ### Actions -/

/-- Every 48-bit counter and its OVF become 0 (R320). -/
def State.zeroCounters (s : State) : State :=
  let l : List Nat := [Reg.seqCnt.idx, Reg.dnsCntPass.idx, Reg.dnsCntStream.idx, Reg.hubSpill.idx, Reg.hbmCntRd.idx, Reg.hbmCntWr.idx,
    Reg.tchLinkCnt.idx, Reg.pwrEnergy.idx, Reg.pwrCntLend.idx]
  (({ s with regs := s.regs.filter fun x => !l.contains (x.1 % 1024) }).setF F.rasWitSamples_COUNT 0).setF F.rasWitSamples_OVF 0

/-- Set counter fields to 0. -/
def State.clearFs (s : State) (l : List Fld) (i : Nat) : State := l.foldl (fun s f => s.setF f 0 i) s

/-- CLEAR of `RAS_HARD`, which clears `RAS_FLD_ERR[n]` too (R299). -/
def State.hardClear (s : State) : State :=
  { s.clearFs [F.rasHard_CORR, F.rasHard_UNCORR, F.rasHard_LAST_OFFSET] 0 with
    regs := (s.clearFs [F.rasHard_CORR, F.rasHard_UNCORR, F.rasHard_LAST_OFFSET] 0).regs.filter fun x => x.1 % 1024 != Reg.rasFldErr.idx }

/-- What an accepted write of value `v` does (R231, and the chapter of each register); `lo` says that it reaches the low word.
A write sets every copy of a hardened word (R293); from BAR0 every SEQ_ register is read-only (R116). -/
def State.regWrite (s0 : State) (src : Source) (r : Reg) (i j v : Nat) (lo : Bool) : State :=
  let s := if r.hardened then s0.hardClean (r.offset i j) else s0
  let d := r.desc
  let k := if d.perSrc then srcCopy src else 0
  let locked := s.getF F.secBootStat_LC == 2
  let s1 := s.setReg r i j k (accWrite locked (s.reg r i j k) v d.fields)
  let b (n : Nat) : Bool := bitsOf v n 1 == 1
  let tn := s.tblSel (srcCopy src)
  let cfg : State := if s.tenState i = 1 then s1 else s.tenRefuse i
  let ring : State := if s.ringIdle i j then s1 else s.setF F.prtRingStat_REFUSED 1 i j
  match r with
  | .hubRsvdWrite => if b 35 then s.setReg r 0 0 0 0 else s
  | .hubLastWriter => if b 35 then s.lastWriterClear src.code else s
  | .seqStat | .seqPc | .seqTpc | .seqRpt | .seqFaultInfo | .seqTstore | .seqHwin | .seqCnt => s
  | .hubCntCtrl => if b 1 then s1.zeroCounters else s1
  | .fldBrErr => if b 48 then s1.clearFs [F.fldBrErr_CORR, F.fldBrErr_UNCORR, F.fldBrErr_TIMEOUT] i else s1
  | .hubBrTrunk => if b 48 then s1.clearFs [F.hubBrTrunk_CORR, F.hubBrTrunk_UNCORR] i else s1
  | .dnsErr => if b 48 then s1.clearFs [F.dnsErr_CORR, F.dnsErr_UNCORR] i else s1
  | .hbmErr => if b 48 then s1.clearFs [F.hbmErr_CORR, F.hbmErr_UNCORR, F.hbmErr_SCRUB_FIX] i else s1
  | .prtErr => if b 48 then s1.clearFs [F.prtErr_DESC_INVALID, F.prtErr_DOORBELL_BAD, F.prtErr_HOST_ERR] i else s1
  | .fldSyncErr => if b 57 then s1.clearFs [F.fldSyncErr_CELL_CORR, F.fldSyncErr_CELL_UNCORR, F.fldSyncErr_TREE_PAR] i else s1
  | .tchStat => if b 48 then s1.tchStatClear else s1
  | .rasHard => if b 58 then s1.hardClear else s1
  | .hubWbarErr =>
    let s2 := if b 23 then s1.setF F.hubWbarErr_TREE_PAR 0 else s1
    if b 24 then { s2 with hub := { s2.hub with wbarInj := true } } else s2
  | .hbmScrub => if b 8 then s1.scrubNow else s1
  | .hubTblBaseA => s.baseWrite tn.1 tn.2 .a v
  | .hubTblBaseB => s.baseWrite tn.1 tn.2 .b v
  | .hubTblGeom => s.geomWrite tn.1 tn.2 v
  | .hubTblCtrl => s.tblCtrl src.code tn.1 tn.2 v lo
  | .hubTblState => if b 8 then s.setTbl tn.1 tn.2 { s.tbl tn.1 tn.2 with refused := false } else s
  | .hubEpochFlip => if b 0 then s.flip i else s
  | .hubTenCtrl => s.tenCtrl (match src with | .host p => some p.val | _ => none) i v
  | .hubTenCfg => cfg
  | .hubTenFields0 => cfg
  | .hubTenFields1 => cfg
  | .hubTenImg => cfg
  | .hubWinPerm => if b 8 then s1.winCommit (srcCopy src) v else s1
  | .prtRqCfg => ring
  | .prtRsCfg => ring
  | .prtRingCtrl => (s1.setF F.prtRingCtrl_ENABLE (s.getF F.prtRingCtrl_ENABLE i j) i j).ringCtrl i j v lo
  | .tchUnit => s.tchUnitWrite v
  | .tchRap => s.apertureWrite i v
  | .tchExp => s.exportWrite i v
  | .tchLinkCtrl => s.linkCtrl i v
  | .tchLinkInject => s.linkInject i v
  | .rasInject => if lo then s.rasInject v else s
  | .rasFenceCmd => s.fenceCmd v
  | .rasStCmd => s.stCmd v
  | .pwrLendThreshold => if s1.getF F.pwrLendThreshold_US = 0 then s1.recallAll else s1
  | .pwrFldReq => s1.reqWritten i
  | .pwrCfg | .pwrEnvelope => s1.reevaluate
  | .pwrDom => s.domWrite i v
  | .secReset => s.resetWrite v
  | .secUpdCmd => s.updCmd v
  | .otpLcCmd => s.lcCmd src.code v
  | .fldDlCtrl => s.dlAction i (bitsOf v 0 2)
  | .fldSyncInject => s.syncInject i v
  | _ => s1

/-! ### Writes -/

/-- A bit that a write sets lies in no field of the register (R7). -/
def reservedSet (fs : List FieldDesc) (v : Nat) : Bool := fs.foldl (fun a f => putBits a f.lsb f.width 0) v != 0

/-- Some field of the register, of a kind, has a bit below or above the middle that the write reaches. -/
def reaches (fs : List FieldDesc) (off : Nat) (w : AccW) (p : FieldDesc → Bool) : Bool :=
  fs.any fun f => p f && (w == .w64 || (if off % 8 = 0 then decide (f.lsb < 32) else decide (32 < f.lsb + f.width)))

/-- The value that a tile-window write puts into a control register that reads as `old`. -/
def windowValue (o off : Nat) (w : AccW) (old v : Nat) : Nat := if w = .w64 then v else ctlMerge (o + off % 8) 4 old v

/-- A tile-window write takes effect (R50, R52, R234): its tile is there, the register is listed and has a writable field in the part
written, the tile is halted (`TIL_EVENT` apart), and a descriptor passes its check. -/
def State.windowTakes (s : State) (src : Source) (f o off : Nat) (w : AccW) (v : Nat) : Bool :=
  let t := s.getF F.tilSel_LTILE f 0 (srcCopy src)
  let mask := if w = .w64 then 2 ^ 64 - 1 else (2 ^ 32 - 1) * 2 ^ (8 * (off % 8))
  let fixed : Bool := o == 0x88 || o == 0x98
  let c := s.tile f t
  decide (t < 4900) && !s.offline f && !fixed && ctlAssigned o &&& mask != 0 &&
    match s.ctlRead (.tile (Fin.ofNat 92 f) (Fin.ofNat 4900 t)) o with
    | none => false
    | some old => o == 0xB0 || ((c.fault || c.frozen) && !(decide (0x100 ≤ o) && o % 16 == 0 && (checkDesc t (windowValue o off w old v)).isSome))

/-- A write through the tile window of a field (R50, R52): a 32-bit one changes its half; one that sets reserved bits is
logged (R7). -/
def State.windowWrite (s : State) (src : Source) (f o off : Nat) (w : AccW) (v : Nat) : State :=
  let t := s.getF F.tilSel_LTILE f 0 (srcCopy src)
  if 4900 ≤ t ∨ s.offline f then s
  else
    let tt : TileNo := Fin.ofNat 4900 t
    let ff : FieldNo := Fin.ofNat 92 f
    let part := if w = .w64 then v else bitsOf v 0 32 * 2 ^ (8 * (off % 8))
    match s.ctlRead (.tile ff tt) o with
    | none => s
    | some old =>
      (if part &&& ctlAssigned o = part then s else s.rsvdLog src.code off false).ctlWriteOut ff tt o
        (windowValue o off w old v) false

/-- An allowed write of value `v` to a register takes effect in one of its fields (R234): the part written reaches a writable field, and
the register takes writes as it stands. A command that a register refuses is an action all the same (assumption 57). -/
def State.regTakes (s : State) (src : Source) (r : Reg) (i j off : Nat) (w : AccW) (v : Nat) : Bool :=
  let locked := s.getF F.secBootStat_LC == 2
  let tn := s.tblSel (srcCopy src)
  reaches r.desc.fields off w (fun f => f.acc != .ro && !(locked && f.acc == .rwl)) &&
    match r with
    | .seqStat | .seqPc | .seqTpc | .seqRpt | .seqFaultInfo | .seqTstore | .seqHwin | .seqCnt => false
    | .hubTenCfg | .hubTenFields0 | .hubTenFields1 | .hubTenImg => s.tenState i == 1
    | .hubTblBaseA => !s.baseRefused tn.1 tn.2 .a v
    | .hubTblBaseB => !s.baseRefused tn.1 tn.2 .b v
    | .hubTblGeom => !(s.tbl tn.1 tn.2).registered
    | .prtRqCfg | .prtRsCfg => s.ringIdle i j
    | .tchUnit => !s.unitRefused v
    | .tchRap => !s.apertureRefused i v
    | .tchExp => !exportRefused v
    | _ => true

/-- One write of BAR0 by a source, in its turn. -/
def State.busWrite (s0 : State) (w : BusWrite) : State :=
  let s := s0.busTurn w.src w.off.toNat
  let off := w.off.toNat
  let a := off / 8 * 8
  let k := w.src.code
  let val := w.value.toNat
  let note (slot : Nat) (ok conflict : Bool) (s : State) : State :=
    s.noteAccess { src := k, slot := slot, off := off, ok := ok, conflict := conflict }
  if a = Reg.hubRsvdWrite.offset 0 0 then
    (if narrow off w.width then note (a * 8) false false s
     else (note (a * 8) true false s).regWrite w.src .hubRsvdWrite 0 0 (if w.width = .w64 then val else bitsOf val 0 32 * 2 ^ (8 * (off % 8)))
       (off % 8 == 0))
  else if narrow off w.width then
    (if a = Reg.hubLastWriter.offset 0 0 then s.rsvdLog k off false else note (a * 8) false false (s.rsvdLog k off false))
  else match tileWindow a with
    | some (f, o) =>
      if s.mayReach w.src f then (note (a * 8) (s.windowTakes w.src f o off w.width val) false s).windowWrite w.src f o off w.width val else note (a * 8) false true s
    | none =>
      match regAt a with
      | none => note (a * 8) false false (s.rsvdLog k off false)
      | some (r, i, j) =>
        let fs := r.desc.fields
        let part := if w.width = .w64 then val else bitsOf val 0 32 * 2 ^ (8 * (off % 8))
        let keep := if r = .hubWinBase ∨ r = .hubWinLimit ∨ r = .hubWinPerm then s.reg r i j (srcCopy w.src) else s.regView (srcCopy w.src) r i j
        let cur := fs.foldl (fun a f => if f.acc = .rw ∨ f.acc = .rwl then putBits a f.lsb f.width (bitsOf keep f.lsb f.width) else a) 0
        let v := if w.width = .w64 then val else putBits cur (8 * (off % 8)) 32 val
        let lock := s.getF F.secBootStat_LC == 2 && reaches fs off w.width (fun f => f.acc == .rwl)
        let slot := a * 8 + (if r.desc.perSrc then srcCopy w.src else 0)
        if r = .hubLastWriter then (if reservedSet fs part then s.rsvdLog k off false else s).regWrite w.src r i j v (off % 8 == 0)
        else if !s.passes w.src (s.guardOf w.src r i v) then note slot false true s
        else
          let s1 := if reservedSet fs part || lock then s.rsvdLog k off lock else s
          (note slot (s.regTakes w.src r i j off w.width v) false s1).regWrite w.src r i j v (off % 8 == 0 || w.width == .w64)

/-- The writes of one Hub cycle in the order of R230: by source, each source's own in their order. -/
def busOrder (ws : List BusWrite) : List BusWrite := (upTo 6).flatMap fun k => ws.filter fun w => w.src.code == k

/-- Several writes of one Hub cycle. -/
def State.busWrites (s : State) (ws : List BusWrite) : State := (busOrder ws).foldl State.busWrite s

end Sys2Proof.Machine
end

