-- ==== Sys2Proof/Machine/RegCmds.lean ====
section
/-! DEFINITION. The commands that are accesses of BAR0 registers, each its register's write or read; packets that reach the Hub's
registers through global space 0x3 (R230). -/

namespace Sys2Proof.Machine

open Sys2Proof

/-- A 64-bit write of one register by a source. -/
def State.put (s : State) (src : Source) (r : Reg) (i j v : Nat) : State :=
  s.busWrite { src := src, off := BitVec.ofNat 26 (r.offset i j), width := .w64, value := BitVec.ofNat 64 v }

/-- The RW fields of a register as they stand, to be written back with a command bit. -/
def State.stand (s : State) (src : Source) (r : Reg) (i j : Nat) : Nat :=
  r.desc.fields.foldl (fun a f => if f.acc = .rw then putBits a f.lsb f.width (bitsOf (s.regView (srcCopy src) r i j) f.lsb f.width) else a) 0

/-- A write of one command bit, the RW fields as they stand. -/
def State.putBit (s : State) (src : Source) (r : Reg) (i j n : Nat) : State := s.put src r i j (s.stand src r i j + 2 ^ n)

/-- REGISTER_WRITE: writes of one Hub cycle (R230). -/
def execRegisterWrite (ws : List BusWrite) (s : State) : Out := .next (s.busWrites ws)

/-- RSVD_WRITE_CLEAR (R9). -/
def execRsvdWriteClear (src : Source) (s : State) : Out := .next (s.put src .hubRsvdWrite 0 0 (2 ^ 35))

/-- LAST_WRITER_CLEAR (R234). -/
def execLastWriterClear (src : Source) (s : State) : Out := .next (s.put src .hubLastWriter 0 0 (2 ^ 35))

/-- COUNTER_LATCH_READ: a 32-bit read (R319). -/
def execCounterLatchRead (src : Source) (off : BitVec 26) (s : State) : Out := .next (s.busRead src off.toNat .w32).2

/-! ### Ports -/

/-- RING_ENABLE: a write of `PRT_RING_CTRL[t]` (R243). -/
def execRingEnable (src : Source) (p : Port) (t : Tenant) (v : DWord) (s : State) : Out := .next (s.put src .prtRingCtrl p.val t.val v.toNat)

/-- FLUSH (R256). -/
def execFlush (src : Source) (p : Port) (t : Tenant) (s : State) : Out := .next (s.putBit src .prtRingCtrl p.val t.val 1)

/-- RING_CONFIG_WRITE: of `PRT_RS_CFG[t]` where `rs`, else of `PRT_RQ_CFG[t]` (R260). -/
def execRingConfigWrite (src : Source) (p : Port) (t : Tenant) (rs : Bool) (v : DWord) (s : State) : Out :=
  .next (s.put src (if rs then .prtRsCfg else .prtRqCfg) p.val t.val v.toNat)

/-- FAR_SEGMENT_WRITE (R257). -/
def execFarSegmentWrite (src : Source) (p : Port) (v : DWord) (s : State) : Out := .next (s.put src .prtFar p.val 0 v.toNat)

/-- PRT_ERR_CLEAR (R260). -/
def execPrtErrClear (src : Source) (p : Port) (s : State) : Out := .next (s.put src .prtErr p.val 0 (2 ^ 48))

/-! ### Tenants, windows, tables -/

/-- CLAIM (R212). -/
def execClaim (src : Source) (t : Tenant) (arg : BitVec 3) (s : State) : Out := .next (s.put src .hubTenCtrl t.val 0 (1 + arg.toNat * 2 ^ 4))

/-- ACTIVATE (R213). -/
def execActivate (src : Source) (t : Tenant) (s : State) : Out := .next (s.put src .hubTenCtrl t.val 0 2)

/-- STOP (R216). -/
def execStop (src : Source) (t : Tenant) (s : State) : Out := .next (s.put src .hubTenCtrl t.val 0 4)

/-- REASSIGN (R217). -/
def execReassign (src : Source) (t : Tenant) (arg : BitVec 3) (s : State) : Out :=
  .next (s.put src .hubTenCtrl t.val 0 (8 + arg.toNat * 2 ^ 4))

/-- The register a configuration write names (R213). -/
def cfgReg : TenCfgReg → Reg
  | .cfg => .hubTenCfg
  | .fields0 => .hubTenFields0
  | .fields1 => .hubTenFields1
  | .img => .hubTenImg

/-- TENANT_CONFIG_WRITE (R213). -/
def execTenantConfigWrite (src : Source) (t : Tenant) (r : TenCfgReg) (v : DWord) (s : State) : Out :=
  .next (s.put src (cfgReg r) t.val 0 v.toNat)

/-- WINDOW_COMMIT: a write of `HUB_WIN_PERM` with COMMIT = 1 (R227). -/
def execWindowCommit (src : Source) (v : DWord) (s : State) : Out := .next (s.put src .hubWinPerm 0 0 (putBits v.toNat 8 1 1))

/-- REGISTER of a table (R172). -/
def execTableRegister (src : Source) (s : State) : Out := .next (s.putBit src .hubTblCtrl 0 0 0)

/-- RETIRE of a table (R178). -/
def execTableRetire (src : Source) (s : State) : Out := .next (s.putBit src .hubTblCtrl 0 0 1)

/-- READY_A or READY_B (R175). -/
def execReady (src : Source) (bk : Bank) (s : State) : Out := .next (s.putBit src .hubTblCtrl 0 0 (match bk with | .a => 2 | .b => 3))

/-- UNREADY_A or UNREADY_B (R173). -/
def execUnready (src : Source) (bk : Bank) (s : State) : Out := .next (s.putBit src .hubTblCtrl 0 0 (match bk with | .a => 4 | .b => 5))

/-- The register a table configuration write names (R178). -/
def tblReg : TblCfgReg → Reg
  | .geom => .hubTblGeom
  | .baseA => .hubTblBaseA
  | .baseB => .hubTblBaseB

/-- TABLE_CONFIG_WRITE (R178). -/
def execTableConfigWrite (src : Source) (r : TblCfgReg) (v : DWord) (s : State) : Out := .next (s.put src (tblReg r) 0 0 v.toNat)

/-- EPOCH_FLIP (R180). -/
def execEpochFlip (src : Source) (t : Tenant) (s : State) : Out := .next (s.put src .hubEpochFlip t.val 0 1)

/-- HBM_ERR_CLEAR. -/
def execHbmErrClear (src : Source) (m : Stack) (s : State) : Out := .next (s.put src .hbmErr m.val 0 (2 ^ 48))

/-! ### Mesh and tiles -/

/-- The access width of a packet. -/
def lenW (n : Nat) : AccW := if n = 8 then .w64 else if n = 4 then .w32 else if n = 2 then .w16 else .w8

/-- A request that reaches the Hub registers is an access of the Hub-firmware source (R230). -/
def State.atHub (s : State) (p : Packet) : State :=
  let off := p.ga % 2 ^ 26
  let s1 := s.dropPkt p.id
  let wr := p.op == .write || p.op == .posted || p.op == .maintWrite
  if p.err != .ok then s1.respond p (if wr then .writeAck else .readData) .poison [] true false
  else if wr then
    (s1.busWrite { src := .hub, off := BitVec.ofNat 26 off, width := lenW p.data.length, value := BitVec.ofNat 64 (natLE p.data) }).respond p
      .writeAck .ok [] true false
  else
    let r := s1.busRead .hub off (lenW p.len)
    r.2.respond p .readData .ok (bytesLE p.len r.1) true false

/-- PACKET_HOP (R128, R130). -/
def execPacketHop (id : Nat) (s : State) : Out := .next (s.hop id State.atHub State.atEdge)

/-- FLD_BR_ERR_CLEAR. -/
def execFldBrErrClear (src : Source) (f : FieldNo) (s : State) : Out := .next (s.put src .fldBrErr f.val 0 (2 ^ 48))

/-- HUB_BR_TRUNK_CLEAR. -/
def execHubBrTrunkClear (src : Source) (p : PField) (s : State) : Out := .next (s.put src .hubBrTrunk p.val 0 (2 ^ 48))

/-- The BAR0 offset of a place in a field's tile window (Table 3.13). -/
def windowOff (f : FieldNo) (off : BitVec 12) : Nat := 0x1004000 + f.val * 0x40000 + off.toNat

/-- TILE_WINDOW_READ (R52). -/
def execTileWindowRead (src : Source) (f : FieldNo) (off : BitVec 12) (w : AccW) (s : State) : Out :=
  .next (s.busRead src (windowOff f off) w).2

/-- TILE_WINDOW_WRITE (R50, R52). -/
def execTileWindowWrite (src : Source) (f : FieldNo) (off : BitVec 12) (w : AccW) (v : DWord) (s : State) : Out :=
  .next (s.busWrite { src := src, off := BitVec.ofNat 26 (windowOff f off), width := w, value := v })

/-- DNS_ERR_CLEAR: of the counters (Table 7.5). -/
def execDnsErrClear (src : Source) (f : FieldNo) (s : State) : Out := .next (s.put src .dnsErr f.val 0 (2 ^ 48))

/-! ### Synchronisation -/

/-- THAW: ACTION 1 of `FLD_DL_CTRL` (R206). -/
def execThaw (src : Source) (f : FieldNo) (s : State) : Out := .next (s.put src .fldDlCtrl f.val 0 1)

/-- RESET: ACTION 2 of `FLD_DL_CTRL` (R206). -/
def execDeadlockReset (src : Source) (f : FieldNo) (s : State) : Out := .next (s.put src .fldDlCtrl f.val 0 2)

/-- DL_FIRE (Table 9.2). -/
def execDlFire (src : Source) (f : FieldNo) (s : State) : Out := .next (s.put src .fldSyncInject f.val 0 1)

/-- CELL_CORR. -/
def execCellCorrInject (src : Source) (f : FieldNo) (s : State) : Out := .next (s.put src .fldSyncInject f.val 0 2)

/-- CELL_UNCORR. -/
def execCellUncorrInject (src : Source) (f : FieldNo) (s : State) : Out := .next (s.put src .fldSyncInject f.val 0 4)

/-- TREE_PARITY. -/
def execTreeParityInject (src : Source) (f : FieldNo) (s : State) : Out := .next (s.put src .fldSyncInject f.val 0 8)

/-- `HUB_WBAR_ERR`.INJECT. -/
def execWaferTreeInject (src : Source) (s : State) : Out := .next (s.put src .hubWbarErr 0 0 (2 ^ 24))

/-- CLEAR of `FLD_SYNC_ERR`. -/
def execSyncErrClear (src : Source) (f : FieldNo) (s : State) : Out := .next (s.put src .fldSyncErr f.val 0 (2 ^ 57))

/-- CLEAR of `HUB_WBAR_ERR`. -/
def execWbarErrClear (src : Source) (s : State) : Out := .next (s.put src .hubWbarErr 0 0 (2 ^ 23))

/-! ### RAS -/

/-- The value of a `RAS_FENCE_CMD` write (Table 13.8). -/
def fenceWord (op f t hold : Nat) : Nat := op + f * 2 ^ 2 + t * 2 ^ 9 + hold * 2 ^ 32

/-- FENCE (R288). -/
def execFence (src : Source) (f : FieldNo) (t : BitVec 13) (hold : Half) (s : State) : Out :=
  .next (s.put src .rasFenceCmd 0 0 (fenceWord 1 f.val t.toNat hold.toNat))

/-- UNFENCE (R288). -/
def execUnfence (src : Source) (f : FieldNo) (t : BitVec 13) (s : State) : Out := .next (s.put src .rasFenceCmd 0 0 (fenceWord 2 f.val t.toNat 0))

/-- RETIRE (R290). -/
def execRetire (src : Source) (f : FieldNo) (s : State) : Out := .next (s.put src .rasFenceCmd 0 0 (fenceWord 3 f.val 0 0))

/-- COMMANDED_SELF_TEST: a write of `RAS_ST_CMD` (R292). -/
def execCommandedSelfTest (src : Source) (kind : BitVec 2) (num : BitVec 7) (s : State) : Out :=
  .next (s.put src .rasStCmd 0 0 (kind.toNat + num.toNat * 2 ^ 2))

/-- RAS_INJECT (R297, R298). -/
def execRasInject (src : Source) (v : DWord) (s : State) : Out := .next (s.put src .rasInject 0 0 v.toNat)

/-- HARDENED_SCRUB: the scrub visits the word at an offset (R293). -/
def execHardenedScrub (off : BitVec 26) (s : State) : Out := .next (s.hardScrub (off.toNat / 8 * 8))

/-- RAS_HARD_CLEAR (R299). -/
def execRasHardClear (src : Source) (s : State) : Out := .next (s.put src .rasHard 0 0 (2 ^ 58))

/-! ### Links -/

/-- LINK_ENABLE: `TCH_LINK_CTRL[k]` with EN = 1 (R263, R264). -/
def execLinkEnable (src : Source) (k : LinkNo) (allowX8 : Bool) (s : State) : Out :=
  .next (s.put src .tchLinkCtrl k.val 0 (1 + bit allowX8 * 4))

/-- LINK_DISABLE: EN = 0. -/
def execLinkDisable (src : Source) (k : LinkNo) (s : State) : Out :=
  .next (s.put src .tchLinkCtrl k.val 0 (s.getF F.tchLinkCtrl_ALLOW_X8 k.val * 4))

/-- RETRAIN. -/
def execRetrain (src : Source) (k : LinkNo) (s : State) : Out := .next (s.putBit src .tchLinkCtrl k.val 0 1)

/-- TCH_UNIT_WRITE (R277). -/
def execTchUnitWrite (src : Source) (v : DWord) (s : State) : Out := .next (s.put src .tchUnit 0 0 v.toNat)

/-- APERTURE_WRITE (R273). -/
def execApertureWrite (src : Source) (j : Fin 16) (v : DWord) (s : State) : Out := .next (s.put src .tchRap j.val 0 v.toNat)

/-- EXPORT_WINDOW_WRITE (R274). -/
def execExportWindowWrite (src : Source) (j : Fin 16) (v : DWord) (s : State) : Out := .next (s.put src .tchExp j.val 0 v.toNat)

/-- TCH_STAT_CLEAR. -/
def execTchStatClear (src : Source) (s : State) : Out := .next (s.put src .tchStat 0 0 (2 ^ 48))

/-- LINK_ERR_CLEAR: CLEAR of `TCH_LINK_CTRL`. -/
def execLinkErrClear (src : Source) (k : LinkNo) (s : State) : Out := .next (s.putBit src .tchLinkCtrl k.val 0 3)

/-- SYM (R278). -/
def execInjSym (src : Source) (k : LinkNo) (s : State) : Out := .next (s.put src .tchLinkInject k.val 0 1)

/-- UNCORR. -/
def execInjUncorr (src : Source) (k : LinkNo) (s : State) : Out := .next (s.put src .tchLinkInject k.val 0 2)

/-- CRC. -/
def execInjCrc (src : Source) (k : LinkNo) (s : State) : Out := .next (s.put src .tchLinkInject k.val 0 4)

/-- LANE. -/
def execInjLane (src : Source) (k : LinkNo) (s : State) : Out := .next (s.put src .tchLinkInject k.val 0 8)

/-! ### Power -/

/-- DOMAIN_OFF_REQ (R301). -/
def execDomainOffReq (src : Source) (d : Domain) (off : Bool) (s : State) : Out := .next (s.put src .pwrDom d.val 0 (bit off * 4))

/-- LEND_THRESHOLD_WRITE (R202). -/
def execLendThresholdWrite (src : Source) (v : DWord) (s : State) : Out := .next (s.put src .pwrLendThreshold 0 0 v.toNat)

/-- FIELD_REQ_WRITE (R312). -/
def execFieldReqWrite (src : Source) (f : FieldNo) (v : DWord) (s : State) : Out := .next (s.put src .pwrFldReq f.val 0 v.toNat)

/-- FREEZE_COUNTERS (R320). -/
def execFreezeCounters (src : Source) (on : Bool) (s : State) : Out := .next (s.put src .hubCntCtrl 0 0 (bit on))

/-- ZERO (R320). -/
def execZeroCounters (src : Source) (s : State) : Out := .next (s.putBit src .hubCntCtrl 0 0 1)

/-! ### Boot and security -/

/-- UNIT_RESET by `SEC_RESET`, by menu item 0x63, or by SMBus POWER 3 (R322, R364, R367). -/
def execUnitReset (by_ : ResetBy) (s : State) : Out :=
  .next (
    match by_ with
    | .register src key go => s.put src .secReset 0 0 (key.toNat + bit go * 2 ^ 16)
    | .menu => s.menuUse 0x63 fun s => if s.mode = 0 then s.beginReset 1 else s
    | .smbus => if s.sloe.stopped || s.mode != 0 then s else s.beginReset 1)

/-- A command of `SEC_UPD_CMD` unless one of the kind already awaits its image, and the image as it is read (R339, R340). -/
def State.updRun (s : State) (src : Source) (op kind code : Nat) (r : HostRead) : State :=
  let waits := match s.sec.verify with
    | some v => v.op == op && v.kind == kind && v.header.isEmpty
    | none => false
  (if waits then s else s.put src .secUpdCmd 0 0 (op + code * 4)).updImage op kind r

/-- STAGE (R339). -/
def execStage (src : Source) (kind : BitVec 3) (r : HostRead) (s : State) : Out := .next (s.updRun src 1 kind.toNat kind.toNat r)

/-- SVN_COMMIT (R339). -/
def execSvnCommit (src : Source) (kind : BitVec 3) (s : State) : Out := .next (s.put src .secUpdCmd 0 0 (2 + kind.toNat * 4))

/-- RETURN (R340). -/
def execReturnAuth (src : Source) (r : HostRead) (s : State) : Out := .next (s.updRun src 3 4 0 r)

/-- GO of `OTP_LC_CMD` (R332). -/
def execLcGo (src : Source) (target : BitVec 2) (s : State) : Out := .next (s.put src .otpLcCmd 0 0 (target.toNat + 8))

end Sys2Proof.Machine
end

