-- ==== Sys2Proof/Machine/SeqAlu.lean ====
section
/-! DEFINITION. Sequencer instructions that compute and transfer control (R102 to R110, Table 5.6 0x00 to 0x44). -/

namespace Sys2Proof.Machine

open Sys2Proof

/-- Set the flags at completion. -/
def SEv.flags (e : SEv) (f : Nat) (g : Option Flg) : SEv :=
  match g with
  | some g => { e with s := e.s.setSeqFlg f g }
  | none => e

/-- The operations with operands A, B and destination D, by opcode (Table 5.6): everything wraps. -/
def seqFn (op : Nat) (w : AccW) (a b : Nat) : Alu :=
  let n := AccW.bits w
  if op = 0x01 then ⟨a, none, false⟩
  else if op = 0x02 then aluAdd false w a b
  else if op = 0x03 then aluSub false w a b
  else if op = 0x04 then aluLogic 0 w a b
  else if op = 0x05 then aluLogic 1 w a b
  else if op = 0x06 then aluLogic 2 w a b
  else if op = 0x07 then aluShift 0 w b a
  else if op = 0x08 then aluShift 1 w b a
  else if op = 0x09 then aluShift 2 w b a
  else if op = 0x0A then aluMul false w a b
  else if op = 0x0B then aluMinMax 0 w a b
  else if op = 0x0C then aluMinMax 1 w a b
  else if op = 0x0D then aluMinMax 2 w a b
  else if op = 0x0E then aluMinMax 3 w a b
  else if op = 0x13 then
    let r := if b = 0 then 2 ^ n - 1 else a / b
    ⟨r, some { (flagsL n r) with v := b == 0 }, false⟩
  else
    let r := if b = 0 then a else a % b
    ⟨r, some { (flagsL n r) with v := b == 0 }, false⟩

/-- D := A op B, or indivisibly D := D op B under ATOMIC. -/
def seqArith (f : Nat) (op : Nat) (i : SeqInstr) (e : SEv) : SRes Unit :=
  let w := i.width
  if i.atomic then
    (srcS e f i i.b).bind fun b e1 =>
      (dstS e1 f i i.d).bind fun pl e2 =>
        (atomS e2 f i pl (.rmw (BitVec.ofNat 8 op) (BitVec.ofNat 64 b)) fun old => some (seqFn op w old b).v).bind
          fun old e3 => .ok () (e3.flags f (seqFn op w (lowW w old) b).g)
  else
    (srcS e f i i.a).bind fun a e1 =>
      (srcS e1 f i i.b).bind fun b e2 =>
        (dstS e2 f i i.d).bind fun pl e3 =>
          let r := seqFn op w a b
          (writeS e3 f i pl r.v).bind fun _ e4 => .ok () (e4.flags f r.g)

/-- D := A. -/
def seqMovBody (f : Nat) (i : SeqInstr) (e : SEv) : SRes Unit :=
  (srcS e f i i.a).bind fun a e1 => (dstS e1 f i i.d).bind fun pl e2 => writeS e2 f i pl a

/-- Flags of A, B only. -/
def seqFlags (f : Nat) (i : SeqInstr) (h : Nat → Nat → Flg) (e : SEv) : SRes Unit :=
  (srcS e f i i.a).bind fun a e1 => (srcS e1 f i i.b).bind fun b e2 => .ok () (e2.flags f (some (h a b)))

/-! ### Decimal instructions -/

/-- The fields of DM (R109). -/
def dmSA (i : SeqInstr) : Nat := bitsOf i.mode.toNat 0 4
def dmSB (i : SeqInstr) : Nat := bitsOf i.mode.toNat 4 4
def dmSD (i : SeqInstr) : Nat := bitsOf i.mode.toNat 8 4
def dmRnd (i : SeqInstr) : Nat := bitsOf i.mode.toNat 12 3

/-- A DM that makes the instruction illegal. -/
def dmBad (i : SeqInstr) : Bool :=
  decide (dmSA i > 8) || decide (dmSB i > 8) || decide (dmSD i > 8) || dmRnd i == 7 || bitsOf i.mode.toNat 15 1 == 1

/-- Flags and decimal fault of a sequencer instruction (R69, R110): under the acting tenant's DEC_PROP the request that the field
serves for it takes status 0x21. -/
def seqDecEnd (f : Nat) (i : SeqInstr) (g : Flg) (fault : Bool) (e : SEv) : SEv :=
  let e1 := e.flags f (some g)
  if !fault then e1
  else
    let s1 := e1.s.setF F.seqStat_DECIMAL_FAULT 1 f
    match s1.seqActs f i with
    | some t =>
      if s1.flag F.hubTenCfg_DEC_PROP t then
        { e1 with s := s1.addStat (s1.reqOf f t) 0x21 }
      else { e1 with s := s1 }
    | none => { e1 with s := s1 }

/-- D := A op B: 0 DADD, 1 DSUB, 2 DMUL, 3 DDIV. -/
def seqDecArith (f op : Nat) (i : SeqInstr) (e : SEv) : SRes Unit :=
  (srcS e f i i.a).bind fun a e1 =>
    (srcS e1 f i i.b).bind fun b e2 =>
      (dstS e2 f i i.d).bind fun pl e3 =>
        let r := decOp op [a, b] a (dmSA i) b (dmSB i) (dmSD i) (dmRnd i)
        (writeS e3 f i pl r.v).bind fun _ e4 => .ok () (seqDecEnd f i r.g r.fault e4)

/-- D := A rescaled. -/
def seqDecRescale (f : Nat) (i : SeqInstr) (e : SEv) : SRes Unit :=
  (srcS e f i i.a).bind fun a e1 =>
    (dstS e1 f i i.d).bind fun pl e2 =>
      let r := decRescale a (dmSA i) (dmSD i) (dmRnd i)
      (writeS e2 f i pl r.v).bind fun _ e3 => .ok () (seqDecEnd f i r.g r.fault e3)

/-! ### The instructions -/

/-- Prefixes of the plain arithmetic: REP, and ATOMIC where Table 5.6 says so. -/
def legAt : Legal := { atomic := true, rep := true }
def legRp : Legal := { rep := true }
def legDec : Legal := { rep := true, width := false }

/-- SEQ_NOP. -/
def execSeqNop (f : FieldNo) (i : SeqInstr) (s : State) : Out := .next (seqRun f i {} false s fun e => .ok () e)
/-- SEQ_MOV. -/
def execSeqMov (f : FieldNo) (i : SeqInstr) (s : State) : Out := .next (seqRepRun f i legRp false s (seqMovBody f.val i))
/-- SEQ_ADD. -/
def execSeqAdd (f : FieldNo) (i : SeqInstr) (s : State) : Out := .next (seqRepRun f i legAt false s (seqArith f.val 0x02 i))
/-- SEQ_SUB. -/
def execSeqSub (f : FieldNo) (i : SeqInstr) (s : State) : Out := .next (seqRepRun f i legAt false s (seqArith f.val 0x03 i))
/-- SEQ_AND. -/
def execSeqAnd (f : FieldNo) (i : SeqInstr) (s : State) : Out := .next (seqRepRun f i legAt false s (seqArith f.val 0x04 i))
/-- SEQ_OR. -/
def execSeqOr (f : FieldNo) (i : SeqInstr) (s : State) : Out := .next (seqRepRun f i legAt false s (seqArith f.val 0x05 i))
/-- SEQ_XOR. -/
def execSeqXor (f : FieldNo) (i : SeqInstr) (s : State) : Out := .next (seqRepRun f i legAt false s (seqArith f.val 0x06 i))
/-- SEQ_SHL: A shifted left by B mod W. -/
def execSeqShl (f : FieldNo) (i : SeqInstr) (s : State) : Out := .next (seqRepRun f i legRp false s (seqArith f.val 0x07 i))
/-- SEQ_SHR. -/
def execSeqShr (f : FieldNo) (i : SeqInstr) (s : State) : Out := .next (seqRepRun f i legRp false s (seqArith f.val 0x08 i))
/-- SEQ_SAR. -/
def execSeqSar (f : FieldNo) (i : SeqInstr) (s : State) : Out := .next (seqRepRun f i legRp false s (seqArith f.val 0x09 i))
/-- SEQ_MUL: the low W bits of the signed product. -/
def execSeqMul (f : FieldNo) (i : SeqInstr) (s : State) : Out := .next (seqRepRun f i legRp false s (seqArith f.val 0x0A i))
/-- SEQ_MIN. -/
def execSeqMin (f : FieldNo) (i : SeqInstr) (s : State) : Out := .next (seqRepRun f i legAt false s (seqArith f.val 0x0B i))
/-- SEQ_MAX. -/
def execSeqMax (f : FieldNo) (i : SeqInstr) (s : State) : Out := .next (seqRepRun f i legAt false s (seqArith f.val 0x0C i))
/-- SEQ_MINU. -/
def execSeqMinu (f : FieldNo) (i : SeqInstr) (s : State) : Out := .next (seqRepRun f i legAt false s (seqArith f.val 0x0D i))
/-- SEQ_MAXU. -/
def execSeqMaxu (f : FieldNo) (i : SeqInstr) (s : State) : Out := .next (seqRepRun f i legAt false s (seqArith f.val 0x0E i))

/-- SEQ_CMP: flags of A − B. -/
def execSeqCmp (f : FieldNo) (i : SeqInstr) (s : State) : Out :=
  let w := i.width
  .next (seqRun f i {} false s (seqFlags f.val i fun a b =>
    flagsSub (AccW.bits w) a b (wrapN (AccW.bits w) (sx w a - sx w b))))

/-- SEQ_TST: flags of A AND B. -/
def execSeqTst (f : FieldNo) (i : SeqInstr) (s : State) : Out :=
  .next (seqRun f i {} false s (seqFlags f.val i fun a b => flagsL (AccW.bits i.width) (logic 0 a b)))

/-- An operand that is an immediate. -/
def isImm (o : Option SeqOperand) : Bool :=
  match o with
  | some o => bitsOf o.os.toNat 5 3 == 6
  | none => false

/-- XCHG: indivisibly old := D, D := A; then A := old. An immediate A is illegal; that A can be written is checked before D is
changed (R105). W8 and W16 are performed, as for CAS (assumption 127). -/
def execSeqXchg (f : FieldNo) (i : SeqInstr) (s : State) : Out :=
  .next (seqRun f i {} (isImm i.a) s fun e =>
    match i.a with
    | none => .fault { cause := .illegal, addr := e.s.spc f.val }
    | some oa =>
      (locS e f.val i oa false).bind fun pa e0 =>
        (readS e0 f.val i pa.1).bind fun a e1 =>
          let fl := if e1.got.isEmpty then writable e1.s f.val i pa.1 else none
          match fl with
          | some fl => if fl.cause = .protection ∧ seqHolds e1.s f.val i then .hold else .fault fl
          | none =>
            (dstS { e1 with incs := e1.incs ++ pa.2 } f.val i i.d).bind fun pl e2 =>
              (atomS e2 f.val i pl (.xchg (BitVec.ofNat 64 a)) fun _ => some a).bind fun old e3 =>
                putS e3 f.val i pa.1 old)

/-- CAS: indivisibly old := D, D := B when old = A; p0 := old; Z := (old = A). -/
def execSeqCas (f : FieldNo) (i : SeqInstr) (s : State) : Out :=
  let w := i.width
  .next (seqRun f i {} false s fun e =>
    (srcS e f.val i i.a).bind fun a e1 =>
      (srcS e1 f.val i i.b).bind fun b e2 =>
        (dstS e2 f.val i i.d).bind fun pl e3 =>
          (atomS e3 f.val i pl (.cas (BitVec.ofNat 64 a) (BitVec.ofNat 64 b)) fun old =>
            if lowW w old = a then some b else none).bind fun old e4 =>
            .ok () { e4 with
              wr := e4.wr ++ [(0, lowW w old)], s := e4.s.setF F.seqStat_Z (bit (lowW w old == a)) f.val })

/-- DIVU: B = 0 gives all ones with V. -/
def execSeqDivu (f : FieldNo) (i : SeqInstr) (s : State) : Out := .next (seqRun f i {} false s (seqArith f.val 0x13 i))
/-- REMU: B = 0 gives A with V. -/
def execSeqRemu (f : FieldNo) (i : SeqInstr) (s : State) : Out := .next (seqRun f i {} false s (seqArith f.val 0x14 i))

/-- SEQ_DADD. -/
def execSeqDadd (f : FieldNo) (i : SeqInstr) (s : State) : Out :=
  .next (seqRepRun f i legDec (dmBad i) s (seqDecArith f.val 0 i))
/-- SEQ_DSUB. -/
def execSeqDsub (f : FieldNo) (i : SeqInstr) (s : State) : Out :=
  .next (seqRepRun f i legDec (dmBad i) s (seqDecArith f.val 1 i))
/-- SEQ_DMUL. -/
def execSeqDmul (f : FieldNo) (i : SeqInstr) (s : State) : Out :=
  .next (seqRepRun f i legDec (dmBad i) s (seqDecArith f.val 2 i))
/-- DDIV (R110). -/
def execSeqDdiv (f : FieldNo) (i : SeqInstr) (s : State) : Out :=
  .next (seqRun f i { width := false } (dmBad i) s (seqDecArith f.val 3 i))

/-- SEQ_DCMP: rnd and SD must be 0. -/
def execSeqDcmp (f : FieldNo) (i : SeqInstr) (s : State) : Out :=
  .next (seqRun f i { width := false } (dmBad i || dmRnd i != 0 || dmSD i != 0) s fun e =>
    (srcS e f.val i i.a).bind fun a e1 =>
      (srcS e1 f.val i i.b).bind fun b e2 =>
        let r := decCmp a (dmSA i) b (dmSB i)
        .ok () (seqDecEnd f.val i r.1 r.2 e2))

/-- SEQ_DRSC: SB must be 0. -/
def execSeqDrsc (f : FieldNo) (i : SeqInstr) (s : State) : Out :=
  .next (seqRepRun f i legDec (dmBad i || dmSB i != 0) s (seqDecRescale f.val i))

/-- SEQ_REP_ELEMENT: one element of the REP-prefixed instruction that opcode `op` names (R108). -/
def execSeqRepElement (f : FieldNo) (op : Byte) (i : SeqInstr) (s : State) : Out :=
  let o := op.toNat
  let body : SEv → SRes Unit :=
    if o = 0x01 then seqMovBody f.val i
    else if o = 0x20 then seqDecArith f.val 0 i
    else if o = 0x21 then seqDecArith f.val 1 i
    else if o = 0x22 then seqDecArith f.val 2 i
    else if o = 0x25 then seqDecRescale f.val i
    else seqArith f.val o i
  let dec := decide (0x20 ≤ o)
  let l : Legal := { atomic := decide (2 ≤ o ∧ o ≤ 6) || decide (0x0B ≤ o ∧ o ≤ 0x0E), rep := true, width := !dec }
  let bad := (o == 0 || (decide (0x0E < o) && decide (o < 0x20)) || o == 0x23 || o == 0x24 || decide (0x25 < o))
    || (dec && dmBad i) || (o == 0x25 && dmSB i != 0)
  .next (
    if !s.seqCan f.val || !s.flag F.seqStat_REPEAT f.val then s
    else match legality s f.val i l bad with
      | some fl => s.seqFault f.val fl
      | none =>
        if s.getF F.seqRpt_RPT f.val = 0 then
          (s.setF F.seqStat_REPEAT 0 f.val).seqDone f.val { s := s.setF F.seqStat_REPEAT 0 f.val, got := [] } i.len
        else s.seqSettle f.val i (body { s := s, got := (s.seq f.val).got }) fun e => seqRepNext f.val i.len e)

/-- rel16 in bytes. -/
def relOf (i : SeqInstr) : Int := signedOf 16 i.rel.toNat

/-- SEQ_BR. -/
def execSeqBr (f : FieldNo) (cond : BitVec 4) (i : SeqInstr) (s : State) : Out :=
  .next (seqRun f i {} (cond == 15) s fun e =>
    if (condHolds (e.s.seqFlg f.val) cond.toNat).getD false then
      .ok () { e with jump := some (wrapN 24 (e.s.spc f.val + relOf i)) }
    else .ok () e)

/-- CALL: p6 := pc + length. -/
def execSeqCall (f : FieldNo) (i : SeqInstr) (s : State) : Out :=
  .next (seqRun f i {} false s fun e =>
    .ok () { e with
      wr := [(6, (e.s.spc f.val + i.len) % 2 ^ 24)], jump := some (wrapN 24 (e.s.spc f.val + relOf i)) })

/-- JMP: pc := A[23:0]. -/
def execSeqJmp (f : FieldNo) (i : SeqInstr) (s : State) : Out :=
  .next (seqRun f i {} false s fun e => (srcS e f.val i i.a).bind fun a e1 => .ok () { e1 with jump := some (a % 2 ^ 24) })

/-- RET: pc := p6[23:0]. -/
def execSeqRet (f : FieldNo) (i : SeqInstr) (s : State) : Out :=
  .next (seqRun f i {} false s fun e => .ok () { e with jump := some ((e.s.seq f.val).preg 6 % 2 ^ 24) })

/-- TRET: back to M mode at the instruction after CALLT; illegal in M mode. -/
def execSeqTret (f : FieldNo) (i : SeqInstr) (s : State) : Out :=
  .next (seqRun f i { tOnly := true } false s fun e =>
    .ok () { e with s := e.s.setF F.seqStat_MODE 0 f.val, jump := some (e.s.seq f.val).retPc })

end Sys2Proof.Machine
end

