-- ==== Sys2Proof/Machine/SloeSmb.lean ====
section
/-! DEFINITION. The SMBus target of the Sloe (R366 to R368, Table 16.9) and the relay to the Hub (R367). -/

namespace Sys2Proof.Machine

open Sys2Proof

/-! ### Transfers (R366) -/

/-- A transfer ends well, with the bytes it returns. -/
def State.smbDone (s : State) (out : List Byte) : State := s.mapSloe fun v => { v with smbOut := out, smbNack := false }

/-- A transfer is refused. -/
def State.smbRefuse (s : State) : State := s.mapSloe fun v => { v with smbOut := [], smbNack := true }

/-- The interface is powered (Table 16.2). -/
def State.smbUp (s : State) : Bool := !s.sloe.stopped && s.mode != 2

/-- A read transfer: without power nothing happens; without a PEC where one is required it is refused. -/
def State.smbGet (s : State) (pec : Pec) (f : State → State) : State :=
  if !s.smbUp then s else if s.flag F.sloSmb_PEC_REQ && !pec.present then s.smbRefuse else f s

/-- A write transfer: a wrong PEC discards it and is counted. -/
def State.smbSet (s : State) (pec : Pec) (f : State → State) : State :=
  s.smbGet pec fun s => if pec.present && !pec.good then (s.countF F.sloSmb_PEC_ERR 1).smbRefuse else f s

/-! ### Status and clock -/

/-- The bytes of STATUS. -/
def State.smbStatusBytes (s : State) : List Byte :=
  let b (n : Nat) : Byte := BitVec.ofNat 8 n
  let health := if s.mode = 0 then s.getF F.fldUnitHealth_STATE else 3
  [ b (s.mode + 4 * bit (s.getF F.secBootStat_STEP == 11 && !s.flag F.secBootStat_SAFE) + 8 * bit (s.flag F.secBootStat_SAFE)
      + 16 * s.getF F.sloPwrCfg_AUTO_ON),
    b (s.getF F.sloAlarm_NOW), b (s.getF F.sloAlarm_PENDING), b (s.getF F.sloRing_PEND), b (s.getF F.sloRing_OVF), b health, 0, 0 ]

/-- STATUS, code 0x01. -/
def execSmbStatus (pec : Pec) (s : State) : Out := .next (s.smbGet pec fun s => s.smbDone s.smbStatusBytes)

/-- BOOT_STAT, code 0x02. -/
def execSmbBootStat (pec : Pec) (s : State) : Out := .next (s.smbGet pec fun s => s.smbDone (bytesLE 8 s.sloe.bootStat.toNat))

/-- A read of RTC, code 0x08. -/
def execSmbRtcRead (pec : Pec) (s : State) : Out := .next (s.smbGet pec fun s => s.smbDone (bytesLE 4 s.rtc))

/-- RTC_WRITE: over SMBus, code 0x08, or by a write of `SLO_RTC`. -/
def execRtcWrite (smbus : Bool) (pec : Pec) (secs : Word) (s : State) : Out :=
  .next (
    if smbus then s.smbSet pec fun s => (s.rtcSet secs.toNat).smbDone []
    else s.live fun s => s.sloRegWrite .sloRtc 0 0 secs.toNat false)

/-! ### Registers of the Hub (R367) -/

/-- REG_ADDR, code 0x10. -/
def execSmbRegAddr (pec : Pec) (a : Word) (s : State) : Out :=
  .next (s.smbSet pec fun s =>
    if bitsOf a.toNat 26 6 ≠ 0 then s.smbRefuse else (s.mapSloe fun v => { v with regAddr := a.toNat }).smbDone [])

/-- REG_READ, code 0x11. The bytes beside a result other than OK are not stated: a free value. -/
def execSmbRegRead (pec : Pec) (s : State) : Out :=
  .next (s.smbGet pec fun s =>
    let c := s.relayBar
    if c ≠ 0 then
      let d := s.draw
      d.2.smbDone (bytesLE 1 c ++ bytesLE 8 d.1.toNat)
    else
      let r := s.busRead .sloe s.sloe.regAddr .w64
      r.2.smbDone (bytesLE 1 0 ++ bytesLE 8 r.1))

/-- REG_WRITE, code 0x12. -/
def execSmbRegWrite (pec : Pec) (v : DWord) (s : State) : Out :=
  .next (s.smbSet pec fun s =>
    let c := s.relayBar
    let s1 := s.mapSloe fun x => { x with regRes := c }
    let s2 := if c ≠ 0 then s1 else s1.busWrite { src := .sloe, off := BitVec.ofNat 26 s.sloe.regAddr, width := .w64, value := v }
    s2.smbDone [])

/-- REG_RESULT, code 0x13. -/
def execSmbRegResult (pec : Pec) (s : State) : Out := .next (s.smbGet pec fun s => s.smbDone (bytesLE 1 s.sloe.regRes))

/-! ### The ring -/

/-- RING_SEL, code 0x20. -/
def execSmbRingSel (pec : Pec) (n : Byte) (s : State) : Out :=
  .next (s.smbSet pec fun s =>
    if 64 ≤ n.toNat then s.smbRefuse else (s.mapSloe fun v => { v with ringSel := n.toNat }).smbDone [])

/-- The entry `n` back from the newest; zeros when absent. -/
def State.ringEntry (s : State) (n : Nat) : List Byte :=
  if n < s.sloe.ringHave then Tab.readBytes zeroByte s.sloe.ring ((s.sloe.ringNo + 2 ^ 32 - 1 - n) % 64 * 16) 16 else List.replicate 16 0

/-- RING_READ, code 0x21. -/
def execSmbRingRead (pec : Pec) (s : State) : Out := .next (s.smbGet pec fun s => s.smbDone (s.ringEntry s.sloe.ringSel))

/-- ALERT_RESPONSE: a read of address 0x0C while SMBALERT# is asserted. -/
def execAlertResponse (s : State) : Out :=
  .next (
    if !s.smbUp then s
    else if !s.flag F.sloSmb_ALERT then s.smbRefuse
    else ((s.mapSloe fun v => { v with alertRing := false }).alertUpdate).smbDone (bytesLE 1 (2 * smbAddr)))

/-! ### Image delivery (R368) -/

/-- The ROM waits for an image: SAFE with code 0x10, 0x11 or 0x12. -/
def State.imgOpen (s : State) : Bool :=
  let c := s.getF F.secBootStat_SAFE_CODE
  s.flag F.secBootStat_SAFE && decide (0x10 ≤ c) && decide (c ≤ 0x12)

/-- A slot of a kind that holds no VALID image, A before B; 2 when there is none. -/
def State.spareSlot (s : State) (kind : Nat) : Nat :=
  if s.getF F.secImg_CODE ((kind - 1) * 2) ≠ 1 then 0 else if s.getF F.secImg_CODE ((kind - 1) * 2 + 1) ≠ 1 then 1 else 2

/-- A slot is emptied before its body is written. -/
def State.blankSlot (s : State) (kind slot : Nat) : State :=
  if kind = 3 then
    let a := sloeSector slot * 4096
    let lo := a / 256
    (s.mapSloe fun v => { v with
      flash := v.flash.filter fun x => decide (x.1 < a) || decide (a + 57 * 4096 ≤ x.1)
      pages := v.pages.filter fun x => decide (x.1 < lo) || decide (lo + 57 * 16 ≤ x.1) }).toMonitor
  else
    let b := storeBase kind slot
    { s with sec := { s.sec with images := s.sec.images.filter fun x => decide (x.1 < b) || decide (b + 2 ^ 25 ≤ x.1) } }

/-- Body bytes from offset `o` of the body are written into a slot. -/
def State.slotPut (s : State) (kind slot o : Nat) (d : List Byte) : State :=
  if kind = 3 then
    let a := (sloeSector slot + 1) * 4096 + o
    (s.mapSloe fun v => { v with flash := Tab.writeBytes erasedByte v.flash a d }).setFpage (a / 256) { progs := 1, st := 1 }
  else { s with sec := { s.sec with images := Tab.writeBytes erasedByte s.sec.images (storeBase kind slot + 256 + o) d } }

/-- The header of the delivered image is whole: checks 1 to 3 of R336, and the slot it is bound for; a failed check leaves its code
and no slot. Where no slot is without a VALID image the spec states no result: a free code. -/
def State.imgHeader (s : State) (h : List Byte) : Nat × State :=
  let kind := hdr h 4 1
  if kind = 0 ∨ 3 < kind then (2, s.mapSloe fun v => { v with imgCode := 9 })
  else
    let c := s.publicChecks h kind
    let slot := s.spareSlot kind
    if c ≠ 0 then (2, s.mapSloe fun v => { v with imgCode := c })
    else if slot = 2 then
      let d := s.draw
      (2, d.2.mapSloe fun v => { v with imgCode := 2 + d.1.toNat % 11 })
    else (slot, s.blankSlot kind slot)

/-- IMG_DATA, code 0x50. -/
def execSmbImgData (pec : Pec) (off : Word) (data : List Byte) (s : State) : Out :=
  .next (s.smbSet pec fun s =>
    let old : ImgIn := s.sloe.img.getD { next := 0, bytes := [], slot := 2 }
    if !s.imgOpen || off.toNat != old.next || data.length != 128 then s.smbRefuse
    else
      let bytes := old.bytes ++ data
      let h := bytes.take 256
      let kind := hdr h 4 1
      let s0 := if old.next = 0 then s.mapSloe fun v => { v with imgCode := 0 } else s
      let r := if old.next = 128 then s0.imgHeader h else (old.slot, s0)
      let s1 := if 256 ≤ old.next ∧ old.next < 256 + hdr h 0xC 4 ∧ r.1 ≠ 2 then r.2.slotPut kind r.1 (old.next - 256) data else r.2
      (s1.mapSloe fun v => { v with img := some { next := old.next + 128, bytes := bytes, slot := r.1 } }).smbDone [])

/-- The verification at IMG_END: result code, and the slot written when it is VALID. -/
def State.imgFinish (s : State) : Nat × State :=
  match s.sloe.img with
  | none => (9, s)
  | some i =>
    let h := i.bytes.take 256
    let n := hdr h 0xC 4
    if i.bytes.length < 256 then (9, s)
    else if i.slot = 2 then (s.sloe.imgCode, s)
    else if i.bytes.length < 256 + n then (9, s)
    else
      let kind := hdr h 4 1
      let body := (i.bytes.drop 256).take n
      let r := s.verifyImage h body kind
      if r.1 = 1 then (1, (r.2.writeImage kind i.slot h body).imgShow kind i.slot h 1) else r

/-- IMG_END, code 0x51. -/
def execSmbImgEnd (pec : Pec) (s : State) : Out :=
  .next (s.smbSet pec fun s =>
    if !s.imgOpen then s.smbRefuse
    else
      let r := s.imgFinish
      (r.2.mapSloe fun v => { v with img := none, imgCode := r.1 }).smbDone [])

/-- IMG_STAT, code 0x52. A verification ends within its IMG_END, so BUSY reads 0. -/
def execSmbImgStat (pec : Pec) (s : State) : Out :=
  .next (s.smbGet pec fun s =>
    let next := match s.sloe.img with
      | some i => i.next
      | none => 0
    s.smbDone (bytesLE 4 (2 * s.sloe.imgCode + 32 * (next / 128))))

/-! ### The relay (R367) -/

/-- RELAY_READ: `SLO_HUB_ADDR` with READ = 1. -/
def execRelayRead (s : State) : Out :=
  .next (s.live fun s => s.sloRegWrite .sloHubAddr 0 0 (s.getF F.sloHubAddr_OFFSET + 2 ^ 32) false)

/-- RELAY_WRITE: `SLO_HUB_ADDR` with WRITE = 1. -/
def execRelayWrite (s : State) : Out :=
  .next (s.live fun s => s.sloRegWrite .sloHubAddr 0 0 (s.getF F.sloHubAddr_OFFSET + 2 ^ 33) false)

/-- RELAY_COMPLETE: the access is done with result 0, or 2 when the Hub can no longer be reached. -/
def execRelayComplete (s : State) : Out :=
  .next (s.live fun s =>
    match s.sloe.relay with
    | none => s
    | some (wr, off, v) =>
      let fin (s : State) (code : Nat) : State :=
        ((s.mapSloe fun x => { x with relay := none }).setF F.sloHubStat_BUSY 0).setF F.sloHubStat_RESULT code
      if !s.relayUp then fin s 2
      else if wr then fin (s.busWrite { src := .sloe, off := BitVec.ofNat 26 off, width := .w64, value := BitVec.ofNat 64 v }) 0
      else
        let r := s.busRead .sloe off .w64
        fin (r.2.setReg .sloHubData 0 0 0 r.1) 0)

end Sys2Proof.Machine
end

