-- ==== Sys2Proof/Machine/Dispatch.lean ====
section
/-! DEFINITION. The dispatcher: one arm for each command. -/

namespace Sys2Proof.Machine

open Sys2Proof

/-- The effect of a command on everything but the queue. -/
def exec (i : Instr) (s : State) : Host.Outcome State Fault Refusal :=
  match i with
  | .registerWrite ws => Sys2Proof.Machine.execRegisterWrite ws s
  | .rsvdWriteClear src => Sys2Proof.Machine.execRsvdWriteClear src s
  | .lastWriterClear src => Sys2Proof.Machine.execLastWriterClear src s
  | .counterLatchRead src off => Sys2Proof.Machine.execCounterLatchRead src off s
  | .doorbell p t off w v => Sys2Proof.Machine.execDoorbell p t off w v s
  | .descriptorFetch p t n r => Sys2Proof.Machine.execDescriptorFetch p t n r s
  | .dispatch fields => Sys2Proof.Machine.execDispatch fields s
  | .descriptorDelivery f => Sys2Proof.Machine.execDescriptorDelivery f s
  | .projectionExchange f => Sys2Proof.Machine.execProjectionExchange f s
  | .rejectWord p t => Sys2Proof.Machine.execRejectWord p t s
  | .candidateFetch slot cands ctx => Sys2Proof.Machine.execCandidateFetch slot cands ctx s
  | .resultPage p t => Sys2Proof.Machine.execResultPage p t s
  | .postedCreditReturn p n => Sys2Proof.Machine.execPostedCreditReturn p n s
  | .rsHeadWrite p t w v => Sys2Proof.Machine.execRsHeadWrite p t w v s
  | .ringEnable src p t v => Sys2Proof.Machine.execRingEnable src p t v s
  | .flush src p t => Sys2Proof.Machine.execFlush src p t s
  | .ringConfigWrite src p t rs v => Sys2Proof.Machine.execRingConfigWrite src p t rs v s
  | .farSegmentWrite src p v => Sys2Proof.Machine.execFarSegmentWrite src p v s
  | .prtErrClear src p => Sys2Proof.Machine.execPrtErrClear src p s
  | .portStall p t => Sys2Proof.Machine.execPortStall p t s
  | .ringInterrupt p t => Sys2Proof.Machine.execRingInterrupt p t s
  | .hostMemoryRead p path addr len => Sys2Proof.Machine.execHostMemoryRead p path addr len s
  | .hostMemoryWrite p path addr data => Sys2Proof.Machine.execHostMemoryWrite p path addr data s
  | .portReset p kind => Sys2Proof.Machine.execPortReset p kind s
  | .linkDown p => Sys2Proof.Machine.execLinkDown p s
  | .farTierAccess p r => Sys2Proof.Machine.execFarTierAccess p r s
  | .claim src t arg => Sys2Proof.Machine.execClaim src t arg s
  | .activate src t => Sys2Proof.Machine.execActivate src t s
  | .stop src t => Sys2Proof.Machine.execStop src t s
  | .tenantStopComplete t => Sys2Proof.Machine.execTenantStopComplete t s
  | .reassign src t arg => Sys2Proof.Machine.execReassign src t arg s
  | .tenantConfigWrite src t r v => Sys2Proof.Machine.execTenantConfigWrite src t r v s
  | .sliceExpiry f => Sys2Proof.Machine.execSliceExpiry f s
  | .contextSwitch f => Sys2Proof.Machine.execContextSwitch f s
  | .residencyChange f => Sys2Proof.Machine.execResidencyChange f s
  | .windowCommit src v => Sys2Proof.Machine.execWindowCommit src v s
  | .windowInstall t w => Sys2Proof.Machine.execWindowInstall t w s
  | .windowDrain t => Sys2Proof.Machine.execWindowDrain t s
  | .tableRegister src => Sys2Proof.Machine.execTableRegister src s
  | .tableRetire src => Sys2Proof.Machine.execTableRetire src s
  | .ready src bk => Sys2Proof.Machine.execReady src bk s
  | .readyTakeEffect t n bk => Sys2Proof.Machine.execReadyTakeEffect t n bk s
  | .unready src bk => Sys2Proof.Machine.execUnready src bk s
  | .tableConfigWrite src r v => Sys2Proof.Machine.execTableConfigWrite src r v s
  | .epochFlip src t => Sys2Proof.Machine.execEpochFlip src t s
  | .epochPauseEnd t => Sys2Proof.Machine.execEpochPauseEnd t s
  | .bankDrained t n => Sys2Proof.Machine.execBankDrained t n s
  | .copyForward t => Sys2Proof.Machine.execCopyForward t s
  | .hbmAccess m => Sys2Proof.Machine.execHbmAccess m s
  | .patrolScrub m => Sys2Proof.Machine.execPatrolScrub m s
  | .hbmRefresh m bank => Sys2Proof.Machine.execHbmRefresh m bank s
  | .hbmErrClear src m => Sys2Proof.Machine.execHbmErrClear src m s
  | .packetHop id => Sys2Proof.Machine.execPacketHop id s
  | .routerCreditReturn id => Sys2Proof.Machine.execRouterCreditReturn id s
  | .accessTimeout id => Sys2Proof.Machine.execAccessTimeout id s
  | .fldBrErrClear src f => Sys2Proof.Machine.execFldBrErrClear src f s
  | .hubBrTrunkClear src p => Sys2Proof.Machine.execHubBrTrunkClear src p s
  | .kernelFire f t => Sys2Proof.Machine.execKernelFire f t s
  | .queueEntryArrival f t d => Sys2Proof.Machine.execQueueEntryArrival f t d s
  | .qstallResume f t => Sys2Proof.Machine.execQstallResume f t s
  | .contextSwitchEvent f t => Sys2Proof.Machine.execContextSwitchEvent f t s
  | .freeze f t => Sys2Proof.Machine.execFreeze f t s
  | .debugHalt f t => Sys2Proof.Machine.execDebugHalt f t s
  | .faultClear src f t => Sys2Proof.Machine.execFaultClear src f t s
  | .tileOutsideWrite f t off v seq => Sys2Proof.Machine.execTileOutsideWrite f t off v seq s
  | .tileWindowRead src f off w => Sys2Proof.Machine.execTileWindowRead src f off w s
  | .tileWindowWrite src f off w v => Sys2Proof.Machine.execTileWindowWrite src f off w v s
  | .remoteSramAccess f t => Sys2Proof.Machine.execRemoteSramAccess f t s
  | .postedStoreAck f t => Sys2Proof.Machine.execPostedStoreAck f t s
  | .globalResponse f t => Sys2Proof.Machine.execGlobalResponse f t s
  | .gatherElementReturn f t => Sys2Proof.Machine.execGatherElementReturn f t s
  | .tMov x o => Sys2Proof.Machine.execTMov x o s
  | .tAdd x o => Sys2Proof.Machine.execTAdd x o s
  | .tSub x o => Sys2Proof.Machine.execTSub x o s
  | .tAnd x o => Sys2Proof.Machine.execTAnd x o s
  | .tOr x o => Sys2Proof.Machine.execTOr x o s
  | .tXor x o => Sys2Proof.Machine.execTXor x o s
  | .tCmp x o => Sys2Proof.Machine.execTCmp x o s
  | .tTst x o => Sys2Proof.Machine.execTTst x o s
  | .tMac8 x acc d a => Sys2Proof.Machine.execTMac8 x acc d a s
  | .tMacq x acc d a => Sys2Proof.Machine.execTMacq x acc d a s
  | .tLi x k imm => Sys2Proof.Machine.execTLi x k imm s
  | .tLsh x k imm => Sys2Proof.Machine.execTLsh x k imm s
  | .tAddi x k imm => Sys2Proof.Machine.execTAddi x k imm s
  | .tCmpi x k imm => Sys2Proof.Machine.execTCmpi x k imm s
  | .tShli x k imm => Sys2Proof.Machine.execTShli x k imm s
  | .tShri x k imm => Sys2Proof.Machine.execTShri x k imm s
  | .tRr x k imm => Sys2Proof.Machine.execTRr x k imm s
  | .tLdb x k slot => Sys2Proof.Machine.execTLdb x k slot s
  | .tStb x k slot => Sys2Proof.Machine.execTStb x k slot s
  | .tNop x imm => Sys2Proof.Machine.execTNop x imm s
  | .tDone x imm => Sys2Proof.Machine.execTDone x imm s
  | .tSset x imm => Sys2Proof.Machine.execTSset x imm s
  | .tSclr x imm => Sys2Proof.Machine.execTSclr x imm s
  | .tSwait x imm => Sys2Proof.Machine.execTSwait x imm s
  | .signalWake f t => Sys2Proof.Machine.execSignalWake f t s
  | .tBarf x imm => Sys2Proof.Machine.execTBarf x imm s
  | .tBarw x imm => Sys2Proof.Machine.execTBarw x imm s
  | .tAclr x imm => Sys2Proof.Machine.execTAclr x imm s
  | .tArm x imm => Sys2Proof.Machine.execTArm x imm s
  | .tDisarm x imm => Sys2Proof.Machine.execTDisarm x imm s
  | .tJr x imm => Sys2Proof.Machine.execTJr x imm s
  | .tSetrnd x imm => Sys2Proof.Machine.execTSetrnd x imm s
  | .tSetsat x imm => Sys2Proof.Machine.execTSetsat x imm s
  | .tJ16 x cond off => Sys2Proof.Machine.execTJ16 x cond off s
  | .tMul x w a b d => Sys2Proof.Machine.execTMul x w a b d s
  | .tNeg x o => Sys2Proof.Machine.execTNeg x o s
  | .tNot x o => Sys2Proof.Machine.execTNot x o s
  | .tAbs x o => Sys2Proof.Machine.execTAbs x o s
  | .tMin x o => Sys2Proof.Machine.execTMin x o s
  | .tMax x o => Sys2Proof.Machine.execTMax x o s
  | .tMinu x o => Sys2Proof.Machine.execTMinu x o s
  | .tMaxu x o => Sys2Proof.Machine.execTMaxu x o s
  | .tShl x o => Sys2Proof.Machine.execTShl x o s
  | .tShr x o => Sys2Proof.Machine.execTShr x o s
  | .tSar x o => Sys2Proof.Machine.execTSar x o s
  | .tPopc x o => Sys2Proof.Machine.execTPopc x o s
  | .tClz x o => Sys2Proof.Machine.execTClz x o s
  | .tMulq x o => Sys2Proof.Machine.execTMulq x o s
  | .tNarrow x o => Sys2Proof.Machine.execTNarrow x o s
  | .tWiden x o => Sys2Proof.Machine.execTWiden x o s
  | .tRdacc x acc o => Sys2Proof.Machine.execTRdacc x acc o s
  | .tWracc x acc o => Sys2Proof.Machine.execTWracc x acc o s
  | .tMac x acc fmt clr zero a b => Sys2Proof.Machine.execTMac x acc fmt clr zero a b s
  | .tRepMove x o => Sys2Proof.Machine.execTRepMove x o s
  | .tRepFill x o => Sys2Proof.Machine.execTRepFill x o s
  | .tRepCmp x o => Sys2Proof.Machine.execTRepCmp x o s
  | .tRepScan x o => Sys2Proof.Machine.execTRepScan x o s
  | .tRgath x o => Sys2Proof.Machine.execTRgath x o s
  | .repeatElement x rop o => Sys2Proof.Machine.execRepeatElement x rop o s
  | .tBr x cond l k off => Sys2Proof.Machine.execTBr x cond l k off s
  | .tFire x o => Sys2Proof.Machine.execTFire x o s
  | .tCset x o => Sys2Proof.Machine.execTCset x o s
  | .tCclr x o => Sys2Proof.Machine.execTCclr x o s
  | .tCwait x o => Sys2Proof.Machine.execTCwait x o s
  | .tCtst x o => Sys2Proof.Machine.execTCtst x o s
  | .tGld x o => Sys2Proof.Machine.execTGld x o s
  | .tGst x o => Sys2Proof.Machine.execTGst x o s
  | .tTas x o => Sys2Proof.Machine.execTTas x o s
  | .tLr x o => Sys2Proof.Machine.execTLr x o s
  | .tSc x o => Sys2Proof.Machine.execTSc x o s
  | .priorityHoldEnd granule => Sys2Proof.Machine.execPriorityHoldEnd granule s
  | .tMovx x xa xd a d => Sys2Proof.Machine.execTMovx x xa xd a d s
  | .tDadd x o => Sys2Proof.Machine.execTDadd x o s
  | .tDsub x o => Sys2Proof.Machine.execTDsub x o s
  | .tDmul x o => Sys2Proof.Machine.execTDmul x o s
  | .tDcmp x o => Sys2Proof.Machine.execTDcmp x o s
  | .tDrsc x o => Sys2Proof.Machine.execTDrsc x o s
  | .tDcin x o => Sys2Proof.Machine.execTDcin x o s
  | .tDcout x o => Sys2Proof.Machine.execTDcout x o s
  | .seqNop f ins => Sys2Proof.Machine.execSeqNop f ins s
  | .seqMov f ins => Sys2Proof.Machine.execSeqMov f ins s
  | .seqAdd f ins => Sys2Proof.Machine.execSeqAdd f ins s
  | .seqSub f ins => Sys2Proof.Machine.execSeqSub f ins s
  | .seqAnd f ins => Sys2Proof.Machine.execSeqAnd f ins s
  | .seqOr f ins => Sys2Proof.Machine.execSeqOr f ins s
  | .seqXor f ins => Sys2Proof.Machine.execSeqXor f ins s
  | .seqShl f ins => Sys2Proof.Machine.execSeqShl f ins s
  | .seqShr f ins => Sys2Proof.Machine.execSeqShr f ins s
  | .seqSar f ins => Sys2Proof.Machine.execSeqSar f ins s
  | .seqMul f ins => Sys2Proof.Machine.execSeqMul f ins s
  | .seqMin f ins => Sys2Proof.Machine.execSeqMin f ins s
  | .seqMax f ins => Sys2Proof.Machine.execSeqMax f ins s
  | .seqMinu f ins => Sys2Proof.Machine.execSeqMinu f ins s
  | .seqMaxu f ins => Sys2Proof.Machine.execSeqMaxu f ins s
  | .seqCmp f ins => Sys2Proof.Machine.execSeqCmp f ins s
  | .seqTst f ins => Sys2Proof.Machine.execSeqTst f ins s
  | .seqXchg f ins => Sys2Proof.Machine.execSeqXchg f ins s
  | .seqCas f ins => Sys2Proof.Machine.execSeqCas f ins s
  | .seqDivu f ins => Sys2Proof.Machine.execSeqDivu f ins s
  | .seqRemu f ins => Sys2Proof.Machine.execSeqRemu f ins s
  | .seqDadd f ins => Sys2Proof.Machine.execSeqDadd f ins s
  | .seqDsub f ins => Sys2Proof.Machine.execSeqDsub f ins s
  | .seqDmul f ins => Sys2Proof.Machine.execSeqDmul f ins s
  | .seqDdiv f ins => Sys2Proof.Machine.execSeqDdiv f ins s
  | .seqDcmp f ins => Sys2Proof.Machine.execSeqDcmp f ins s
  | .seqDrsc f ins => Sys2Proof.Machine.execSeqDrsc f ins s
  | .seqBr f cond ins => Sys2Proof.Machine.execSeqBr f cond ins s
  | .seqCall f ins => Sys2Proof.Machine.execSeqCall f ins s
  | .seqJmp f ins => Sys2Proof.Machine.execSeqJmp f ins s
  | .seqRet f ins => Sys2Proof.Machine.execSeqRet f ins s
  | .seqTret f ins => Sys2Proof.Machine.execSeqTret f ins s
  | .seqScset f ins => Sys2Proof.Machine.execSeqScset f ins s
  | .seqScclr f ins => Sys2Proof.Machine.execSeqScclr f ins s
  | .seqScwait f ins => Sys2Proof.Machine.execSeqScwait f ins s
  | .seqBarf f ins => Sys2Proof.Machine.execSeqBarf f ins s
  | .seqBarw f ins => Sys2Proof.Machine.execSeqBarw f ins s
  | .seqGstage f ins => Sys2Proof.Machine.execSeqGstage f ins s
  | .gstageDone f => Sys2Proof.Machine.execGstageDone f s
  | .gstageFault f => Sys2Proof.Machine.execGstageFault f s
  | .seqWload f ins => Sys2Proof.Machine.execSeqWload f ins s
  | .wloadComplete f => Sys2Proof.Machine.execWloadComplete f s
  | .seqDpass f ins => Sys2Proof.Machine.execSeqDpass f ins s
  | .seqDwait f ins => Sys2Proof.Machine.execSeqDwait f ins s
  | .seqEvwait f ins => Sys2Proof.Machine.execSeqEvwait f ins s
  | .seqRqtake f ins => Sys2Proof.Machine.execSeqRqtake f ins s
  | .seqProj f ins => Sys2Proof.Machine.execSeqProj f ins s
  | .seqAdmit f ins => Sys2Proof.Machine.execSeqAdmit f ins s
  | .seqRqend f ins => Sys2Proof.Machine.execSeqRqend f ins s
  | .seqCallt f ins => Sys2Proof.Machine.execSeqCallt f ins s
  | .seqTrst f ins => Sys2Proof.Machine.execSeqTrst f ins s
  | .seqCtxsave f ins => Sys2Proof.Machine.execSeqCtxsave f ins s
  | .seqCtxload f ins => Sys2Proof.Machine.execSeqCtxload f ins s
  | .seqRepElement f op ins => Sys2Proof.Machine.execSeqRepElement f op ins s
  | .seqPreempt f => Sys2Proof.Machine.execSeqPreempt f s
  | .microcodeReload f => Sys2Proof.Machine.execMicrocodeReload f s
  | .feedEntryArrival f lane => Sys2Proof.Machine.execFeedEntryArrival f lane s
  | .drainEntryArrival f lane => Sys2Proof.Machine.execDrainEntryArrival f lane s
  | .planeLoadDone f => Sys2Proof.Machine.execPlaneLoadDone f s
  | .passStreamStart f => Sys2Proof.Machine.execPassStreamStart f s
  | .vectorEntry f => Sys2Proof.Machine.execVectorEntry f s
  | .vectorConvert f => Sys2Proof.Machine.execVectorConvert f s
  | .conversionDone f => Sys2Proof.Machine.execConversionDone f s
  | .dnsErrClear src f => Sys2Proof.Machine.execDnsErrClear src f s
  | .cellOperation f => Sys2Proof.Machine.execCellOperation f s
  | .cellAck f w => Sys2Proof.Machine.execCellAck f w s
  | .cellWake f w => Sys2Proof.Machine.execCellWake f w s
  | .barrierArrival g => Sys2Proof.Machine.execBarrierArrival g s
  | .barrierRelease g => Sys2Proof.Machine.execBarrierRelease g s
  | .deadlockDetectorFire f => Sys2Proof.Machine.execDeadlockDetectorFire f s
  | .thaw src f => Sys2Proof.Machine.execThaw src f s
  | .deadlockReset src f => Sys2Proof.Machine.execDeadlockReset src f s
  | .dlFire src f => Sys2Proof.Machine.execDlFire src f s
  | .cellCorrInject src f => Sys2Proof.Machine.execCellCorrInject src f s
  | .cellUncorrInject src f => Sys2Proof.Machine.execCellUncorrInject src f s
  | .treeParityInject src f => Sys2Proof.Machine.execTreeParityInject src f s
  | .waferTreeInject src => Sys2Proof.Machine.execWaferTreeInject src s
  | .syncErrClear src f => Sys2Proof.Machine.execSyncErrClear src f s
  | .wbarErrClear src => Sys2Proof.Machine.execWbarErrClear src s
  | .lend f => Sys2Proof.Machine.execLend f s
  | .recall f => Sys2Proof.Machine.execRecall f s
  | .recallComplete f => Sys2Proof.Machine.execRecallComplete f s
  | .lendThresholdWrite src v => Sys2Proof.Machine.execLendThresholdWrite src v s
  | .witnessRecordSend f => Sys2Proof.Machine.execWitnessRecordSend f s
  | .witnessReplay f t r => Sys2Proof.Machine.execWitnessReplay f t r s
  | .witnessRecordTimeout f => Sys2Proof.Machine.execWitnessRecordTimeout f s
  | .refereeReplay f t r => Sys2Proof.Machine.execRefereeReplay f t r s
  | .suspectExpiry ins => Sys2Proof.Machine.execSuspectExpiry ins s
  | .tileSelfTest f t pass => Sys2Proof.Machine.execTileSelfTest f t pass s
  | .fence src f t hold => Sys2Proof.Machine.execFence src f t hold s
  | .unfence src f t => Sys2Proof.Machine.execUnfence src f t s
  | .retire src f => Sys2Proof.Machine.execRetire src f s
  | .fenceQuiesce f r => Sys2Proof.Machine.execFenceQuiesce f r s
  | .fenceResume f => Sys2Proof.Machine.execFenceResume f s
  | .retirementQuiesce f spareFails => Sys2Proof.Machine.execRetirementQuiesce f spareFails s
  | .retirementResume f => Sys2Proof.Machine.execRetirementResume f s
  | .commandedSelfTest src kind num => Sys2Proof.Machine.execCommandedSelfTest src kind num s
  | .stDone r => Sys2Proof.Machine.execStDone r s
  | .rasInject src v => Sys2Proof.Machine.execRasInject src v s
  | .hardenedScrub off => Sys2Proof.Machine.execHardenedScrub off s
  | .rasHardClear src => Sys2Proof.Machine.execRasHardClear src s
  | .rasNotify p => Sys2Proof.Machine.execRasNotify p s
  | .linkEnable src k allowX8 => Sys2Proof.Machine.execLinkEnable src k allowX8 s
  | .linkDisable src k => Sys2Proof.Machine.execLinkDisable src k s
  | .retrain src k => Sys2Proof.Machine.execRetrain src k s
  | .detect k lanes => Sys2Proof.Machine.execDetect k lanes s
  | .equaliseDone k => Sys2Proof.Machine.execEqualiseDone k s
  | .alignDone k lanes => Sys2Proof.Machine.execAlignDone k lanes s
  | .ctrlFlit k c => Sys2Proof.Machine.execCtrlFlit k c s
  | .trainingTimeout k => Sys2Proof.Machine.execTrainingTimeout k s
  | .dataFlit k fl err => Sys2Proof.Machine.execDataFlit k fl err s
  | .idleFlit k ack nak seq err => Sys2Proof.Machine.execIdleFlit k ack nak seq err s
  | .nak k ack => Sys2Proof.Machine.execNak k ack s
  | .replayTimeout k => Sys2Proof.Machine.execReplayTimeout k s
  | .timePacket k stamp => Sys2Proof.Machine.execTimePacket k stamp s
  | .peerRegisterRead k v => Sys2Proof.Machine.execPeerRegisterRead k v s
  | .remoteRequest k r => Sys2Proof.Machine.execRemoteRequest k r s
  | .linkLostPoison k => Sys2Proof.Machine.execLinkLostPoison k s
  | .bundleReassign k => Sys2Proof.Machine.execBundleReassign k s
  | .tchUnitWrite src v => Sys2Proof.Machine.execTchUnitWrite src v s
  | .apertureWrite src j v => Sys2Proof.Machine.execApertureWrite src j v s
  | .exportWindowWrite src j v => Sys2Proof.Machine.execExportWindowWrite src j v s
  | .tchStatClear src => Sys2Proof.Machine.execTchStatClear src s
  | .linkErrClear src k => Sys2Proof.Machine.execLinkErrClear src k s
  | .injSym src k => Sys2Proof.Machine.execInjSym src k s
  | .injUncorr src k => Sys2Proof.Machine.execInjUncorr src k s
  | .injCrc src k => Sys2Proof.Machine.execInjCrc src k s
  | .injLane src k => Sys2Proof.Machine.execInjLane src k s
  | .domainOffReq src d off => Sys2Proof.Machine.execDomainOffReq src d off s
  | .domainFault d => Sys2Proof.Machine.execDomainFault d s
  | .opReevaluation => Sys2Proof.Machine.execOpReevaluation s
  | .opTransition f => Sys2Proof.Machine.execOpTransition f s
  | .junctionSense f s0 s1 s2 s3 => Sys2Proof.Machine.execJunctionSense f s0 s1 s2 s3 s
  | .thermalCeilingStep f => Sys2Proof.Machine.execThermalCeilingStep f s
  | .hbmThermalCeiling m temp => Sys2Proof.Machine.execHbmThermalCeiling m temp s
  | .currentCeiling f amps => Sys2Proof.Machine.execCurrentCeiling f amps s
  | .envelopeCeiling watts => Sys2Proof.Machine.execEnvelopeCeiling watts s
  | .fieldReqWrite src f v => Sys2Proof.Machine.execFieldReqWrite src f v s
  | .freezeCounters src on => Sys2Proof.Machine.execFreezeCounters src on s
  | .zeroCounters src => Sys2Proof.Machine.execZeroCounters src s
  | .powerOnReset => Sys2Proof.Machine.execPowerOnReset s
  | .unitReset by_ => Sys2Proof.Machine.execUnitReset by_ s
  | .watchdogReset => Sys2Proof.Machine.execWatchdogReset s
  | .sloeAlive => Sys2Proof.Machine.execSloeAlive s
  | .powerUp => Sys2Proof.Machine.execPowerUp s
  | .hubRom ok => Sys2Proof.Machine.execHubRom ok s
  | .otpCheck => Sys2Proof.Machine.execOtpCheck s
  | .imageVerification => Sys2Proof.Machine.execImageVerification s
  | .defectRecordVerify => Sys2Proof.Machine.execDefectRecordVerify s
  | .bootMapBuild => Sys2Proof.Machine.execBootMapBuild s
  | .quickSelfTest p r last => Sys2Proof.Machine.execQuickSelfTest p r last s
  | .hbmTraining failed => Sys2Proof.Machine.execHbmTraining failed s
  | .fieldRelease => Sys2Proof.Machine.execFieldRelease s
  | .hostLinkUp partners => Sys2Proof.Machine.execHostLinkUp partners s
  | .bootStepTimeout => Sys2Proof.Machine.execBootStepTimeout s
  | .stage src kind r => Sys2Proof.Machine.execStage src kind r s
  | .stageComplete readbackOk => Sys2Proof.Machine.execStageComplete readbackOk s
  | .svnCommit src kind => Sys2Proof.Machine.execSvnCommit src kind s
  | .returnAuth src r => Sys2Proof.Machine.execReturnAuth src r s
  | .signatureVerify => Sys2Proof.Machine.execSignatureVerify s
  | .lcGo src target => Sys2Proof.Machine.execLcGo src target s
  | .armExpiry => Sys2Proof.Machine.execArmExpiry s
  | .lifecycleBurn => Sys2Proof.Machine.execLifecycleBurn s
  | .mainPowerGoodRise => Sys2Proof.Machine.execMainPowerGoodRise s
  | .mainPowerGoodDrop => Sys2Proof.Machine.execMainPowerGoodDrop s
  | .standbyRailFall => Sys2Proof.Machine.execStandbyRailFall s
  | .standbyRailStable => Sys2Proof.Machine.execStandbyRailStable s
  | .cellStop => Sys2Proof.Machine.execCellStop s
  | .autoOn => Sys2Proof.Machine.execAutoOn s
  | .powerOn by_ => Sys2Proof.Machine.execPowerOn by_ s
  | .powerOff by_ => Sys2Proof.Machine.execPowerOff by_ s
  | .sloeWatchdogRestart => Sys2Proof.Machine.execSloeWatchdogRestart s
  | .keyScan closed => Sys2Proof.Machine.execKeyScan closed s
  | .keyPop => Sys2Proof.Machine.execKeyPop s
  | .keypadLock => Sys2Proof.Machine.execKeypadLock s
  | .chordTimeout => Sys2Proof.Machine.execChordTimeout s
  | .frameStart => Sys2Proof.Machine.execFrameStart s
  | .displayCommit crc => Sys2Proof.Machine.execDisplayCommit crc s
  | .vlcdUpdate temp cellMv => Sys2Proof.Machine.execVlcdUpdate temp cellMv s
  | .leakSample wet => Sys2Proof.Machine.execLeakSample wet s
  | .leakShut => Sys2Proof.Machine.execLeakShut s
  | .outletTempSample temp => Sys2Proof.Machine.execOutletTempSample temp s
  | .lidOpen => Sys2Proof.Machine.execLidOpen s
  | .cellMeasure mv => Sys2Proof.Machine.execCellMeasure mv s
  | .alarmAck by_ => Sys2Proof.Machine.execAlarmAck by_ s
  | .ringCopy => Sys2Proof.Machine.execRingCopy s
  | .ringClear => Sys2Proof.Machine.execRingClear s
  | .calcDigit d => Sys2Proof.Machine.execCalcDigit d s
  | .calcPoint => Sys2Proof.Machine.execCalcPoint s
  | .calcAdd => Sys2Proof.Machine.execCalcAdd s
  | .calcSubtract => Sys2Proof.Machine.execCalcSubtract s
  | .calcMultiply => Sys2Proof.Machine.execCalcMultiply s
  | .calcDivide => Sys2Proof.Machine.execCalcDivide s
  | .calcEquals => Sys2Proof.Machine.execCalcEquals s
  | .calcPercent => Sys2Proof.Machine.execCalcPercent s
  | .calcSqrt => Sys2Proof.Machine.execCalcSqrt s
  | .calcSquare => Sys2Proof.Machine.execCalcSquare s
  | .calcReciprocal => Sys2Proof.Machine.execCalcReciprocal s
  | .calcSign => Sys2Proof.Machine.execCalcSign s
  | .calcDelete => Sys2Proof.Machine.execCalcDelete s
  | .calcC => Sys2Proof.Machine.execCalcC s
  | .calcAc => Sys2Proof.Machine.execCalcAc s
  | .calcMc => Sys2Proof.Machine.execCalcMc s
  | .calcMr => Sys2Proof.Machine.execCalcMr s
  | .calcMPlus => Sys2Proof.Machine.execCalcMPlus s
  | .calcMMinus => Sys2Proof.Machine.execCalcMMinus s
  | .menu k => Sys2Proof.Machine.execMenu k s
  | .pinEntry digits => Sys2Proof.Machine.execPinEntry digits s
  | .pinSessionTimeout => Sys2Proof.Machine.execPinSessionTimeout s
  | .pinLockoutEnd => Sys2Proof.Machine.execPinLockoutEnd s
  | .pinChange digits => Sys2Proof.Machine.execPinChange digits s
  | .acknowledgeAllAlarms => Sys2Proof.Machine.execAcknowledgeAllAlarms s
  | .ringCopyNow => Sys2Proof.Machine.execRingCopyNow s
  | .smbStatus pec => Sys2Proof.Machine.execSmbStatus pec s
  | .smbBootStat pec => Sys2Proof.Machine.execSmbBootStat pec s
  | .smbRtcRead pec => Sys2Proof.Machine.execSmbRtcRead pec s
  | .rtcWrite smbus pec secs => Sys2Proof.Machine.execRtcWrite smbus pec secs s
  | .smbRegAddr pec a => Sys2Proof.Machine.execSmbRegAddr pec a s
  | .smbRegRead pec => Sys2Proof.Machine.execSmbRegRead pec s
  | .smbRegWrite pec v => Sys2Proof.Machine.execSmbRegWrite pec v s
  | .smbRegResult pec => Sys2Proof.Machine.execSmbRegResult pec s
  | .smbRingSel pec n => Sys2Proof.Machine.execSmbRingSel pec n s
  | .smbRingRead pec => Sys2Proof.Machine.execSmbRingRead pec s
  | .smbImgData pec off data => Sys2Proof.Machine.execSmbImgData pec off data s
  | .smbImgEnd pec => Sys2Proof.Machine.execSmbImgEnd pec s
  | .smbImgStat pec => Sys2Proof.Machine.execSmbImgStat pec s
  | .alertResponse => Sys2Proof.Machine.execAlertResponse s
  | .relayRead => Sys2Proof.Machine.execRelayRead s
  | .relayWrite => Sys2Proof.Machine.execRelayWrite s
  | .relayComplete => Sys2Proof.Machine.execRelayComplete s
  | .flProgram key => Sys2Proof.Machine.execFlProgram key s
  | .flErase key => Sys2Proof.Machine.execFlErase key s
  | .flOptProgram key => Sys2Proof.Machine.execFlOptProgram key s
  | .flOptErase key => Sys2Proof.Machine.execFlOptErase key s
  | .flUnlock => Sys2Proof.Machine.execFlUnlock s
  | .flLock => Sys2Proof.Machine.execFlLock s
  | .flOptLoad => Sys2Proof.Machine.execFlOptLoad s
  | .flSuspend => Sys2Proof.Machine.execFlSuspend s
  | .flResume => Sys2Proof.Machine.execFlResume s
  | .flashPulseComplete => Sys2Proof.Machine.execFlashPulseComplete s
  | .flashOperationComplete => Sys2Proof.Machine.execFlashOperationComplete s
  | .flashWindowReadStall addr => Sys2Proof.Machine.execFlashWindowReadStall addr s
  | .wpClear hi v fromRom => Sys2Proof.Machine.execWpClear hi v fromRom s
  | .sloeStart => Sys2Proof.Machine.execSloeStart s
  | .linkUp p flit cxl rate width => Sys2Proof.Machine.execLinkUp p flit cxl rate width s
  | .busMasterEnable p on => Sys2Proof.Machine.execBusMasterEnable p on s
  | .hdmDecoderCommit p => Sys2Proof.Machine.execHdmDecoderCommit p s
  | .passEnd f => Sys2Proof.Machine.execPassEnd f s
  | .domainRampDone d => Sys2Proof.Machine.execDomainRampDone d s

end Sys2Proof.Machine
end

