-- ==== Sys2Proof/Machine/Tap.lean ====
section
/-! DEFINITION. The test port (R411, Table 15.4): its scan chain, the IDCODE of each device, and the instructions it offers. No
command of the table drives it (assumption 141). -/

namespace Sys2Proof.Machine

open Sys2Proof

/-- A device of the scan chain: the Hub, or an edge die E0 to E7. -/
inductive TapDevice where
  | hub
  | edge (e : Fin 8)
  deriving DecidableEq, Repr

/-- The scan chain in its order from TDI to TDO (R411). -/
def scanChain : List TapDevice := .hub :: (List.finRange 8).map .edge

/-- IDCODE[27:12] (R411). -/
def TapDevice.part : TapDevice → Nat
  | .hub => 0x4B10
  | .edge e => 0x4B11 + e.val

/-- The IDCODE of a device: the stepping digit, the part, Volord's manufacturer code, and the 1 that IEEE 1149.1 gives bit 0. The
stepping digit stands in the OTP in ASCII (Table 15.3). -/
def State.idcode (s : State) (d : TapDevice) : Word :=
  BitVec.ofNat 4 (s.otpByte 0x3C5) ++ BitVec.ofNat 16 d.part ++ Config.jedecCode ++ 1#1

/-- An instruction of a TAP: those that IEEE 1149.1 names here, and the debug instructions, which the spec does not list. -/
inductive TapInstr where
  | bypass
  | idcode
  | samplePreload
  | extest
  | debug (code : Nat)
  deriving DecidableEq, Repr

/-- The test port offers an instruction: with DEBUG_DIS only the four of Table 15.4 remain. -/
def State.tapOffers (s : State) : TapInstr → Bool
  | .debug _ => !s.debugDis
  | _ => true

/-- What a scan shifts out with IDCODE in every TAP, first bit first: the device nearest TDO comes first, each least significant bit
first. -/
def State.idcodeScan (s : State) : List Bool :=
  scanChain.reverse.flatMap fun d => (List.finRange 32).map fun i => (s.idcode d).getLsbD i.val

end Sys2Proof.Machine
end

