-- ==== Sys2Proof/Machine/Tick.lean ====
section
/-! DEFINITION. What the block does by itself while no command waits: one Hub cycle passes, and every core and sequencer that can
start an instruction fetches it (R74, R75, R101, R107; assumption 2). -/

namespace Sys2Proof.Machine

open Sys2Proof

/-- A repeat in progress goes on with its next element (R88). -/
def asElement : Instr → Instr
  | .tRepMove x o => .repeatElement x 0 o
  | .tRepFill x o => .repeatElement x 1 o
  | .tRepCmp x o => .repeatElement x 2 o
  | .tRepScan x o => .repeatElement x 3 o
  | .tRgath x o => .repeatElement x 4 o
  | i => i

/-- A command joins the queue. -/
def State.enqueue (s : State) (i : Instr) : State := { s with pending := s.pending ++ [i] }

/-- The instruction that two halfwords spell joins the queue; an illegal one faults (R76). -/
def State.fetched (s : State) (x : Site) (w g : Nat) : State :=
  let c := s.core x
  match decodeTile x w g with
  | none => s.tileFault x (illegalAt c.pc.toNat)
  | some i => s.enqueue (if c.repeat_ then asElement i else i)

/-- Fetch the bytes of a halfword of a tile: a fault (MISALIGNED at an odd PC, assumption 26), or its value and the state with
a single-bit error corrected. -/
def State.fetchHalf (s : State) (f : FieldNo) (t : TileNo) (a : Nat) : Except TFault (Nat × State) :=
  let c := s.tile f.val t.val
  if 0xC000 ≤ a then .error { cause := .localAddr, addr := a }
  else if a % 2 = 1 then .error { cause := .misaligned, addr := a }
  else if c.errAt a = 2 then .error { cause := .poison, addr := a }
  else .ok (c.rdSram a 2, (s.setTile f.val t.val { c with sramErr := Tab.set (fun _ => 0) c.sramErr (a / 8) 0 }).sramErrCount f.val (c.errAt a))

/-- A core keeps the halfwords it has fetched until the instruction completes (R75), and logs them (R280). -/
def Tile.keepIr (c : Tile) (w g : Nat) : Tile :=
  let c1 := c.logRead c.pc.toNat w
  { (if tileLong w then c1.logRead (c.pc.toNat + 2) g else c1) with ir := some (w, g) }

/-- A tile fetches its next instruction (R74), or goes on with the one it has fetched (R75); a debug halt that waits is taken. -/
def State.fetchTile (s : State) (f : FieldNo) (t : TileNo) : State :=
  let x : Site := .tile f t
  let got (s : State) (w g : Nat) : State := (s.setTile f.val t.val ((s.tile f.val t.val).keepIr w g)).fetched x w g
  if (s.tile f.val t.val).haltReq then s.haltTile f t
  else if !s.canIssue x then s
  else match (s.tile f.val t.val).ir with
  | some (w, g) => s.fetched x w g
  | none =>
    let pc := (s.tile f.val t.val).pc.toNat
    match s.fetchHalf f t pc with
    | .error fl => s.tileFault x fl
    | .ok (w, s1) =>
      if tileLong w then
        match s1.fetchHalf f t (pc + 2) with
        | .error fl => s1.tileFault x fl
        | .ok (g, s2) => got s2 w g
      else got s1 w 0

/-- One halfword that the Sloe core fetches: a stalled read of the flash window, a fault, or its value. -/
def State.sloeHalf (s : State) (a : Nat) : Except State (Nat × State) :=
  let fl (c : Cause) : State := s.tileFault .sloe { cause := c, addr := a }
  if 0xC000 ≤ a then .error (fl .localAddr)
  else if a % 2 = 1 then .error (fl .misaligned)
  else if s.flashStalls a then .error (s.flashStallRead a)
  else match s.sloeRead a 2 with
    | none => .error (fl .localAddr)
    | some r => .ok r

/-- The Sloe core fetches its next instruction (R347), or goes on with the one it has fetched (R75). What the ROM's code does is in
the commands and in `State.romTurn`, so none is fetched from it. -/
def State.fetchSloe (s0 : State) : State :=
  let s := s0.romTurn
  let pc := s.sloe.core.pc.toNat
  let got (s : State) (w g : Nat) : State := (s.mapSloe fun v => { v with core := v.core.keepIr w g }).fetched .sloe w g
  if !s.canIssue .sloe || s.inRom then s
  else match s.sloe.core.ir with
  | some (w, g) => s.fetched .sloe w g
  | none =>
    match s.sloeHalf pc with
    | .error s1 => s1
    | .ok (w, s1) =>
      if tileLong w then
        match s1.sloeHalf (pc + 2) with
        | .error s2 => s2
        | .ok (g, s2) => got s2 w g
      else got s1 w 0

/-- The bytes of an instruction, and the opcode that a REP prefix repeats. -/
def seqShape : Instr → Option (SeqInstr × Byte)
  | .seqMov _ i => some (i, 0x01)
  | .seqAdd _ i => some (i, 0x02)
  | .seqSub _ i => some (i, 0x03)
  | .seqAnd _ i => some (i, 0x04)
  | .seqOr _ i => some (i, 0x05)
  | .seqXor _ i => some (i, 0x06)
  | .seqShl _ i => some (i, 0x07)
  | .seqShr _ i => some (i, 0x08)
  | .seqSar _ i => some (i, 0x09)
  | .seqMul _ i => some (i, 0x0A)
  | .seqMin _ i => some (i, 0x0B)
  | .seqMax _ i => some (i, 0x0C)
  | .seqMinu _ i => some (i, 0x0D)
  | .seqMaxu _ i => some (i, 0x0E)
  | .seqDadd _ i => some (i, 0x20)
  | .seqDsub _ i => some (i, 0x21)
  | .seqDmul _ i => some (i, 0x22)
  | .seqDrsc _ i => some (i, 0x25)
  | _ => none

/-- The error marks of `n` store words from word `w` on, as a fetch at `pc` meets them: a single-bit error is corrected, an
uncorrectable one is POISON (Table 13.4). -/
def State.fetchWords (f pc : Nat) : Nat → Nat → State → Except TFault State
  | 0, _, s => .ok s
  | n + 1, w, s =>
    let q := s.seq f
    if q.errAt (8 * w) = 2 then .error { cause := .poison, addr := max pc (8 * w) }
    else State.fetchWords f pc n (w + 1) (if q.errAt (8 * w) = 1 then
      (s.setSeq f { q with storeErr := Tab.set (fun _ => 0) q.storeErr w 0 }).storeErrCount f 1 else s)

/-- A sequencer fetches its next instruction from its store, or leaves T mode where it must (R101, R107, R114). A pc at or above
0x04_0000 is SEQ_ADDR; bytes that run past the store from below it are LENGTH (assumption 126). -/
def State.fetchSeq (s : State) (f : FieldNo) : State :=
  let q := s.seq f.val
  let pc := s.spc f.val
  let top := if s.tmode f.val then (s.getF F.seqTstore_BASE f.val + s.getF F.seqTstore_SIZE f.val) * 4096 else 0x40000
  let end_ := min top (pc + 24)
  let past : TFault := if s.tmode f.val then { cause := .localAddr, addr := end_ } else { cause := .length, addr := pc }
  if s.tmode f.val && q.mustPreempt then s.enqueue (.seqPreempt f)
  else if !s.seqCan f.val then s
  else match s.saCheck f.val pc pc with
    | some fl => s.seqFault f.val fl
    | none =>
      if 0x40000 ≤ pc then s.seqFault f.val { cause := .localAddr, addr := pc }
      else
        let d := decodeSeq f (Tab.readBytes zeroByte q.store pc (end_ - pc))
        let n := match d with
          | .instr _ n => n
          | .illegal => 1
          | .short => end_ - pc
        match State.fetchWords f.val pc ((pc + n + 7) / 8 - pc / 8) (pc / 8) s with
        | .error fl => s.seqFault f.val fl
        | .ok s1 =>
          match d with
          | .short => s1.seqFault f.val past
          | .illegal => s1.seqFault f.val { cause := .illegal, addr := pc }
          | .instr i _ =>
            match seqShape i with
            | some (si, op) =>
              if si.rep && s1.flag F.seqStat_REPEAT f.val then s1.enqueue (.seqRepElement f op si) else s1.enqueue i
            | none => s1.enqueue i

/-- The field's detectors of standstill and of quiet restart where their condition does not hold (R202, R204). -/
def State.watch (s : State) (f : Nat) : State :=
  let x := s.field f
  s.setField f { x with
    dlSince := if s.condC f then x.dlSince else s.now
    dlCyc := if s.condC f then x.dlCyc else 0
    quietSince := if s.quiet f then x.quietSince else s.now }

/-- One Hub cycle of 1 ns (R5): the cycle's record of writes ends, a field test that waited begins, the detectors look, and
instructions are fetched. -/
def tick (s0 : State) : State :=
  let s := { s0 with now := s0.now + 1, bus := { s0.bus with cycle := [], moved := [], turns := [] } }
  let s1 := s.fields.foldl (fun s x => s.watch x.1) s.testStart.countLate
  let s2 := s.tiles.foldl (fun s x => s.fetchTile (Fin.ofNat 92 (x.1 / 4900)) (Fin.ofNat 4900 x.1)) s1
  let s3 := s.fields.foldl (fun s x => s.fetchSeq (Fin.ofNat 92 x.1)) s2
  s3.fetchSloe

end Sys2Proof.Machine
end

