-- ==== Sys2Proof/Safety.lean ====
section
/-! DEFINITION. What claims say about a run: which parts of the block a command leaves alone, how a tile instruction ends, and the
spec's arithmetic in its own words. -/

namespace Sys2Proof.Machine

open Sys2Proof

/-- A step goes on. -/
def goesOn (s : State) : Prop := ∃ t, step s = .next t

/-- The memory of the HBM stacks, their error marks and the Hub's tables are in canonical form. -/
def canonical (s : State) : Prop :=
  Tab.wf zeroByte s.hbm.bytes = true ∧ Tab.wf (fun _ => 0) s.hbm.err = true ∧ Tab.wf (fun _ => ({} : Tbl)) s.hub.tables = true

/-! ### Frames -/

/-- The parts of the block. -/
inductive Part where
  | now | freeCtr | bus | regs | hbm | tiles | fields | hub | ports | mesh | links | ras | pwr | sec | sloe | hostOut | msix | hostAns | hostGet
  | pending
  deriving DecidableEq, Repr

/-- A part of the block is the same in two states. -/
def Part.same (s t : State) : Part → Prop
  | .now => t.now = s.now
  | .freeCtr => t.freeCtr = s.freeCtr
  | .bus => t.bus = s.bus
  | .regs => t.regs = s.regs
  | .hbm => t.hbm = s.hbm
  | .tiles => t.tiles = s.tiles
  | .fields => t.fields = s.fields
  | .hub => t.hub = s.hub
  | .ports => t.ports = s.ports
  | .mesh => t.mesh = s.mesh
  | .links => t.links = s.links
  | .ras => t.ras = s.ras
  | .pwr => t.pwr = s.pwr
  | .sec => t.sec = s.sec
  | .sloe => t.sloe = s.sloe
  | .hostOut => t.hostOut = s.hostOut
  | .msix => t.msix = s.msix
  | .hostAns => t.hostAns = s.hostAns
  | .hostGet => t.hostGet = s.hostGet
  | .pending => t.pending = s.pending

/-- Every part of the block but those of the list is unchanged. -/
def keeps (l : List Part) (s t : State) : Prop := ∀ p, p ∉ l → Part.same s t p

/-- Only the core of `x` may differ. -/
def coreOnly (x : Site) (s t : State) : Prop :=
  (∀ y, y ≠ x → t.core y = s.core y) ∧ t = { s with tiles := t.tiles, sloe := { s.sloe with core := t.sloe.core } }

/-- Only logical field `f` may differ. -/
def fieldOnly (f : Nat) (s t : State) : Prop := (∀ g, g ≠ f → t.field g = s.field g) ∧ keeps [.fields] s t

/-- Every register but those of the list reads as before. -/
def regsKept (l : List Reg) (s t : State) : Prop := ∀ r i j k, r ∉ l → t.reg r i j k = s.reg r i j k

/-- What every BAR0 write leaves behind whatever it does: its turn in the Hub cycle (R230), the records `HUB_LAST_WRITER` and `HUB_RSVD_WRITE` (R7, R234), and the copies
of a hardened word it writes made equal (R293). Nothing else differs between `s` and `u`. -/
def recorded (s u : State) : Prop :=
  regsKept [.hubLastWriter, .hubRsvdWrite] s u ∧
  u = { s with regs := u.regs, bus := { s.bus with cycle := u.bus.cycle, moved := u.bus.moved, turns := u.bus.turns }, ras := { s.ras with hard := u.ras.hard } }

/-- A source may write a register that `g` guards (R217, R233, R260, R277, R299, R321, R343): the Sloe every one; a host port those of
the tenants it owns, of its own port, and of what it administers; in this Hub cycle and in the next one, where a REASSIGN takes effect. -/
def maySource (s : State) (src : Source) (g : Guard) : Prop :=
  s.passes src g = true ∧ ({ s with bus := { s.bus with moved := [] } }).passes src g = true

/-- A register command answers a next state that differs from the state by the records of its write and by what `P` says. -/
def writes (c : Instr) (s : State) (P : State → State → Prop) : Prop := ∃ u t, exec c s = .next t ∧ recorded s u ∧ P u t

/-- In register `r`, element (i, j), only the fields of the list may differ, and in no other register does any bit. -/
def regOnly (r : Reg) (i j : Nat) (l : List Fld) (u t : State) : Prop :=
  t = { u with regs := t.regs } ∧ (∀ q i' j' k', rkey q i' j' k' ≠ rkey r i j 0 → t.reg q i' j' k' = u.reg q i' j' k') ∧
  ∀ b, (∀ fl ∈ l, b < fl.lsb ∨ fl.lsb + fl.width ≤ b) → (t.reg r i j 0).testBit b = (u.reg r i j 0).testBit b

/-- The event log took one record of kind `k`, argument `a`, at its tail (R295, Table 13.2). -/
def raised (k a : Nat) (s t : State) : Prop :=
  let i := s.getF F.rasLogTail_TAIL % 256
  t.reg .rasLog i 0 0 % 2 ^ 8 = k ∧ t.reg .rasLog i 1 0 = s.now % 2 ^ 64 ∧ t.reg .rasLog i 2 0 = a % 2 ^ 64

/-- A counter field of 16 bits counted one more, or stands at its end (R299). -/
def counted (fl : Fld) (i : Nat) (s t : State) : Prop := t.getF fl i = min (2 ^ fl.width - 1) (s.getF fl i + 1)

/-! ### Exact arithmetic in the spec's words -/

/-- `r` is the exact value `v` narrowed to `n` bits, `out` whether it lay outside the signed range (R63): in range it is `v`;
outside, SAT = 1 gives the nearest extreme and SAT = 0 the low bits. -/
def narrowed (n : Nat) (sat : Bool) (v : Int) (r : Nat) (out : Bool) : Prop :=
  r < 2 ^ n ∧ (out = true ↔ v < -(2 : Int) ^ (n - 1) ∨ (2 : Int) ^ (n - 1) ≤ v) ∧ (out = false → signedOf n r = v) ∧
  (out = true → sat = true → signedOf n r = if v < 0 then -(2 : Int) ^ (n - 1) else (2 : Int) ^ (n - 1) - 1) ∧
  (out = true → sat = false → (2 : Int) ^ n ∣ v - r)

/-- `q` is x ÷ 2^k rounded under FXRND (R63): 0 toward −∞, 1 half toward +∞, 2 half to even, 3 toward zero. -/
def rounded (mode : Nat) (x : Int) (k : Nat) (q : Int) : Prop :=
  (mode = 0 → q * 2 ^ k ≤ x ∧ x < (q + 1) * 2 ^ k) ∧
  (mode = 1 → (2 * q - 1) * 2 ^ k ≤ 2 * x ∧ 2 * x < (2 * q + 1) * 2 ^ k) ∧
  (mode = 2 → (2 * q - 1) * 2 ^ k ≤ 2 * x ∧ 2 * x ≤ (2 * q + 1) * 2 ^ k ∧
    (2 * x = (2 * q - 1) * 2 ^ k ∨ 2 * x = (2 * q + 1) * 2 ^ k → q % 2 = 0)) ∧
  (mode = 3 → (0 ≤ x → q * 2 ^ k ≤ x ∧ x < (q + 1) * 2 ^ k) ∧ (x < 0 → (q - 1) * 2 ^ k < x ∧ x ≤ q * 2 ^ k))

/-- Z and N of a value of `n` bits. -/
def zOf (n r : Nat) : Bool := decide (r % 2 ^ n = 0)
def nOf (n r : Nat) : Bool := decide (r % 2 ^ n ≥ 2 ^ (n - 1))

/-- The two-source operations of the tile. -/
inductive TOp where
  | add | sub | mul | and | or | xor | min | max | minu | maxu | shl | shr | sar
  deriving DecidableEq, Repr

/-- What `a op b` gives at `n` bits: the value `r`, the flags, OV (R79, R80, Tables 4.4, 4.9, 4.10). For a shift `b` is shifted
by `a`. -/
def TOp.gives (o : TOp) (n : Nat) (sat : Bool) (a b r : Nat) (g : Flg) (ov : Bool) : Prop :=
  let sa := signedOf n a
  let sb := signedOf n b
  let k := a % n
  match o with
  | .add => narrowed n sat (sa + sb) r ov ∧ g = ⟨zOf n r, nOf n r, decide (2 ^ n ≤ a % 2 ^ n + b % 2 ^ n), ov⟩
  | .sub => narrowed n sat (sa - sb) r ov ∧ g = ⟨zOf n r, nOf n r, decide (a % 2 ^ n < b % 2 ^ n), ov⟩
  | .mul => narrowed n sat (sa * sb) r ov ∧ g = ⟨zOf n r, nOf n r, false, ov⟩
  | .and => (∀ i, r.testBit i = (a.testBit i && b.testBit i)) ∧ g = ⟨zOf n r, nOf n r, false, false⟩ ∧ ov = false
  | .or => (∀ i, r.testBit i = (a.testBit i || b.testBit i)) ∧ g = ⟨zOf n r, nOf n r, false, false⟩ ∧ ov = false
  | .xor => (∀ i, r.testBit i = (a.testBit i != b.testBit i)) ∧ g = ⟨zOf n r, nOf n r, false, false⟩ ∧ ov = false
  | .min => (r = a ∨ r = b) ∧ signedOf n r = Min.min sa sb ∧ g = ⟨zOf n r, nOf n r, false, false⟩ ∧ ov = false
  | .max => (r = a ∨ r = b) ∧ signedOf n r = Max.max sa sb ∧ g = ⟨zOf n r, nOf n r, false, false⟩ ∧ ov = false
  | .minu => r = Min.min a b ∧ g = ⟨zOf n r, nOf n r, false, false⟩ ∧ ov = false
  | .maxu => r = Max.max a b ∧ g = ⟨zOf n r, nOf n r, false, false⟩ ∧ ov = false
  | .shl => r = b * 2 ^ k % 2 ^ n ∧ g = ⟨zOf n r, nOf n r, decide (k ≠ 0) && b.testBit (n - k), false⟩ ∧ ov = false
  | .shr => r = b % 2 ^ n / 2 ^ k ∧ g = ⟨zOf n r, nOf n r, decide (k ≠ 0) && b.testBit (k - 1), false⟩ ∧ ov = false
  | .sar => r < 2 ^ n ∧ signedOf n r = sb / 2 ^ k ∧ g = ⟨zOf n r, nOf n r, decide (k ≠ 0) && b.testBit (k - 1), false⟩ ∧ ov = false

/-! ### How a tile instruction ends -/

/-- A reservation after one more instruction: it breaks at the 64th (R91). -/
def resvAfter : Resv → Resv
  | .held g n => if 64 ≤ n + 1 then .lost false else .held g (n + 1)
  | r => r

/-- Bit `i` of TS after an instruction: QSTALL 0, OV set where `ov`, the flags where the instruction has them, the rest as it
was (R79, Table 3.8). -/
def tsBit (old : Word) (g : Option Flg) (ov : Bool) (i : Nat) : Bool :=
  if i = 21 then false
  else if i = 4 ∧ ov then true
  else match g, i with
    | some g, 0 => g.z
    | some g, 1 => g.n
    | some g, 2 => g.c
    | some g, 3 => g.v
    | _, i => old.getLsbD i

/-- The instruction ended at PC `pc`: beside what stands in `e` only its core changed, and of that TS, PC, the served GETs and
the reservation's count (R74, R79, R91). -/
def endsAt (x : Site) (e : State) (g : Option Flg) (ov : Bool) (pc : Nat) (t : State) : Prop :=
  coreOnly x e t ∧ ∃ ts : Word, (∀ i, i < 32 → ts.getLsbD i = tsBit (e.core x).ts g ov i) ∧
    t.core x = { e.core x with ts := ts, pc := BitVec.ofNat 16 pc, got := [], ir := none, resv := resvAfter (e.core x).resv }

/-- The operands were served: none stalls on a queue and no GET is to be fetched (R59, R136). -/
def Ev.served (e : Ev) : Prop := e.stall = false ∧ e.get = none

/-- PC after an instruction of `len` bytes. -/
def Ev.pcNext (x : Site) (e : Ev) (len : Nat) : Nat := (e.s.core x).pc.toNat + len

/-- A core took precise fault `fl` at gather element `elem` (R71, R73, Table 3.7): FAULT and FAULT_ELEM are set, the first fault is
recorded, PC stays, the instruction had no other effect on any core, and the sequencer of a tile's field is told (Table 5.7). -/
def faultsAt (x : Site) (s : State) (fl : TFault) (elem : Nat) (t : State) : Prop :=
  let c := s.core x
  (t.core x).fault = true ∧ (t.core x).tsGet 8 4 = elem ∧ (t.core x).waiting = false ∧ (t.core x).qstall = false ∧
  (t.core x).faultInfo = (if c.faultInfo = 0 then
    BitVec.ofNat 64 (fl.cause.code + (if fl.glob then 2 ^ 8 else 0) + (if fl.write then 2 ^ 9 else 0) + fl.addr % 2 ^ 48 * 2 ^ 16)
    else c.faultInfo) ∧
  t.core x = { c with ts := (t.core x).ts, faultInfo := (t.core x).faultInfo, wait := .none, got := [], trace := (t.core x).trace, sampleNext := (t.core x).sampleNext, posts := c.reportPost fl, ir := none } ∧
  (∀ y, y ≠ x → t.core y = s.core y) ∧ keeps [.tiles, .fields, .regs, .ras, .sloe] s t ∧
  ∀ f u, x = .tile f u → ∃ r : EvRec, (t.seq f.val).events = (s.seq f.val).events ++ [r] ∧ r.kind = 2 ∧ r.tile = u.val

/-- The word of `n` bytes at address `a` of a byte memory is `v`. -/
def wordIs (m : Tab Byte) (a n v : Nat) : Prop := v < 2 ^ (8 * n) ∧ ∀ i, i < n → v / 2 ^ (8 * i) % 2 ^ 8 = (Tab.get zeroByte m (a + i)).toNat

/-- Byte memory `m'` is `m` with the `n` low bytes of `v` at address `a`, and nothing else changed. -/
def wordPut (m m' : Tab Byte) (a n v : Nat) : Prop :=
  ∀ b, Tab.get zeroByte m' b = if a ≤ b ∧ b < a + n then BitVec.ofNat 8 (v / 2 ^ (8 * (b - a))) else Tab.get zeroByte m b

/-- Byte memory `m'` is `m` with the bytes `d` from address `a`, and nothing else changed. -/
def bytesPut (m m' : Tab Byte) (a : Nat) (d : List Byte) : Prop :=
  ∀ b, Tab.get zeroByte m' b = if a ≤ b ∧ b < a + d.length then d.getD (b - a) 0 else Tab.get zeroByte m b

/-! ### How a sequencer instruction ends -/

/-- The sequencer may run instruction `i` now: it waits for nothing that bars it, and the instruction is legal (R106, R107, R117). -/
def seqMay (s : State) (f : Nat) (i : SeqInstr) (l : Legal) (bad : Bool) : Prop :=
  s.seqCan f = true ∧ legality s f i l bad = none

/-- The evaluation that an instruction starts with. -/
def seqStart (s : State) (f : Nat) : SEv := { s := s.useMfault f, got := (s.seq f).got }

/-- The instruction ended at `pc`: beside what stands in `e`, its post-increments and register writes are made, in this order,
it waits for nothing, and nothing else changes (R105). -/
def seqEndsAt (f : Nat) (e : SEv) (pc : Nat) (t : State) : Prop :=
  t.spc f = pc % 2 ^ 24 ∧
  t.seq f = { ((e.s.seq f).applyIncs e.incs).applyWr e.wr with wait := .none, got := [] } ∧
  (∀ g, g ≠ f → t.field g = e.s.field g) ∧ { t.field f with seq := e.s.seq f } = e.s.field f ∧
  regsKept [.seqPc] e.s t ∧ keeps [.fields, .regs] e.s t

/-- The sequencer took precise fault `fl` (R117, Table 5.10): `SEQ_FAULT_INFO` records it; in M mode the sequencer halts with pc on the
instruction; in T mode it goes to the microcode's event entry (a free value, assumption 17) with pc kept in `SEQ_TPC`. -/
def seqFaultsAt (f : Nat) (s : State) (fl : TFault) (t : State) : Prop :=
  t.reg .seqFaultInfo f 0 0 = fl.cause.code + (if s.tmode f then 2 ^ 8 else 0) + (if fl.glob then 2 ^ 9 else 0)
    + (if fl.write then 2 ^ 10 else 0) + fl.addr % 2 ^ 48 * 2 ^ 16 ∧
  (s.tmode f = false → t.flag F.seqStat_HALTED f = true ∧ t.spc f = s.spc f) ∧
  (s.tmode f = true → t.tmode f = false ∧ t.getF F.seqTpc_PC f = s.spc f ∧ t.spc f = Config.eventEntry.toNat) ∧
  (t.seq f).wait = .none ∧ (t.seq f).p = (s.seq f).p

/-- The sequencer waits for `w` inside its instruction of `len` bytes, whose operands stand evaluated in `e`: pc stays, and its
post-increments and the pc after it are kept until the wait ends (R105). -/
def seqWaitsAt (f : Nat) (e : SEv) (len : Nat) (w : SWait) (t : State) : Prop :=
  t.spc f = e.s.spc f ∧ t.seq f = { e.s.seq f with wait := w, resume := (e.s.spc f + len) % 2 ^ 24, incs := e.incs, got := [] }

/-- The sequencer's wait ended and its instruction completed (R105). -/
def seqResumed (f : Nat) (s t : State) : Prop :=
  t.spc f = (s.seq f).resume % 2 ^ 24 ∧
  t.seq f = { (s.seq f).applyIncs (s.seq f).incs with wait := .none, incs := [], twait := .none }

/-- pc after an instruction: where it jumps, or past its bytes. -/
def seqNext (s : State) (f : Nat) (e : SEv) (i : SeqInstr) : Nat := e.jump.getD (s.spc f + i.len)

/-! ### Decimal results in the spec's words -/

/-- `r` is a D16 word of sign nibble `nib` and fifteen decimal digits of value `m` (R65). -/
def d16Is (r nib m : Nat) : Prop := d16Nib r = nib ∧ d16DigitsOk r = true ∧ bcdVal 15 r = m

/-- `q` is num ÷ den rounded under a rounding code of R85: 0 half to even, 1 half away from zero, 2 half toward zero, 3 toward zero,
4 away from zero, 5 toward −∞, 6 toward +∞. -/
def decRounded (rnd : Nat) (num : Int) (den : Nat) (q : Int) : Prop :=
  let m : Int := |num|
  let k : Int := |q|
  (q < 0 → num < 0) ∧ (0 < q → 0 < num) ∧
  (rnd = 0 → (2 * k - 1) * den ≤ 2 * m ∧ 2 * m ≤ (2 * k + 1) * den ∧
    (2 * m = (2 * k - 1) * den ∨ 2 * m = (2 * k + 1) * den → k % 2 = 0)) ∧
  (rnd = 1 → (2 * k - 1) * den ≤ 2 * m ∧ 2 * m < (2 * k + 1) * den) ∧
  (rnd = 2 → (2 * k - 1) * den < 2 * m ∧ 2 * m ≤ (2 * k + 1) * den) ∧
  (rnd = 3 → k * den ≤ m ∧ m < (k + 1) * den) ∧
  (rnd = 4 → (k - 1) * den < m ∧ m ≤ k * den) ∧
  (rnd = 5 → q * den ≤ num ∧ num < (q + 1) * den) ∧
  (rnd = 6 → (q - 1) * den < num ∧ num ≤ q * den)

/-- What an exact result num ÷ den gives at the destination scale (R66 to R68, R86): the rounded value, its sign nibble 0xD below
zero, else 0xF when every D16 source carries it, else 0xC; beyond fifteen digits the largest magnitude with V and a fault. -/
def decGives (srcF : Bool) (rnd : Nat) (num : Int) (den : Nat) (r : Nat) (g : Flg) (fault : Bool) : Prop :=
  ∃ q : Int, decRounded rnd num den q ∧ fault = decide (10 ^ 15 ≤ q.natAbs) ∧
    (fault = false → d16Is r (if q < 0 then 0xD else if srcF then 0xF else 0xC) q.natAbs) ∧
    (fault = true → d16Is r (if num < 0 then 0xD else if srcF then 0xF else 0xC) (10 ^ 15 - 1)) ∧
    g = ⟨decide (bcdVal 15 r = 0), decide (d16Nib r = 0xD), false, fault⟩

/-- What an invalid source gives (R68): the largest magnitude under the first valid sign nibble among the sources, V, a fault. -/
def decSpoiled (srcs : List Nat) (r : Nat) (g : Flg) (fault : Bool) : Prop :=
  d16Is r (((srcs.map d16Nib).find? fun n => n == 0xC || n == 0xD || n == 0xF).getD 0xC) (10 ^ 15 - 1) ∧ fault = true ∧
  g = ⟨false, decide (d16Nib r = 0xD), false, true⟩

end Sys2Proof.Machine
end

