-- ==== Sys2Proof/Certificates/Slice0/Obligations.lean ====
section
/-! DEFINITION. The statements for the provers: what the commands of the block do, family by family of the command table, and what
holds of the block as a whole. -/

open Sys2Proof Sys2Proof.Machine

/-- R78 to R80, Tables 4.6, 4.9, 4.10: ADD, SUB, AND, OR and XOR in C2 (D op A) and T3 (A op B), MUL (A × B), and MIN, MAX, MINU, MAXU,
SHL, SHR, SAR of T2 (D shifted by A mod W): with operands served, the instruction writes the value its entry gives, sets its flag class
and OV, moves PC past itself, and of the rest of the block changes only what its operands name. -/
def Obligations.TileTwoSourceResults : Prop :=
  ∀ (x : Site) (s : State), s.canIssue x = true →
    (∀ p ∈ ([(Instr.tAdd, TOp.add), (.tSub, .sub), (.tAnd, .and), (.tOr, .or), (.tXor, .xor)] :
        List ((Site → Form3 → Instr) × TOp)),
      (∀ d a va e1 vd pl e2, readOp x .w64 (c5 a) 0 { s := s } = .ok (va, e1) →
        readDst x .w64 (c5 d) 0 e1 = .ok ((vd, pl), e2) →
        ∃ r g ov, p.2.gives 64 (s.core x).sat vd va r g ov ∧ ∀ e3, writePlace x .w64 e2 pl r = .ok e3 → e3.served →
          ∃ t, exec (p.1 x (.c2 d a)) s = .next t ∧ endsAt x e3.s (some g) ov (e3.pcNext x 2) t) ∧
      (∀ c a b d va e1 vb e2, readOp x (AccW.ofCode c) a.toNat 0 { s := s } = .ok (va, e1) →
        readOp x (AccW.ofCode c) b.toNat 0 e1 = .ok (vb, e2) →
        ∃ r g ov, p.2.gives (AccW.bits (AccW.ofCode c)) (s.core x).sat va vb r g ov ∧
          ∀ e3, writeOp x (AccW.ofCode c) d.toNat 0 e2 r = .ok e3 → e3.served →
            ∃ t, exec (p.1 x (.t3 c a b d)) s = .next t ∧ endsAt x e3.s (some g) ov (e3.pcNext x 4) t)) ∧
    (∀ c a b d va e1 vb e2, readOp x (AccW.ofCode c) a.toNat 0 { s := s } = .ok (va, e1) →
      readOp x (AccW.ofCode c) b.toNat 0 e1 = .ok (vb, e2) →
      ∃ r g ov, TOp.mul.gives (AccW.bits (AccW.ofCode c)) (s.core x).sat va vb r g ov ∧
        ∀ e3, writeOp x (AccW.ofCode c) d.toNat 0 e2 r = .ok e3 → e3.served →
          ∃ t, exec (.tMul x c a b d) s = .next t ∧ endsAt x e3.s (some g) ov (e3.pcNext x 4) t) ∧
    (∀ p ∈ ([(Instr.tMin, TOp.min), (.tMax, .max), (.tMinu, .minu), (.tMaxu, .maxu), (.tShl, .shl), (.tShr, .shr), (.tSar, .sar)] :
        List ((Site → T2Form → Instr) × TOp)),
      ∀ (o : T2Form) va e1 vd pl e2, readOp x (AccW.ofCode o.w) o.a.toNat 0 { s := s } = .ok (va, e1) →
        readDst x (AccW.ofCode o.w) o.d.toNat 0 e1 = .ok ((vd, pl), e2) →
        ∃ r g ov, p.2.gives (AccW.bits (AccW.ofCode o.w)) (s.core x).sat va vd r g ov ∧
          ∀ e3, writePlace x (AccW.ofCode o.w) e2 pl r = .ok e3 → e3.served →
            ∃ t, exec (p.1 x o) s = .next t ∧ endsAt x e3.s (some g) ov (e3.pcNext x 4) t)

/-- R80, R84, Tables 4.6, 4.10: MOV (C2, T2) and MX copy A to D and set no flag; NEG, NOT, ABS, POPC and CLZ write the value their
entries give with its flags, reading A alone. R78, R80, Tables 4.6, 4.10: CMP sets the flags of D − A and TST those of D AND A; neither
writes anything or sets OV. -/
def Obligations.TileMovesAndCompares : Prop :=
  (
  ∀ (x : Site) (s : State), s.canIssue x = true →
    (∀ d a va e1 e2, readOp x .w64 (c5 a) 0 { s := s } = .ok (va, e1) → writeOp x .w64 (c5 d) 0 e1 va = .ok e2 → e2.served →
      ∃ t, exec (.tMov x (.c2 d a)) s = .next t ∧ endsAt x e2.s none false (e2.pcNext x 2) t) ∧
    (∀ c a d va e1 e2, readOp x (AccW.ofCode c) a.toNat 0 { s := s } = .ok (va, e1) →
      writeOp x (AccW.ofCode c) d.toNat 0 e1 va = .ok e2 → e2.served →
      ∃ t, exec (.tMov x (.t2 c a d)) s = .next t ∧ endsAt x e2.s none false (e2.pcNext x 4) t) ∧
    (∀ xa xd a d va e1 e2, readOp x .w64 a.toNat xa.toNat { s := s } = .ok (va, e1) →
      writeOp x .w64 d.toNat xd.toNat e1 va = .ok e2 → e2.served →
      ∃ t, exec (.tMovx x xa xd a d) s = .next t ∧ endsAt x e2.s none false (e2.pcNext x 4) t) ∧
    (∀ (o : T2Form) va e1, readOp x (AccW.ofCode o.w) o.a.toNat 0 { s := s } = .ok (va, e1) →
      let n := AccW.bits (AccW.ofCode o.w)
      let sat := (s.core x).sat
      let done (i : Instr) (r : Nat) (g : Flg) (ov : Bool) : Prop :=
        ∀ e2, writeOp x (AccW.ofCode o.w) o.d.toNat 0 e1 r = .ok e2 → e2.served →
          ∃ t, exec i s = .next t ∧ endsAt x e2.s (some g) ov (e2.pcNext x 4) t
      (∃ r ov, narrowed n sat (-signedOf n va) r ov ∧ done (.tNeg x o) r ⟨zOf n r, nOf n r, decide (va % 2 ^ n ≠ 0), ov⟩ ov) ∧
      (∃ r, (∀ i, i < n → r.testBit i = !va.testBit i) ∧ done (.tNot x o) r ⟨zOf n r, nOf n r, false, false⟩ false) ∧
      (∃ r ov, narrowed n sat |signedOf n va| r ov ∧ done (.tAbs x o) r ⟨zOf n r, nOf n r, false, ov⟩ ov) ∧
      done (.tPopc x o) ((List.range n).filter va.testBit).length
        ⟨zOf n ((List.range n).filter va.testBit).length, nOf n ((List.range n).filter va.testBit).length, false, false⟩ false ∧
      (∃ r, r ≤ n ∧ (∀ i, n - r ≤ i → i < n → va.testBit i = false) ∧ (r < n → va.testBit (n - 1 - r) = true) ∧
        done (.tClz x o) r ⟨zOf n r, nOf n r, false, false⟩ false))
  ) ∧ (
  ∀ (x : Site) (s : State) (o : Form2) va e1 vd e2, s.canIssue x = true →
    readOp x (form2 o).1 (form2 o).2.1 0 { s := s } = .ok (va, e1) → readOp x (form2 o).1 (form2 o).2.2.1 0 e1 = .ok (vd, e2) →
    e2.served →
    let n := AccW.bits (form2 o).1
    (∃ (r : Nat) (t : State), r < 2 ^ n ∧ (2 : Int) ^ n ∣ signedOf n vd - signedOf n va - r ∧ exec (.tCmp x o) s = .next t ∧
      endsAt x e2.s (some ⟨zOf n r, nOf n r, decide (vd % 2 ^ n < va % 2 ^ n),
        decide (signedOf n vd - signedOf n va < -(2 : Int) ^ (n - 1) ∨ (2 : Int) ^ (n - 1) ≤ signedOf n vd - signedOf n va)⟩)
        false (e2.pcNext x (form2 o).2.2.2) t) ∧
    (∃ t, exec (.tTst x o) s = .next t ∧
      endsAt x e2.s (some ⟨zOf n (vd &&& va), nOf n (vd &&& va), false, false⟩) false (e2.pcNext x (form2 o).2.2.2) t)
  )

/-- R79, Table 4.7: LI, LSH, ADDI, CMPI, SHLI, SHRI and RR on the base registers: bk modulo 2^32, flags taken on 32 bits, nothing else
but PC. Tables 4.7, 4.8, R51, R79, R120: LDB loads bk from the 32-bit word at slot × 8 and STB stores bk there at 64 bits; NOP does
nothing; ACLR clears acc0, acc1 or both; ARM and DISARM set and clear ARMED of a slot; SETRND and SETSAT write FXRND and SAT. No flag
changes, and the core alone is touched. -/
def Obligations.BaseRegisterInstructions : Prop :=
  (
  ∀ (x : Site) (s : State) (k : Fin 8) (imm : Byte), s.canIssue x = true →
    let c := s.core x
    let b := c.breg k.val
    let m := signedOf 8 imm.toNat
    let j := c.breg (bitsOf imm.toNat 0 3)
    let sb := signedOf 32 b
    let sj := signedOf 32 j
    let ovf (v : Int) : Bool := decide (v < -(2 : Int) ^ 31 ∨ (2 : Int) ^ 31 ≤ v)
    let ends (i : Instr) (v : Option Nat) (g : Option Flg) : Prop :=
      ∃ t, exec i s = .next t ∧
        endsAt x (match v with | some v => s.setCore x (c.setB k.val v) | none => s) g false (c.pc.toNat + 2) t
    ends (.tLi x k imm) (some (m % 2 ^ 32).toNat) none ∧
    ends (.tLsh x k imm) (some (b * 2 ^ 8 ||| imm.toNat)) none ∧
    (∃ r : Nat, r < 2 ^ 32 ∧ (2 : Int) ^ 32 ∣ sb + m - r ∧
      ends (.tAddi x k imm) (some r) (some ⟨zOf 32 r, nOf 32 r, decide (2 ^ 32 ≤ b + (m % 2 ^ 32).toNat), ovf (sb + m)⟩)) ∧
    (∃ r : Nat, r < 2 ^ 32 ∧ (2 : Int) ^ 32 ∣ sb - m - r ∧
      ends (.tCmpi x k imm) none (some ⟨zOf 32 r, nOf 32 r, decide (b < (m % 2 ^ 32).toNat), ovf (sb - m)⟩)) ∧
    (imm.toNat < 32 → ends (.tShli x k imm) (some (b * 2 ^ imm.toNat)) none ∧
      ends (.tShri x k imm) (some (b / 2 ^ imm.toNat)) none) ∧
    (bitsOf imm.toNat 3 2 = 0 →
      (bitsOf imm.toNat 5 3 = 0 → ends (.tRr x k imm) (some j) none) ∧
      (bitsOf imm.toNat 5 3 = 1 → ∃ r : Nat, r < 2 ^ 32 ∧ (2 : Int) ^ 32 ∣ sb + sj - r ∧
        ends (.tRr x k imm) (some r) (some ⟨zOf 32 r, nOf 32 r, decide (2 ^ 32 ≤ b + j), ovf (sb + sj)⟩)) ∧
      (bitsOf imm.toNat 5 3 = 2 ∨ bitsOf imm.toNat 5 3 = 6 → ∃ r : Nat, r < 2 ^ 32 ∧ (2 : Int) ^ 32 ∣ sb - sj - r ∧
        ends (.tRr x k imm) (if bitsOf imm.toNat 5 3 = 2 then some r else none)
          (some ⟨zOf 32 r, nOf 32 r, decide (b < j), ovf (sb - sj)⟩)) ∧
      (bitsOf imm.toNat 5 3 = 3 → ends (.tRr x k imm) (some (b &&& j)) (some ⟨zOf 32 (b &&& j), nOf 32 (b &&& j), false, false⟩)) ∧
      (bitsOf imm.toNat 5 3 = 4 → ends (.tRr x k imm) (some (b ||| j)) (some ⟨zOf 32 (b ||| j), nOf 32 (b ||| j), false, false⟩)) ∧
      (bitsOf imm.toNat 5 3 = 5 → ends (.tRr x k imm) (some (b ^^^ j)) (some ⟨zOf 32 (b ^^^ j), nOf 32 (b ^^^ j), false, false⟩)))
  ) ∧ (
  ∀ (x : Site) (s : State), s.canIssue x = true →
    (∀ (k : Fin 8) (slot : BitVec 7) pl v e1, locate x .w32 false (slot.toNat * 8) = .ok pl →
      readPlace x .w32 { s := s } pl = .ok (v, e1) → e1.served →
      ∃ t, exec (.tLdb x k slot) s = .next t ∧
        endsAt x (e1.s.setCore x ((e1.s.core x).setB k.val v)) none false (e1.pcNext x 2) t) ∧
    (∀ (k : Fin 8) (slot : BitVec 7) pl e1, locate x .w64 true (slot.toNat * 8) = .ok pl →
      writePlace x .w64 { s := s } pl ((s.core x).breg k.val) = .ok e1 → e1.served →
      ∃ t, exec (.tStb x k slot) s = .next t ∧ endsAt x e1.s none false (e1.pcNext x 2) t) ∧
    (let ends (i : Instr) (c : Tile) : Prop :=
      ∃ t, exec i s = .next t ∧ endsAt x (s.setCore x c) none false ((s.core x).pc.toNat + 2) t
     let c := s.core x
     ends (.tNop x 0) c ∧
     (∀ imm : Byte, imm.toNat ≤ 3 → ends (.tSetrnd x imm) { c with mode := BitVec.ofNat 64 (putBits c.mode.toNat 0 2 imm.toNat) }) ∧
     (∀ imm : Byte, imm.toNat ≤ 1 → ends (.tSetsat x imm) { c with mode := BitVec.ofNat 64 (putBits c.mode.toNat 2 1 imm.toNat) }) ∧
     (x ≠ .sloe →
       ends (.tAclr x 0) { c with acc0 := 0 } ∧ ends (.tAclr x 1) { c with acc1 := 0 } ∧
       ends (.tAclr x 2) { c with acc0 := 0, acc1 := 0 } ∧
       ∀ imm : Byte, imm.toNat ≤ 7 →
         ends (.tArm x imm) { c with armed := BitVec.ofNat 8 (putBits c.armed.toNat imm.toNat 1 1) } ∧
         ends (.tDisarm x imm) { c with armed := BitVec.ofNat 8 (putBits c.armed.toNat imm.toNat 1 0) }))
  )

/-- Table 4.5: the conditions of J16, BR and the sequencer's branch. R84, Tables 4.5, 4.8: J16 and BR transfer when their condition
holds, J16 to PC + 2 × off9 and BR to PC + off16 modulo 2^16, BR with L = 1 leaving PC + 4 in bk; not taken they only move PC past
themselves; JR goes to bk[15:0], and an odd target is a precise fault MISALIGNED at that target with PC on the JR. -/
def Obligations.TileControlTransfer : Prop :=
  (
  ∀ g : Flg, (List.range 16).map (condHolds g) =
    [some g.z, some (!g.z), some (g.n != g.v), some (g.n == g.v), some (g.z || (g.n != g.v)), some (!g.z && (g.n == g.v)),
      some g.c, some (!g.c), some (g.c || g.z), some (!g.c && !g.z), some g.n, some (!g.n), some g.v, some (!g.v), some true, none]
  ) ∧ (
  ∀ (x : Site) (s : State), s.canIssue x = true →
    let c := s.core x
    let pc := c.pc.toNat
    (∀ (cond : BitVec 4) (off : BitVec 9) b, condHolds c.flg cond.toNat = some b →
      ∃ t, exec (.tJ16 x cond off) s = .next t ∧
        endsAt x s none false (if b then (((pc : Int) + 2 * signedOf 9 off.toNat) % 2 ^ 16).toNat else pc + 2) t) ∧
    (∀ (cond : BitVec 4) (l : Bool) (k : Fin 8) (off : Half) b, condHolds c.flg cond.toNat = some b → off.toNat % 2 = 0 →
      ∃ t, exec (.tBr x cond l k off) s = .next t ∧
        endsAt x (if b ∧ l then s.setCore x (c.setB k.val ((pc + 4) % 2 ^ 16)) else s) none false
          (if b then (((pc : Int) + signedOf 16 off.toNat) % 2 ^ 16).toNat else pc + 4) t) ∧
    (∀ (imm : Byte), imm.toNat ≤ 7 →
      let tgt := c.breg imm.toNat % 2 ^ 16
      (tgt % 2 = 0 → ∃ t, exec (.tJr x imm) s = .next t ∧ endsAt x s none false tgt t) ∧
      (tgt % 2 = 1 → ∃ t, exec (.tJr x imm) s = .next t ∧ (t.core x).pc = c.pc ∧ (t.core x).fault = true ∧
        (c.faultInfo = 0 → (t.core x).faultInfo = BitVec.ofNat 64 (4 + tgt * 2 ^ 16))))
  )

/-- R64, R82, R83, Tables 4.6, 4.11: MAC8, MACQ and MAC add to acc0 or acc1 the sum of the products of eight signed bytes, or of two
Q0.15 values read at 32 bits (MAC with CLR the sum alone); RDACC writes an accumulator, moved from accumulator scale to the format and
narrowed; WRACC moves a value to accumulator scale. An accumulator saturates at 40 bits and then sets OV. R62, R63, R80, R82, Tables
3.5, 4.11: MULQ multiplies in the format of QSEL and W; NARROW and WIDEN move a value between W and 64 bits of the same format. The
exact value is rounded under FXRND, narrowed under SAT, and sets class M. -/
def Obligations.TileFixedPoint : Prop :=
  (
  ∀ (f : FieldNo) (u : TileNo) (s : State), let x : Site := .tile f u
    s.canIssue x = true →
    let lanes (w k a b : Nat) : Int := ((List.range k).map fun i => signedOf w (a / 2 ^ (w * i)) * signedOf w (b / 2 ^ (w * i))).sum
    -- `e` with accumulator `one` holding `v` saturated, and OV set when it did not fit
    let held (e : Ev) (one : Bool) (v : Int) (i : Instr) (len : Nat) : Prop :=
      ∃ r ov t, narrowed 40 true v r ov ∧ exec i s = .next t ∧
        endsAt x (e.s.setCore x (if one then { e.s.core x with acc1 := BitVec.ofNat 40 r } else { e.s.core x with acc0 := BitVec.ofNat 40 r }))
          none ov (e.pcNext x len) t
    (∀ one d a va e1 vd e2, readOp x .w64 (c5 a) 0 { s := s } = .ok (va, e1) → readOp x .w64 (c5 d) 0 e1 = .ok (vd, e2) → e2.served →
      held e2 one ((e2.s.core x).acc one + lanes 8 8 va vd) (.tMac8 x one d a) 2) ∧
    (∀ one d a va e1 vd e2, readOp x .w32 (c5 a) 0 { s := s } = .ok (va, e1) → readOp x .w32 (c5 d) 0 e1 = .ok (vd, e2) → e2.served →
      held e2 one ((e2.s.core x).acc one + lanes 16 2 va vd) (.tMacq x one d a) 2) ∧
    (∀ one (fmt : Bool) clr (a b : Byte) va e1 vb e2, readOp x (if fmt then .w32 else .w64) a.toNat 0 { s := s } = .ok (va, e1) →
      readOp x (if fmt then .w32 else .w64) b.toNat 0 e1 = .ok (vb, e2) → e2.served →
      held e2 one ((if clr then 0 else (e2.s.core x).acc one) + if fmt then lanes 16 2 va vb else lanes 8 8 va vb)
        (.tMac x one fmt clr 0 a b) 4) ∧
    (∀ one (o : TQForm) va e1, o.d = 0 → o.qsel.toNat ≤ 2 → readOp x (AccW.ofCode o.w) o.a.toNat 0 { s := s } = .ok (va, e1) → e1.served →
      ∃ q : Int, (let k : Int := accFrac o.qsel.toNat - fracBits o.qsel.toNat (AccW.ofCode o.w)
          if 0 ≤ k then q = sx (AccW.ofCode o.w) va * 2 ^ k.toNat
          else rounded (e1.s.core x).fxrnd (sx (AccW.ofCode o.w) va) (-k).toNat q) ∧ held e1 one q (.tWracc x one o) 4) ∧
    (∀ one (o : TQForm), o.a = 0 → o.qsel.toNat ≤ 2 → ∃ (q : Int) (r : Nat) (ov : Bool),
      (let k : Int := fracBits o.qsel.toNat (AccW.ofCode o.w) - accFrac o.qsel.toNat
        if 0 ≤ k then q = (s.core x).acc one * 2 ^ k.toNat else rounded (s.core x).fxrnd ((s.core x).acc one) (-k).toNat q) ∧
      narrowed (AccW.bits (AccW.ofCode o.w)) (s.core x).sat q r ov ∧
      ∀ e1, writeOp x (AccW.ofCode o.w) o.d.toNat 0 { s := s } r = .ok e1 → e1.served →
        ∃ t, exec (.tRdacc x one o) s = .next t ∧
          endsAt x e1.s (some ⟨zOf (AccW.bits (AccW.ofCode o.w)) r, nOf (AccW.bits (AccW.ofCode o.w)) r, false, ov⟩) ov (e1.pcNext x 4) t)
  ) ∧ (
  ∀ (x : Site) (s : State) (o : TQForm), s.canIssue x = true → o.qsel.toNat ≤ 2 →
    let w := AccW.ofCode o.w
    let frac (v : AccW) : Nat := if o.qsel = 0 then 0 else if o.qsel = 1 then AccW.bits v - 1 else AccW.bits v / 2
    let c := s.core x
    (∀ va e1 vd pl e2, readOp x w o.a.toNat 0 { s := s } = .ok (va, e1) → readDst x w o.d.toNat 0 e1 = .ok ((vd, pl), e2) →
      ∃ (q : Int) (r : Nat) (ov : Bool), rounded c.fxrnd (sx w va * sx w vd) (frac w) q ∧ narrowed (AccW.bits w) c.sat q r ov ∧
        ∀ e3, writePlace x w e2 pl r = .ok e3 → e3.served → ∃ t, exec (.tMulq x o) s = .next t ∧
          endsAt x e3.s (some ⟨zOf (AccW.bits w) r, nOf (AccW.bits w) r, false, ov⟩) ov (e3.pcNext x 4) t) ∧
    (∀ va e1, readOp x .w64 o.a.toNat 0 { s := s } = .ok (va, e1) →
      ∃ (q : Int) (r : Nat) (ov : Bool), rounded c.fxrnd (sx .w64 va) (frac .w64 - frac w) q ∧ narrowed (AccW.bits w) c.sat q r ov ∧
        ∀ e2, writeOp x w o.d.toNat 0 e1 r = .ok e2 → e2.served → ∃ t, exec (.tNarrow x o) s = .next t ∧
          endsAt x e2.s (some ⟨zOf (AccW.bits w) r, nOf (AccW.bits w) r, false, ov⟩) ov (e2.pcNext x 4) t) ∧
    (∀ va e1, readOp x w o.a.toNat 0 { s := s } = .ok (va, e1) →
      ∃ (r : Nat), narrowed 64 c.sat (sx w va * 2 ^ (frac .w64 - frac w)) r false ∧
        ∀ e2, writeOp x .w64 o.d.toNat 0 e1 r = .ok e2 → e2.served → ∃ t, exec (.tWiden x o) s = .next t ∧
          endsAt x e2.s (some ⟨zOf 64 r, nOf 64 r, false, false⟩) false (e2.pcNext x 4) t)
  )

/-- R87 to R89: a repeat with REPEAT = 0 loads CNT from bk[15:0], SPTR from bi, DPTR from bj and STEP from its operand in elements
(RGATH: CNT = 16 and STEP in 8-byte units) and sets REPEAT, its elements following; with CNT = 0 it completes at once, CMP with Z = 1
and SCAN with Z = 0, N, C and V 0. R88, R89: an element of MOVE or FILL copies one element from SPTR to DPTR; one of CMP or SCAN
compares them, the flags those of D − S; then CNT counts down, SPTR advances (MOVE, CMP) and DPTR advances by STEP, but no pointer into
a window (the Sloe has registers there, which no pointer stops at); the last element, or CMP finding a difference, or SCAN finding equality, ends the instruction: REPEAT 0 and PC past it. -/
def Obligations.RepeatInstructions : Prop :=
  (
  ∀ (s : State) (o : RepForm),
    (∀ x, s.canIssue x = true → (s.core x).repeat_ = false →
      let c := s.core x
      let loaded : Tile := { c with cnt := BitVec.ofNat 16 (c.breg o.k.val), sptr := BitVec.ofNat 16 (c.breg o.i.val), dptr := BitVec.ofNat 16 (c.breg o.j.val), step := BitVec.ofInt 16 (signedOf 10 o.step.toNat * (AccW.ofCode o.w).bytes) }
      ∀ p ∈ ([(Instr.tRepMove, none), (.tRepFill, none), (.tRepCmp, some ⟨true, false, false, false⟩),
          (.tRepScan, some ⟨false, false, false, false⟩)] : List ((Site → RepForm → Instr) × Option Flg)),
        (c.breg o.k.val % 2 ^ 16 ≠ 0 → ∃ t, exec (p.1 x o) s = .next t ∧ coreOnly x s t ∧ (t.core x).repeat_ = true ∧
          t.core x = { loaded with ts := (t.core x).ts } ∧ ∀ i, i ≠ 7 → (t.core x).ts.getLsbD i = c.ts.getLsbD i) ∧
        (c.breg o.k.val % 2 ^ 16 = 0 → ∃ t, exec (p.1 x o) s = .next t ∧
          endsAt x (s.setCore x loaded) p.2 false (c.pc.toNat + 4) t)) ∧
    (∀ (f : FieldNo) (u : TileNo), s.canIssue (.tile f u) = true → (s.tile f.val u.val).repeat_ = false → o.w = 3 →
      1 ≤ signedOf 10 o.step.toNat → signedOf 10 o.step.toNat ≤ 256 →
      let c := s.tile f.val u.val
      ∃ t, exec (.tRgath (.tile f u) o) s = .next t ∧ coreOnly (.tile f u) s t ∧ (t.tile f.val u.val).repeat_ = true ∧
        t.tile f.val u.val = { c with ts := (t.tile f.val u.val).ts, cnt := 16, sptr := BitVec.ofNat 16 (c.breg o.i.val), dptr := BitVec.ofNat 16 (c.breg o.j.val), step := BitVec.ofInt 16 (8 * signedOf 10 o.step.toNat) })
  ) ∧ (
  ∀ (x : Site) (s : State) (o : RepForm) ps a e1, s.canIssue x = true → (s.core x).repeat_ = true → (s.core x).cnt ≠ 0 →
    let w := AccW.ofCode o.w
    locate x w false (s.core x).sptr.toNat = .ok ps → readPlace x w { s := s } ps = .ok (a, e1) →
    let next (rop : BitVec 3) (d : Tile) : Tile :=
      { d with cnt := d.cnt - 1, got := [], sptr := if rop = 0 ∨ rop = 2 then advance x d.sptr w.bytes else d.sptr, dptr := advance x d.dptr d.step.toNat }
    let goesOn (rop : BitVec 3) (e : State) (t : State) : Prop :=
      coreOnly x e t ∧ t.core x = { next rop (e.core x) with ts := (t.core x).ts }
    let leaves (e : State) (t : State) : Prop :=
      coreOnly x e t ∧ (t.core x).repeat_ = false ∧ (t.core x).pc = BitVec.ofNat 16 ((e.core x).pc.toNat + 4)
    (∀ rop ∈ ([0, 1] : List (BitVec 3)), (s.core x).running rop o = true → ∀ pd e2, locate x w true (s.core x).dptr.toNat = .ok pd →
      writePlace x w e1 pd a = .ok e2 → e2.served →
      ((e2.s.core x).cnt ≠ 1 → ∃ t, exec (.repeatElement x rop o) s = .next t ∧ goesOn rop e2.s t) ∧
      ((e2.s.core x).cnt = 1 → ∃ t, exec (.repeatElement x rop o) s = .next t ∧ leaves e2.s t ∧ (t.core x).cnt = 0)) ∧
    (∀ rop ∈ ([2, 3] : List (BitVec 3)), (s.core x).running rop o = true → ∀ pd d e2, locate x w false (s.core x).dptr.toNat = .ok pd →
      readPlace x w e1 pd = .ok (d, e2) → e2.served →
      let same : Bool := decide (d % 2 ^ AccW.bits w = a % 2 ^ AccW.bits w)
      let stop : Bool := if rop = 2 then !same else same
      (stop = true → ∃ t, exec (.repeatElement x rop o) s = .next t ∧ leaves e2.s t ∧ (t.core x).flg.z = same ∧
        (t.core x).flg.c = decide (d % 2 ^ AccW.bits w < a % 2 ^ AccW.bits w) ∧ (t.core x).cnt = (e2.s.core x).cnt) ∧
      (stop = false → (e2.s.core x).cnt ≠ 1 → ∃ t, exec (.repeatElement x rop o) s = .next t ∧ goesOn rop e2.s t ∧
        (t.core x).flg.z = same) ∧
      (stop = false → (e2.s.core x).cnt = 1 → ∃ t, exec (.repeatElement x rop o) s = .next t ∧ leaves e2.s t ∧
        (t.core x).flg = ⟨same, false, false, false⟩))
  )

/-- R119 to R122, R137, Table 4.8: an idle tile fires its lowest-numbered armed slot whose needs hold: FIRED 1, SLOT, PC at ENTRY; FIRE
loads the 8-byte descriptor into its slot and arms it; DONE, with every posted store acknowledged, clears FIRED. R188, R189: SSET and
SCLR, with every posted store acknowledged, set and clear signal sn; SWAIT completes when sn = 1 and otherwise waits with WAIT = 1, PC
on it; a wake that came while it waited completes it. -/
def Obligations.FiringAndSignals : Prop :=
  (
  ∀ (f : FieldNo) (u : TileNo) (s : State), let x : Site := .tile f u
    let c := s.tile f.val u.val
    (∀ i, i < 8 → c.idle = true → (s.field f.val).freezing = false → s.released = true →
      c.isArmed i = true → s.needsHold f.val u.val i = true →
      (∀ j, j < i → ¬(c.isArmed j = true ∧ s.needsHold f.val u.val j = true)) →
      ∃ t, exec (.kernelFire f u) s = .next t ∧ (t.tile f.val u.val).fired = true ∧ (t.tile f.val u.val).slot = i ∧
        (t.tile f.val u.val).pc = BitVec.ofNat 16 (bitsOf (c.descr i) 0 16) ∧ (t.field f.val).dlSince = s.now ∧
        (t.tile f.val u.val).sram = c.sram ∧ (t.tile f.val u.val).b = c.b ∧
        (∀ y, y ≠ x → t.core y = s.core y) ∧ keeps [.tiles, .fields, .regs, .ras] s t) ∧
    (∀ (o : SYForm) d e1, s.canIssue x = true → o.arg.toNat < 8 → o.imm.toNat % 8 = 0 → o.imm.toNat < 0xC000 →
      readPlace x .w64 { s := s } (.sram o.imm.toNat) = .ok (d, e1) → checkDesc u.val d = none → e1.served →
      ∃ t, exec (.tFire x o) s = .next t ∧
        endsAt x (e1.s.setCore x (((e1.s.core x).setDesc o.arg.toNat d).setArmed o.arg.toNat true)) none false (e1.pcNext x 4) t) ∧
    (s.canIssue x = true → c.posts = [] →
      ∃ t, exec (.tDone x 0) s = .next t ∧ (t.tile f.val u.val).fired = false ∧
        (t.tile f.val u.val).pc = BitVec.ofNat 16 (c.pc.toNat + 2) ∧ (t.tile f.val u.val).sram = c.sram ∧
        (t.tile f.val u.val).b = c.b ∧ (∀ y, y ≠ x → t.core y = s.core y) ∧ keeps [.tiles, .regs] s t)
  ) ∧ (
  ∀ (f : FieldNo) (u : TileNo) (s : State) (imm : Byte), imm.toNat < 32 →
    let x : Site := .tile f u
    let c := s.tile f.val u.val
    (s.canIssue x = true → c.posts = [] → ∀ p ∈ ([(Instr.tSset, 1), (.tSclr, 0)] : List ((Site → Byte → Instr) × Nat)),
      ∃ t, exec (p.1 x imm) s = .next t ∧
        endsAt x ((s.setTile f.val u.val { c with sig := BitVec.ofNat 32 (putBits c.sig.toNat imm.toNat 1 p.2) }).setField f.val
          { s.field f.val with dlSince := s.now, dlCyc := 0 }) none false (c.pc.toNat + 2) t) ∧
    (s.canIssue x = true →
      (c.sig.getLsbD imm.toNat = true → ∃ t, exec (.tSwait x imm) s = .next t ∧ endsAt x s none false (c.pc.toNat + 2) t) ∧
      (c.sig.getLsbD imm.toNat = false → ∃ t, exec (.tSwait x imm) s = .next t ∧ coreOnly x s t ∧
        (t.tile f.val u.val).waiting = true ∧ t.tile f.val u.val = { c with ts := (t.tile f.val u.val).ts, wait := .sig imm.toNat false })) ∧
    (c.wait = .sig imm.toNat true → c.frozen = false → (s.field f.val).freezing = false →
      ∃ t, exec (.signalWake f u) s = .next t ∧ (t.tile f.val u.val).waiting = false ∧ (t.tile f.val u.val).wait = .none ∧
        (t.tile f.val u.val).pc = BitVec.ofNat 16 (c.pc.toNat + 2) ∧ (∀ y, y ≠ x → t.core y = s.core y) ∧
        keeps [.tiles, .fields] s t)
  )

/-- R190, R191, Table 4.13: CSET, CCLR, CWAIT and CTST of a cell of the tenant's allotment send their operation to the field's pool;
CWAIT waits gated (WAIT = 1), the others for the pool's answer. SCSET, SCCLR and SCWAIT send theirs likewise, pc on the instruction
until the answer comes. -/
def Obligations.CellInstructions : Prop :=
  (∀ (f : FieldNo) (u : TileNo) (s : State) (o : SYForm), let x : Site := .tile f u
    let c := s.tile f.val u.val
    let tn := s.actTenant f.val
    s.canIssue x = true → o.arg = 0 → o.imm.toNat < 4096 → o.imm.toNat < s.getF F.fldCellAllot_COUNT f.val tn * 64 → c.posts = [] →
    let k := s.getF F.fldCellAllot_BASE f.val tn * 64 + o.imm.toNat
    ∀ p ∈ ([(Instr.tCset, CellOp.set), (.tCclr, .clear), (.tCwait, .wait), (.tCtst, .test)] : List ((Site → SYForm → Instr) × CellOp)),
      ∃ t, exec (p.1 x o) s = .next t ∧
        (t.field f.val).cellOps = (s.field f.val).cellOps ++ [{ by_ := .tile u.val, op := p.2, cell := k, at_ := s.now }] ∧
        t.tile f.val u.val = { c with ts := (t.tile f.val u.val).ts, wait := if p.2 = .wait then .cell k else .cellAck k } ∧
        (t.tile f.val u.val).waiting = decide (p.2 = .wait) ∧ (∀ y, y ≠ x → t.core y = s.core y) ∧ keeps [.tiles, .fields] s t) ∧
  (∀ (f : FieldNo) (s : State) (i : SeqInstr) a e1 k, s.seqCan f.val = true →
    legality s f.val i {} false = none → srcS (seqStart s f.val) f.val i i.a = .ok a e1 →
    e1.s.cellIndex f.val (e1.s.seqNames f.val i) (a % 4096) = .ok k →
    ∀ p ∈ ([(Instr.seqScset, CellOp.set), (.seqScclr, .clear), (.seqScwait, .wait)] : List ((FieldNo → SeqInstr → Instr) × CellOp)),
      ∃ t, exec (p.1 f i) s = .next t ∧
        (t.field f.val).cellOps = (e1.s.field f.val).cellOps ++ [{ by_ := .seq, op := p.2, cell := k, at_ := e1.s.now }] ∧
        (t.seq f.val).wait = (if p.2 = .wait then .cell k else .cellAck k) ∧ t.spc f.val = e1.s.spc f.val ∧
        fieldOnly f.val e1.s t)

/-- R65 to R69, R85, R86, Table 4.12: DADD, DSUB and DMUL (D op A), DCMP, DRSC, DCIN and DCOUT in a tile. The exact result is rounded
to the destination scale, then the 15-digit limit is checked; an invalid source spoils the result; a decimal fault sets
TS.DECIMAL_FAULT and under DEC_PROP the first one of a firing sends a DECIMAL event. DCOUT of an invalid word writes a free value
(assumption 15), so nothing is said of that value here. -/
def Obligations.TileDecimal : Prop :=
  ∀ (x : Site) (s : State) (o : DXForm), s.canIssue x = true → o.rnd ≠ 7 →
    let sc := o.sc.toNat
    -- the instruction ends after what stands in `e` with the flags, and a decimal fault where `fault`
    let ends (i : Instr) (e : Ev) (g : Flg) (fault : Bool) : Prop := ∃ t, exec i s = .next t ∧
      (fault = false → endsAt x e.s (some g) false (e.pcNext x 4) t) ∧
      (fault = true → (t.core x).tsGet 5 1 = 1 ∧ (t.core x).flg = g ∧ (t.core x).pc = BitVec.ofNat 16 (e.pcNext x 4) ∧
        (∀ y, y ≠ x → t.core y = e.s.core y) ∧
        ∀ f u, x = .tile f u → (e.s.tile f.val u.val).decProp = true → (e.s.tile f.val u.val).decSeen = false →
          (t.seq f.val).events.length = (e.s.seq f.val).events.length + 1)
    (∀ a e1 d pl e2, sc ≤ 80 → readOp x .w64 o.a.toNat 0 { s := s } = .ok (a, e1) →
      readDst x .w64 o.d.toNat 0 e1 = .ok ((d, pl), e2) →
      let sa := sc / 9
      let sd := sc % 9
      let f := d16Nib a == 0xF && d16Nib d == 0xF
      ∀ p ∈ ([(Instr.tDadd, fun u v : Int => (u * 10 ^ sa + v * 10 ^ sd) * 10 ^ sd),
          (.tDsub, fun u v : Int => (u * 10 ^ sa - v * 10 ^ sd) * 10 ^ sd),
          (.tDmul, fun u v : Int => u * v * 10 ^ sd)] : List ((Site → DXForm → Instr) × (Int → Int → Int))),
        ∃ r g fault, (d16Ok a = true → d16Ok d = true →
            decGives f o.rnd.toNat (p.2 (d16Val d) (d16Val a)) (10 ^ (sa + sd)) r g fault) ∧
          (d16Ok a = false ∨ d16Ok d = false → decSpoiled [a, d] r g fault) ∧
          ∀ e3, writePlace x .w64 e2 pl r = .ok e3 → e3.served → ends (p.1 x o) e3 g fault) ∧
    (∀ a e1 d e2, sc ≤ 80 → o.rnd = 0 → readOp x .w64 o.a.toNat 0 { s := s } = .ok (a, e1) →
      readOp x .w64 o.d.toNat 0 e1 = .ok (d, e2) → e2.served →
      (d16Ok a = true → d16Ok d = true → ends (.tDcmp x o) e2
        ⟨decide (d16Val d * 10 ^ (sc / 9) = d16Val a * 10 ^ (sc % 9)), decide (d16Val d * 10 ^ (sc / 9) < d16Val a * 10 ^ (sc % 9)), false, false⟩ false) ∧
      (d16Ok a = false ∨ d16Ok d = false → ends (.tDcmp x o) e2 ⟨false, false, false, true⟩ true)) ∧
    (∀ a e1, sc ≤ 80 → readOp x .w64 o.a.toNat 0 { s := s } = .ok (a, e1) →
      ∃ r g fault, (d16Ok a = true → decGives (d16Nib a == 0xF) o.rnd.toNat (d16Val a * 10 ^ (sc % 9)) (10 ^ (sc / 9)) r g fault) ∧
        (d16Ok a = false → decSpoiled [a] r g fault) ∧
        ∀ e2, writeOp x .w64 o.d.toNat 0 e1 r = .ok e2 → e2.served → ends (.tDrsc x o) e2 g fault) ∧
    (sc % 16 ≤ 8 →
      (∀ a e1, sc / 16 < 4 → readOp x (convFmt (sc / 16)).1 o.a.toNat 0 { s := s } = .ok (a, e1) →
        ∃ r g fault, decGives false o.rnd.toNat (sx (convFmt (sc / 16)).1 a * 10 ^ (sc % 16)) (2 ^ (convFmt (sc / 16)).2) r g fault ∧
          ∀ e2, writeOp x .w64 o.d.toNat 0 e1 r = .ok e2 → e2.served → ends (.tDcin x o) e2 g fault) ∧
      (∀ a e1, sc / 16 = 4 ∨ sc / 16 = 5 → readOp x .w64 o.a.toNat 0 { s := s } = .ok (a, e1) →
        ∃ r g fault, (∀ neg c q, decimal64 (sc / 16 == 5) a = some (neg, c, q) →
            decGives false o.rnd.toNat ((if neg then -(c : Int) else c) * 10 ^ (sc % 16 + q.toNat)) (10 ^ (-q).toNat) r g fault) ∧
          (decimal64 (sc / 16 == 5) a = none → decSpoiled [] r g fault) ∧
          ∀ e2, writeOp x .w64 o.d.toNat 0 e1 r = .ok e2 → e2.served → ends (.tDcin x o) e2 g fault) ∧
      (∀ a e1, sc / 16 < 4 → readOp x .w64 o.a.toNat 0 { s := s } = .ok (a, e1) → d16Ok a = true →
        let n := AccW.bits (convFmt (sc / 16)).1
        ∃ q r out, decRounded o.rnd.toNat (d16Val a * 2 ^ (convFmt (sc / 16)).2) (10 ^ (sc % 16)) q ∧ narrowed n true q r out ∧
          ∀ e2, writeOp x (convFmt (sc / 16)).1 o.d.toNat 0 e1 r = .ok e2 → e2.served →
            ends (.tDcout x o) e2 ⟨zOf n r, nOf n r, false, out⟩ out))

/-- R102, R103, R105, Table 5.6: the sequencer's MOV and its operations D := A op B at width W, which wrap, with their flags; DIVU and
REMU by zero give all ones and A, with V; CMP and TST set the flags of A − B and A AND B. Post-increments and register writes become
visible at completion, and pc moves past the instruction. R106, Table 5.6: under ATOMIC the nine operations act indivisibly on D, D := D
op B, with the flags of that result; XCHG swaps D and A; CAS stores B at D when D held A, leaves D's old value in p0 and sets Z to
whether it did. The model's own choices in it: assumptions 125 and 127. -/
def Obligations.SequencerArithmetic : Prop :=
  (
  ∀ (f : FieldNo) (s : State) (i : SeqInstr), i.rep = false → i.atomic = false →
    let w := i.width
    let n := AccW.bits w
    let ends (c : Instr) (e : SEv) : Prop := ∃ t, exec c s = .next t ∧ seqEndsAt f.val e (seqNext s f.val e i) t
    (∀ a e1 pl e2 e3, seqMay s f.val i legRp false → srcS (seqStart s f.val) f.val i i.a = .ok a e1 →
      dstS e1 f.val i i.d = .ok pl e2 → writeS e2 f.val i pl a = .ok () e3 → ends (.seqMov f i) e3) ∧
    (∀ a e1 b e2, srcS (seqStart s f.val) f.val i i.a = .ok a e1 → srcS e1 f.val i i.b = .ok b e2 →
      (∀ p ∈ ([(Instr.seqAdd, TOp.add, legAt), (.seqSub, .sub, legAt), (.seqAnd, .and, legAt), (.seqOr, .or, legAt),
          (.seqXor, .xor, legAt), (.seqMul, .mul, legRp), (.seqMin, .min, legAt), (.seqMax, .max, legAt), (.seqMinu, .minu, legAt),
          (.seqMaxu, .maxu, legAt), (.seqShl, .shl, legRp), (.seqShr, .shr, legRp), (.seqSar, .sar, legRp)] :
          List ((FieldNo → SeqInstr → Instr) × TOp × Legal)),
        seqMay s f.val i p.2.2 false → ∀ pl e3, dstS e2 f.val i i.d = .ok pl e3 →
          ∃ r g ov, (if p.2.1 ∈ [TOp.shl, .shr, .sar] then p.2.1.gives n false b a r g ov else p.2.1.gives n false a b r g ov) ∧
            ∀ e4, writeS e3 f.val i pl r = .ok () e4 → ends (p.1 f i) { e4 with s := e4.s.setSeqFlg f.val g }) ∧
      (∀ p ∈ ([(Instr.seqDivu, if b = 0 then 2 ^ n - 1 else a / b), (.seqRemu, if b = 0 then a else a % b)] :
          List ((FieldNo → SeqInstr → Instr) × Nat)),
        seqMay s f.val i {} false → ∀ pl e3 e4, dstS e2 f.val i i.d = .ok pl e3 → writeS e3 f.val i pl p.2 = .ok () e4 →
          ends (p.1 f i) { e4 with s := e4.s.setSeqFlg f.val ⟨zOf n p.2, nOf n p.2, false, decide (b = 0)⟩ }) ∧
      (seqMay s f.val i {} false →
        (∃ r : Nat, r < 2 ^ n ∧ (2 : Int) ^ n ∣ signedOf n a - signedOf n b - r ∧
          ends (.seqCmp f i) { e2 with s := e2.s.setSeqFlg f.val ⟨zOf n r, nOf n r, decide (a % 2 ^ n < b % 2 ^ n),
            decide (signedOf n a - signedOf n b < -(2 : Int) ^ (n - 1) ∨ (2 : Int) ^ (n - 1) ≤ signedOf n a - signedOf n b)⟩ }) ∧
        ends (.seqTst f i) { e2 with s := e2.s.setSeqFlg f.val ⟨zOf n (a &&& b), nOf n (a &&& b), false, false⟩ }))
  ) ∧ (
  ∀ (f : FieldNo) (s : State) (i : SeqInstr), i.rep = false →
    let w := i.width
    let n := AccW.bits w
    let ends (c : Instr) (e : SEv) : Prop := ∃ t, exec c s = .next t ∧ seqEndsAt f.val e (seqNext s f.val e i) t
    (i.atomic = true → seqMay s f.val i legAt false → ∀ b e1 pl e2, srcS (seqStart s f.val) f.val i i.b = .ok b e1 →
      dstS e1 f.val i i.d = .ok pl e2 →
      ∀ p ∈ ([(Instr.seqAdd, TOp.add, 2), (.seqSub, .sub, 3), (.seqAnd, .and, 4), (.seqOr, .or, 5), (.seqXor, .xor, 6),
          (.seqMin, .min, 11), (.seqMax, .max, 12), (.seqMinu, .minu, 13), (.seqMaxu, .maxu, 14)] :
          List ((FieldNo → SeqInstr → Instr) × TOp × Nat)),
        ∃ new : Nat → Nat, (∀ old, ∃ g ov, p.2.1.gives n false old b (new old) g ov) ∧
          ∀ old e3, atomS e2 f.val i pl (.rmw (BitVec.ofNat 8 p.2.2) (BitVec.ofNat 64 b)) (fun v => some (new v)) = .ok old e3 →
            ∃ g ov, p.2.1.gives n false (lowW w old) b (new (lowW w old)) g ov ∧
              ends (p.1 f i) { e3 with s := e3.s.setSeqFlg f.val g }) ∧
    (i.atomic = false → seqMay s f.val i {} (isImm i.a) →
      ∀ oa pa e0 a e1 pl e2 old e3 e4, i.a = some oa → locS (seqStart s f.val) f.val i oa false = .ok pa e0 →
        readS e0 f.val i pa.1 = .ok a e1 → (e1.got = [] → writable e1.s f.val i pa.1 = none) → dstS { e1 with incs := e1.incs ++ pa.2 } f.val i i.d = .ok pl e2 →
        atomS e2 f.val i pl (.xchg (BitVec.ofNat 64 a)) (fun _ => some a) = .ok old e3 → putS e3 f.val i pa.1 old = .ok () e4 →
        ends (.seqXchg f i) e4) ∧
    (i.atomic = false → seqMay s f.val i {} false →
      ∀ a e1 b e2 pl e3 old e4, srcS (seqStart s f.val) f.val i i.a = .ok a e1 → srcS e1 f.val i i.b = .ok b e2 →
        dstS e2 f.val i i.d = .ok pl e3 →
        atomS e3 f.val i pl (.cas (BitVec.ofNat 64 a) (BitVec.ofNat 64 b)) (fun v => if lowW w v = a then some b else none) = .ok old e4 →
        ends (.seqCas f i) { e4 with wr := e4.wr ++ [(0, lowW w old)], s := e4.s.setF F.seqStat_Z (bit (lowW w old == a)) f.val })
  )

/-- R109, R110, Table 5.6: the sequencer's DADD, DSUB, DMUL and DDIV of A and B, DRSC and DCMP, with the scales and rounding of DM. A
decimal fault sets `SEQ_STAT`.DECIMAL_FAULT; division by zero gives the largest magnitude under A's sign. -/
def Obligations.SequencerDecimal : Prop :=
  ∀ (f : FieldNo) (s : State) (i : SeqInstr), i.rep = false → i.atomic = false →
    let sa := dmSA i
    let sb := dmSB i
    let sd := dmSD i
    let ends (c : Instr) (e : SEv) (g : Flg) (fault : Bool) : Prop := ∃ t, exec c s = .next t ∧
      (fault = false → seqEndsAt f.val { e with s := e.s.setSeqFlg f.val g } (seqNext s f.val e i) t) ∧
      (fault = true → t.flag F.seqStat_DECIMAL_FAULT f.val = true ∧ t.seqFlg f.val = g ∧
        t.spc f.val = seqNext s f.val e i % 2 ^ 24)
    (∀ a e1 b e2, srcS (seqStart s f.val) f.val i i.a = .ok a e1 → srcS e1 f.val i i.b = .ok b e2 →
      let fu := d16Nib a == 0xF && d16Nib b == 0xF
      (∀ p ∈ ([(Instr.seqDadd, fun u v : Int => (u * 10 ^ sb + v * 10 ^ sa) * 10 ^ sd),
          (.seqDsub, fun u v : Int => (u * 10 ^ sb - v * 10 ^ sa) * 10 ^ sd),
          (.seqDmul, fun u v : Int => u * v * 10 ^ sd)] : List ((FieldNo → SeqInstr → Instr) × (Int → Int → Int))),
        seqMay s f.val i legDec (dmBad i) → ∀ pl e3, dstS e2 f.val i i.d = .ok pl e3 →
          ∃ r g fault, (d16Ok a = true → d16Ok b = true → decGives fu (dmRnd i) (p.2 (d16Val a) (d16Val b)) (10 ^ (sa + sb)) r g fault) ∧
            (d16Ok a = false ∨ d16Ok b = false → decSpoiled [a, b] r g fault) ∧
            ∀ e4, writeS e3 f.val i pl r = .ok () e4 → ends (p.1 f i) e4 g fault) ∧
      (seqMay s f.val i { width := false } (dmBad i) → ∀ pl e3, dstS e2 f.val i i.d = .ok pl e3 →
        ∃ r g fault, (d16Ok a = true → d16Ok b = true → d16Val b ≠ 0 →
            decGives fu (dmRnd i) ((if d16Val b < 0 then -d16Val a else d16Val a) * 10 ^ (sb + sd)) ((d16Val b).natAbs * 10 ^ sa) r g fault) ∧
          (d16Ok a = true → d16Ok b = true → d16Val b = 0 →
            d16Is r (if d16Val a < 0 then 0xD else if fu then 0xF else 0xC) (10 ^ 15 - 1) ∧ g.v = true ∧ fault = true) ∧
          (d16Ok a = false ∨ d16Ok b = false → decSpoiled [a, b] r g fault) ∧
          ∀ e4, writeS e3 f.val i pl r = .ok () e4 → ends (.seqDdiv f i) e4 g fault) ∧
      (seqMay s f.val i { width := false } (dmBad i || dmRnd i != 0 || dmSD i != 0) →
        (d16Ok a = true → d16Ok b = true → ends (.seqDcmp f i) e2
          ⟨decide (d16Val a * 10 ^ sb = d16Val b * 10 ^ sa), decide (d16Val a * 10 ^ sb < d16Val b * 10 ^ sa), false, false⟩ false) ∧
        (d16Ok a = false ∨ d16Ok b = false → ends (.seqDcmp f i) e2 ⟨false, false, false, true⟩ true))) ∧
    (∀ a e1 pl e2, seqMay s f.val i legDec (dmBad i || dmSB i != 0) → srcS (seqStart s f.val) f.val i i.a = .ok a e1 →
      dstS e1 f.val i i.d = .ok pl e2 →
      ∃ r g fault, (d16Ok a = true → decGives (d16Nib a == 0xF) (dmRnd i) (d16Val a * 10 ^ sd) (10 ^ sa) r g fault) ∧
        (d16Ok a = false → decSpoiled [a] r g fault) ∧
        ∀ e3, writeS e2 f.val i pl r = .ok () e3 → ends (.seqDrsc f i) e3 g fault)

/-- R102, R107, Table 5.6: SEQ_NOP does nothing; BR, CALL, JMP, RET and TRET transfer control: BR when its condition holds and CALL to
pc + rel16 modulo 2^24, CALL leaving pc + its length in p6, JMP to A[23:0], RET to p6[23:0], TRET back to M mode behind CALLT. R108: a
REP-prefixed instruction with rpt = 0 completes at once, with REPEAT 0; otherwise it sets REPEAT and its elements follow; each element
of MOV does the instruction once and counts rpt down, and the last one clears REPEAT and moves pc on. -/
def Obligations.SequencerControl : Prop :=
  (
  ∀ (f : FieldNo) (s : State) (i : SeqInstr),
    let ends (c : Instr) (e : SEv) (pc : Nat) : Prop := ∃ t, exec c s = .next t ∧ seqEndsAt f.val e pc t
    let e := seqStart s f.val
    let pc := s.spc f.val
    let far : Nat := (((pc : Int) + signedOf 16 i.rel.toNat) % 2 ^ 24).toNat
    (seqMay s f.val i {} false → ends (.seqNop f i) e (pc + i.len)) ∧
    (∀ (cond : BitVec 4) b, seqMay s f.val i {} false → condHolds (s.seqFlg f.val) cond.toNat = some b →
      ends (.seqBr f cond i) e (if b then far else pc + i.len)) ∧
    (seqMay s f.val i {} false → ends (.seqCall f i) { e with wr := [(6, (pc + i.len) % 2 ^ 24)] } far) ∧
    (∀ a e1, seqMay s f.val i {} false → srcS e f.val i i.a = .ok a e1 → ends (.seqJmp f i) e1 (a % 2 ^ 24)) ∧
    (seqMay s f.val i {} false → ends (.seqRet f i) e ((s.seq f.val).preg 6 % 2 ^ 24)) ∧
    (seqMay s f.val i { tOnly := true } false →
      ends (.seqTret f i) { e with s := e.s.setF F.seqStat_MODE 0 f.val } (s.seq f.val).retPc)
  ) ∧ (
  ∀ (f : FieldNo) (s : State) (i : SeqInstr), i.rep = true → i.atomic = false →
    (∀ p ∈ ([(Instr.seqMov, legRp, false), (.seqAdd, legAt, false), (.seqShl, legRp, false), (.seqMul, legRp, false),
        (.seqDadd, legDec, dmBad i)] : List ((FieldNo → SeqInstr → Instr) × Legal × Bool)), seqMay s f.val i p.2.1 p.2.2 →
      (s.getF F.seqRpt_RPT f.val = 0 → ∃ t, exec (p.1 f i) s = .next t ∧ t.flag F.seqStat_REPEAT f.val = false ∧
        t.spc f.val = (s.spc f.val + i.len) % 2 ^ 24 ∧ (t.seq f.val).p = (s.seq f.val).p ∧ keeps [.fields, .regs] s t) ∧
      (s.getF F.seqRpt_RPT f.val ≠ 0 → ∃ t, exec (p.1 f i) s = .next t ∧ t.flag F.seqStat_REPEAT f.val = true ∧
        t.spc f.val = s.spc f.val ∧ keeps [.regs] s t)) ∧
    (∀ a e1 pl e2 e3, s.flag F.seqStat_REPEAT f.val = true → s.getF F.seqRpt_RPT f.val ≠ 0 → seqMay s f.val i legRp false →
      srcS { s := s, got := (s.seq f.val).got } f.val i i.a = .ok a e1 → dstS e1 f.val i i.d = .ok pl e2 →
      writeS e2 f.val i pl a = .ok () e3 → e3.s.getF F.seqRpt_RPT f.val ≠ 0 →
      ∃ t, exec (.seqRepElement f 0x01 i) s = .next t ∧
        t.getF F.seqRpt_RPT f.val = e3.s.getF F.seqRpt_RPT f.val - 1 ∧
        (t.seq f.val).p = (((e3.s.seq f.val).applyIncs e3.incs).applyWr e3.wr).p ∧
        (t.spc f.val = if e3.s.getF F.seqRpt_RPT f.val = 1 then (e3.s.spc f.val + i.len) % 2 ^ 24 else e3.s.spc f.val) ∧
        (e3.s.getF F.seqRpt_RPT f.val = 1 → t.flag F.seqStat_REPEAT f.val = false))
  )

/-- The step of the block: the command at the front of the queue is run on the rest of the queue; on an empty queue the block's clock
passes one Hub cycle (assumption 2: the model's choice). -/
def Obligations.StepRunsFront : Prop :=
  ∀ s : State, (∀ c rest, s.pending = c :: rest → step s = exec c { s with pending := rest }) ∧
    (s.pending = [] → step s = .next (tick s))

/-- Every command from every state answers a next state and leaves the queue of waiting commands as it is. -/
def Obligations.CommandsLeaveQueue : Prop :=
  ∀ (c : Instr) (s : State), ∃ t, exec c s = .next t ∧ t.pending = s.pending

/-- The block after reset: the queue is empty, memories hold nothing, no field is released, tiles, fields and ports are as after reset
(FXRND = 0b10, SAT = 1), and every register holds the reset value of its table: the values named here in the fields named here, 0 in
every other field. Where the spec gives no value it is the model's choice (assumptions 5 and 6). -/
def Obligations.ResetValues : Prop :=
  let s := State.reset
  s.pending = [] ∧ s.now = 0 ∧ s.released = false ∧ s.hostOut = [] ∧ s.hostAns = [] ∧ s.hostGet = [] ∧ s.msix = [] ∧
  (∀ a, Tab.get zeroByte s.hbm.bytes a = 0) ∧
  (∀ f t, s.tile f t = {} ∧ (s.tile f t).fxrnd = 2 ∧ (s.tile f t).sat = true) ∧
  (∀ f, s.field f = {}) ∧ (∀ p, s.port p = {}) ∧ s.sloe.core.pc = 0x4000 ∧ s.sloe.stopped = false ∧
  let named : List (Fld × Nat) :=
    [(F.fldPmap_LFIELD, 127), (F.fldPmap_ROLE, 3), (F.seqStat_HALTED, 1), (F.hubEpochOldest_EMPTY, 1), (F.hubEpochCopyRate_GBPS, 40),
      (F.fldEpochDrain_EMPTY, 1), (F.hbmScrub_PERIOD, 24), (F.fldDlWindow_CYCLES, 1048576), (F.fldDlSnapTile_STATE, 7),
      (F.hubTenCfg_SLICE, 2), (F.hubWinDrain_DRAIN, 1), (F.prtCfg_CXL_EN, 1), (F.tchLinkCtrl_ALLOW_X8, 1), (F.rasCtrl_NOTIFY, 1),
      (F.rasWitRate_RATE, 12), (F.pwrCfg_KEEP_OP, 6), (F.pwrLendThreshold_US, 20), (F.pwrEnvelope_WATTS, 11500),
      (F.pwrEnvelope_BASE_Q, 420), (F.pwrFldReq_FLOOR_OP, 7), (F.pwrFldReq_PIN_OP, 3), (F.pwrFldStat_OP, 7), (F.pwrFldStat_CEIL, 7),
      (F.sloMode_MODE, 2), (F.sloPwrCfg_AUTO_ON, 1), (F.sloKey_EMPTY, 1), (F.sloChord_LOCKED, 1), (F.sloChord_IDLE_S, 60),
      (F.sloLcd_TARGET_MV, 3000), (F.sloAlarmCfg_LEAK_SHUT, 10), (F.sloAlarmCfg_OT_LIMIT, 70), (F.sloEvtMask_KINDS, 77688),
      (F.sloFbank_ROM, 1)]
  (∀ r i j k, s.reg r i j k = ((named.filter fun p => p.1.reg == r).map fun p => p.2 * 2 ^ p.1.lsb).sum) ∧
  ∀ p ∈ named, ∀ i j k, s.getF p.1 i j k = p.2

/-- R6, R7, R231, Table 0.1: a 64-bit write of a register: an RW field takes the value written, each 1 clears that bit of a W1C field,
an RO field keeps its value; beside the register and the records of the write nothing changes. The registers named are those of Tables
2.8, 3.13, 8.5, 9.4 and 10.3 that any source may write. -/
def Obligations.RegisterWrites : Prop :=
  ∀ (src : Source) (i j : Nat) (v : DWord) (s : State),
    ∀ r ∈ [Reg.tilSel, .fldXlate, .fldUnitHealth, .fldBarSel, .fldCellSel, .fldDlWindow, .hubTblSel, .hubWinSel, .hubWinBase, .hubWinLimit],
    i < r.desc.n1 → j < r.desc.n2 →
    let k := if r.desc.perSrc then srcCopy src else 0
    ∃ u t, exec (.registerWrite [⟨src, BitVec.ofNat 26 (r.offset i j), .w64, v⟩]) s = .next t ∧ recorded s u ∧
      t = { u with regs := t.regs } ∧ (∀ q i' j' k', rkey q i' j' k' ≠ rkey r i j k → t.reg q i' j' k' = u.reg q i' j' k') ∧
      ∀ fd ∈ r.desc.fields, ∀ b, b < fd.width → (t.reg r i j k).testBit (fd.lsb + b) =
        match fd.acc with
        | .rw => v.getLsbD (fd.lsb + b)
        | .w1c => (s.reg r i j k).testBit (fd.lsb + b) && !v.getLsbD (fd.lsb + b)
        | _ => (s.reg r i j k).testBit (fd.lsb + b)

/-- R8, R9, R13, R234, Tables 0.2, 10.14: a write narrower than 32 bits, or not aligned to its size, or at an unassigned offset writes
nothing, is logged in `HUB_RSVD_WRITE` and reported to its source as DISCARDED. CLEAR zeroes `HUB_RSVD_WRITE`; CLEAR of
`HUB_LAST_WRITER`, with no access of its source in this cycle, zeroes the source's copy. A 32-bit read of the low word of a counter
latches all of it, and the next read of the high word answers from the latch (R319). R230: the writes of one Hub cycle are performed in
the order Sloe, H0, H1, H2, H3, Hub firmware, each source's own in the order they came; REGISTER_WRITE of them does what the single
writes do one after the other in that order. -/
def Obligations.RegisterAccessRecords : Prop :=
  (
  ∀ s : State,
    (∀ w : BusWrite, let off := w.off.toNat
      (w.width.bytes < 4 ∨ off % w.width.bytes ≠ 0 ∨ (regAt (off / 8 * 8) = none ∧ tileWindow (off / 8 * 8) = none)) →
      off / 8 * 8 ≠ 0xF00 → off / 8 * 8 ≠ 0xF10 →
      ∃ t, exec (.registerWrite [w]) s = .next t ∧ recorded s t ∧ t.getF F.hubRsvdWrite_LAST_OFFSET = off ∧
        t.getF F.hubRsvdWrite_LAST_SRC = w.src.code ∧ t.flag F.hubRsvdWrite_LOCKED = false ∧
        t.getF F.hubRsvdWrite_COUNT = min 0xFFFF (s.getF F.hubRsvdWrite_COUNT + 1) ∧
        t.getF F.hubLastWriter_OFFSET 0 0 (w.src.code + 1) = off ∧ t.getF F.hubLastWriter_OUTCOME 0 0 (w.src.code + 1) = 4) ∧
    (∀ src, ∃ t, exec (.rsvdWriteClear src) s = .next t ∧ recorded s t ∧ t.reg .hubRsvdWrite 0 0 0 = 0) ∧
    (∀ src, (∀ x ∈ s.bus.cycle, x.src ≠ src.code) → ∃ t, exec (.lastWriterClear src) s = .next t ∧ recorded s t ∧
      t.reg .hubRsvdWrite 0 0 0 = s.reg .hubRsvdWrite 0 0 0 ∧ t.reg .hubLastWriter 0 0 (src.code + 1) = 0) ∧
    (∀ src r i j, i < r.desc.n1 → j < r.desc.n2 → r.desc.base < 2 ^ 26 → r.isCount = true → s.hardAt (r.offset i j) ≠ 2 →
      let v := s.regView (srcCopy src) r i j
      let key := rkey r i j (srcCopy src)
      ∃ t, exec (.counterLatchRead src (BitVec.ofNat 26 (r.offset i j))) s = .next t ∧
        t = { s with bus := { cycle := t.bus.cycle, moved := t.bus.moved, turns := t.bus.turns, latch := t.bus.latch } } ∧
        (∀ k, Tab.get (fun _ => 0) t.bus.latch k = if k = key then BitVec.ofNat 64 v else Tab.get (fun _ => 0) s.bus.latch k) ∧
        (t.busRead src (r.offset i j + 4) .w32).1 = (BitVec.ofNat 64 v).toNat / 2 ^ 32)
  ) ∧ (
  ∀ (ws : List BusWrite) (s : State), ∃ l : List BusWrite,
    (∀ k, (l.filter fun w => w.src.code == k) = ws.filter fun w => w.src.code == k) ∧
    (l.map fun w => w.src.code).Pairwise (· ≤ ·) ∧
    exec (.registerWrite ws) s = .next (l.foldl (fun s w => match exec (.registerWrite [w]) s with | .next t => t | _ => s) s)
  )

/-- R233: a tenant control register write from a source that is neither the tenant's owner port nor the Sloe has no effect, and its
source's copy of `HUB_LAST_WRITER` reports OWNER_CONFLICT (R234, Table 10.14). -/
def Obligations.TenantWriteNeedsOwner : Prop :=
  ∀ (s : State) (src : Source) (r : Reg) (i j : Nat) (v : DWord) (tn : Nat), i < r.desc.n1 → j < r.desc.n2 →
    (r ∈ [Reg.hubTenCfg, .hubTenFields0, .hubTenFields1, .hubTenImg, .hubWinCtrl, .hubEpochFlip, .rasWitRate] ∧ tn = i) ∨
      (r = .hubTenCtrl ∧ v.getLsbD 3 = false ∧ s.tenState i ≠ 0 ∧ tn = i) ∨
      (r = .hubWinPerm ∧ v.getLsbD 8 = true ∧ tn = s.getF F.hubWinSel_TENANT 0 0 (srcCopy src)) ∨
      (r ∈ [Reg.hubTblBaseA, .hubTblBaseB, .hubTblGeom, .hubTblCtrl, .hubTblState] ∧ tn = s.getF F.hubTblSel_TENANT 0 0 (srcCopy src)) →
    (src = .hub ∨ ∃ p, src = .host p ∧ (s.busTurn src (r.offset i j)).ownerOf tn ≠ some p.val) →
    ∃ t, exec (.registerWrite [⟨src, BitVec.ofNat 26 (r.offset i j), .w64, v⟩]) s = .next t ∧ recorded s t ∧
      t.reg .hubRsvdWrite 0 0 0 = s.reg .hubRsvdWrite 0 0 0 ∧ t.getF F.hubLastWriter_OFFSET 0 0 (src.code + 1) = r.offset i j ∧
      t.getF F.hubLastWriter_OUTCOME 0 0 (src.code + 1) = 3 ∧
      t.getF F.hubLastWriter_CONFLICTS 0 0 (src.code + 1) = min 0xFFFF (s.getF F.hubLastWriter_CONFLICTS 0 0 (src.code + 1) + 1)

/-- R53, R54, Table 3.3: the address that each operand specifier gives and the base register it updates: displacement, scaled index,
post-increment, circular (a base outside its buffer is CIRC_RANGE unless the address has a fault that Table 3.6 lists before it), queue
window, direct. A nonzero X in a mode without extension and the unassigned windows are illegal. -/
def Obligations.OperandAddresses : Prop :=
  ∀ (x : Site) (c : Tile) (w : AccW) (k : Fin 8) (rd wr : Bool),
    let n := w.bytes
    let b := c.breg k.val
    let ill (s8 xf : Nat) : Prop := ∃ fl, resolve x c w s8 xf rd wr = .error fl ∧ fl.cause = .illegal
    (∀ d xf, d < 8 → xf < 16 → resolve x c w (k.val * 8 + d) xf rd wr = .ok ((b + (8 * xf + d) * n) % 2 ^ 16, none, c)) ∧
    (∀ j : Fin 8, resolve x c w (0x40 + k.val * 8 + j.val) 0 rd wr = .ok ((b + c.breg j.val * n) % 2 ^ 16, none, c) ∧
      ∀ xf, xf ≠ 0 → ill (0x40 + k.val * 8 + j.val) xf) ∧
    (∀ m, m < 4 → resolve x c w (0x80 + k.val * 4 + m) 0 rd wr = .ok (b % 2 ^ 16, none, c.setB k.val (b + n * 2 ^ m)) ∧
      ∀ xf, xf ≠ 0 → ill (0x80 + k.val * 4 + m) xf) ∧
    (∀ i m, i < 2 → m < 2 →
      let st := bitsOf (if i = 0 then c.circ0 else c.circ1).toNat 0 16
      let en := bitsOf (if i = 0 then c.circ0 else c.circ1).toNat 16 16
      let s8 := 0xA0 + k.val * 4 + i * 2 + m
      (st ≤ b % 2 ^ 16 → b % 2 ^ 16 < en →
        let v : Int := if m = 0 then b + n else b - n
        let v' : Int := if m = 0 then (if en ≤ v % 2 ^ 16 then v - (en - st) else v) else (if v % 2 ^ 16 < st then v + (en - st) else v)
        resolve x c w s8 0 rd wr = .ok (b % 2 ^ 16, none, c.setB k.val (v' % 2 ^ 32).toNat)) ∧
      (¬(st ≤ b % 2 ^ 16 ∧ b % 2 ^ 16 < en) → ∃ fl, resolve x c w s8 0 rd wr = .error fl ∧
        (preCirc x w rd wr (b % 2 ^ 16) = none → fl.cause = .circRange)) ∧
      ∀ xf, xf ≠ 0 → ill s8 xf) ∧
    (∀ q pp, q < 8 → pp < 4 → (q < 6 → pp < 2 → x ≠ .sloe → resolve x c w (0xC0 + 4 * q + pp) 0 rd wr =
        .ok (0xC000 + 8 * q + 0x40 * pp, some (q, pp == 1), c)) ∧
      (6 ≤ q ∨ 2 ≤ pp ∨ x = .sloe → ill (0xC0 + 4 * q + pp) 0) ∧ ∀ xf, xf ≠ 0 → ill (0xC0 + 4 * q + pp) xf) ∧
    (∀ d xf, d < 32 → xf < 16 → resolve x c w (0xE0 + d) xf rd wr = .ok ((32 * xf + d) * 8, none, c))

/-- R4, R46, R47, R91: an SRAM operand of a tile instruction: a read gives its bytes, lowest address lowest, changing no byte of any
tile; a word with a double-bit error is POISON. A write stores the low bytes of the value at its address and leaves every other byte of
every tile as it was; what else may change is its word's error mark, the running trace and other tiles' reservations on the granule. R50,
R52, R128, R137, chapter 6: the oldest request that has reached a tile is performed: a write stores its bytes in SRAM and is
acknowledged, a read answers with the bytes there; one for a tenant not resident in the field, or to a tile of an offline field (R43),
changes nothing and answers PROTECTION. The model's own choices in it: assumption 117. -/
def Obligations.SramAccesses : Prop :=
  (
  ∀ (f : FieldNo) (u : TileNo) (w : AccW) (e : Ev) (a : Nat), let x : Site := .tile f u
    let c := e.s.tile f.val u.val
    (c.errAt a = 0 → ∃ v s1, readPlace x w e (.sram a) = .ok (v, { e with s := s1 }) ∧ wordIs c.sram a w.bytes v ∧ coreOnly x e.s s1 ∧
      s1.tile f.val u.val = { c with sramErr := (s1.tile f.val u.val).sramErr, trace := (s1.tile f.val u.val).trace }) ∧
    (c.errAt a = 2 → ∃ fl, readPlace x w e (.sram a) = .error fl ∧ fl.cause = .poison ∧ fl.addr = a) ∧
    (∀ v, ∃ s1, writePlace x w e (.sram a) v = .ok { e with s := s1 } ∧ keeps [.tiles, .mesh] e.s s1 ∧
      wordPut c.sram (s1.tile f.val u.val).sram a w.bytes v ∧
      s1.tile f.val u.val = { c with sram := (s1.tile f.val u.val).sram, sramErr := (s1.tile f.val u.val).sramErr, sramInj := 0, trace := (s1.tile f.val u.val).trace } ∧
      ∀ y, y ≠ x → s1.core y = { e.s.core y with resv := (s1.core y).resv })
  ) ∧ (
  ∀ (f : FieldNo) (u : TileNo) (s : State) (p : Packet), s.inboxReq (.tile f.val u.val) = some p → p.ext = none → p.len ≤ 256 →
    let x : Site := .tile f u
    let c := s.tile f.val u.val
    let o := p.ga % 2 ^ 16
    let wr : Prop := p.op = .write ∨ p.op = .posted
    let answers (t : State) (op : PktOp) (err : RespErr) (d : List Byte) : Prop :=
      ∃ r, t.mesh = { s.mesh with nextId := s.mesh.nextId + 1, remResv := t.mesh.remResv, pkts := (s.mesh.pkts.filter fun q => q.id != p.id) ++ [r] } ∧ r.op = op ∧ r.err = err ∧ r.data = d ∧ r.dst = p.src ∧ r.access = p.access
    (s.offline f.val = true ∨ p.sys = false ∧ s.residentIs f.val p.tenant = false → ∃ t, exec (.remoteSramAccess f u) s = .next t ∧
      answers t (if wr then .writeAck else .readData) .protection [] ∧ keeps [.mesh] s t) ∧
    (s.offline f.val = false → p.sys = true ∨ s.residentIs f.val p.tenant = true → p.err = .ok → o < 0xC000 →
      (wr → ∃ t, exec (.remoteSramAccess f u) s = .next t ∧ answers t .writeAck .ok [] ∧
        bytesPut c.sram (t.tile f.val u.val).sram o p.data ∧ keeps [.tiles, .mesh] s t ∧
        (t.tile f.val u.val).b = c.b ∧ (t.tile f.val u.val).pc = c.pc ∧
        ∀ y, y ≠ x → t.core y = { s.core y with resv := (t.core y).resv }) ∧
      (p.op = .read → c.errSpan o p.len = 0 → ∃ t, exec (.remoteSramAccess f u) s = .next t ∧
        answers t .readData .ok (Tab.readBytes zeroByte c.sram o p.len) ∧ keeps [.tiles, .mesh] s t ∧
        t.tile f.val u.val = { c with sramErr := (t.tile f.val u.val).sramErr } ∧ ∀ y, y ≠ x → t.core y = s.core y) ∧
      (∀ a, p.op = .atomic a → c.errSpan o p.len = 0 → a = .tas → p.len = 8 → ∃ t, exec (.remoteSramAccess f u) s = .next t ∧
        answers t .readData .ok (bytesLE 8 (Tab.readLE zeroByte c.sram o 8)) ∧ wordPut c.sram (t.tile f.val u.val).sram o 8 1))
  )

/-- R57 to R61, R126, Table 3.4: a pop gives the low W bits of the head entry and removes it, a peek removes nothing, an empty queue
stalls; a push sends the operand, zero-extended to 64 bits, toward the neighbour's queue (or into L, or the dense feed lane) behind
what went before, and without room stalls. A stalled instruction has no effect but QSTALL. The entries toward a queue arrive in order;
a queue change lets a stalled tile begin its instruction again. R136, R137, Table 6.5: a PUT posts the operand's W bits to GA of its
pair, within 8 slots, and a GET reads from GA and waits for its round trip; each advances the pair's low register by W/8. The answer of
a posted store frees its slot, or keeps its failure for the instruction that waits; the answer of a GET lets its instruction go on with
the data. -/
def Obligations.QueueAndMeshWindows : Prop :=
  (
  ∀ (f : FieldNo) (u : TileNo), let x : Site := .tile f u
    (∀ (w : AccW) (e : Ev) (q : Nat) (pk : Bool), q < 5 → winFault x q true false = none →
      let c := e.s.tile f.val u.val
      -- a peek sees the queue as it stood before the instruction (R56)
      let l := (if pk then e.s0.tile f.val u.val else c).queue q
      (l = [] → ∃ v e1, readPlace x w e (.win q pk) = .ok (v, e1) ∧ e1.stall = true ∧ e1.s = e.s) ∧
      (∀ d r, l = d :: r → ∃ s1, readPlace x w e (.win q pk) = .ok (d.toNat % 2 ^ AccW.bits w, { e with s := s1 }) ∧
        coreOnly x e.s s1 ∧ s1.tile f.val u.val =
          { (if pk then c else c.setQueue q r) with trace := (s1.tile f.val u.val).trace })) ∧
    (∀ (w : AccW) (e : Ev) (q v : Nat), q < 5 → winFault x q false true = none →
      (e.s.room f.val u.val q = 0 → ∃ e1, writePlace x w e (.win q false) v = .ok e1 ∧ e1.stall = true ∧ e1.s = e.s) ∧
      (e.s.room f.val u.val q ≠ 0 → ∃ s1, writePlace x w e (.win q false) v = .ok { e with s := s1 } ∧ keeps [.tiles, .fields] e.s s1 ∧
        let d := BitVec.ofNat 64 (v % 2 ^ AccW.bits w)
        (q = 4 → (s1.tile f.val u.val).ql = (e.s.tile f.val u.val).ql ++ [d] ∧ ∀ y, y ≠ x → s1.core y = e.s.core y) ∧
        (∀ n, q < 4 → neighbour u.val q = some n → (s1.tile f.val n).pass (opposite q) = (e.s.tile f.val n).pass (opposite q) ++ [d] ∧
          s1.tile f.val n = (e.s.tile f.val n).setPass (opposite q) ((e.s.tile f.val n).pass (opposite q) ++ [d])) ∧
        (q = 2 → u.val / 70 = 69 → lane (s1.dense f.val).feedIn (u.val % 70) = lane (e.s.dense f.val).feedIn (u.val % 70) ++ [d]))) ∧
    (∀ (s : State) d a va e1 e2, s.canIssue x = true → readOp x .w64 (c5 a) 0 { s := s } = .ok (va, e1) →
      writeOp x .w64 (c5 d) 0 e1 va = .ok e2 → e2.stall = true →
      ∃ t, exec (.tMov x (.c2 d a)) s = .next t ∧ coreOnly x s t ∧ (t.tile f.val u.val).qstall = true ∧
        t.tile f.val u.val = { s.tile f.val u.val with ts := (t.tile f.val u.val).ts, stallAt := e2.target }) ∧
    (∀ (s : State) (dir : Dir), let c := s.tile f.val u.val
      let q := match dir with
        | .n => 0
        | .e => 1
        | .s => 2
        | .w => 3
      (c.pass q = [] → exec (.queueEntryArrival f u dir) s = .next s) ∧
      ∀ v r, c.pass q = v :: r → ∃ t, exec (.queueEntryArrival f u dir) s = .next t ∧ coreOnly x s t ∧
        t.tile f.val u.val = (c.setPass q r).setQueue q (c.queue q ++ [v])) ∧
    (∀ s : State, let c := s.tile f.val u.val
      (c.qstall = true → c.frozen = false → ∃ t, exec (.qstallResume f u) s = .next t ∧ (t.tile f.val u.val).qstall = false ∧
        t.tile f.val u.val = { c with ts := (t.tile f.val u.val).ts } ∧ (∀ y, y ≠ x → t.core y = s.core y) ∧
        t.field f.val = { s.field f.val with quietSince := s.now, woken := true } ∧ keeps [.tiles, .fields] s t) ∧
      (c.qstall = false ∨ c.frozen = true → exec (.qstallResume f u) s = .next s))
  ) ∧ (
  ∀ (f : FieldNo) (u : TileNo), let x : Site := .tile f u
    (∀ (w : AccW) (e : Ev) (p : Fin 4) (v : Nat), let c := e.s.tile f.val u.val
      let ga := (c.breg (2 * p.val) * 2 ^ 16 + c.breg (2 * p.val + 1)) % 2 ^ 48
      let tn := e.s.actTenant f.val
      (ga % w.bytes ≠ 0 → ∃ fl, writePlace x w e (.put p.val) v = .error fl ∧ fl.cause = .misaligned ∧ fl.glob = true ∧ fl.addr = ga) ∧
      (ga % w.bytes = 0 → e.s.gaValid ga = false → ∃ fl, writePlace x w e (.put p.val) v = .error fl ∧ fl.cause = .globalAddr ∧ fl.glob = true) ∧
      (ga % w.bytes = 0 → e.s.gaValid ga = true → 8 ≤ c.postsOut → ∃ e1, writePlace x w e (.put p.val) v = .ok e1 ∧ e1.stall = true ∧ e1.s = e.s) ∧
      (ga % w.bytes = 0 → e.s.gaValid ga = true → c.postsOut < 8 → e.s.holding tn = false →
        ∃ s1, writePlace x w e (.put p.val) v = .ok { e with s := s1 } ∧
          (s1.tile f.val u.val).posts = c.posts ++ [{ ga := ga, access := e.s.mesh.nextId }] ∧
          (s1.tile f.val u.val).breg (2 * p.val + 1) = (c.breg (2 * p.val + 1) + w.bytes) % 2 ^ 32 ∧
          (s1.tile f.val u.val).sram = c.sram ∧ s1.mesh.outst.length = e.s.mesh.outst.length + 1 ∧
          (∀ y, y ≠ x → s1.core y = e.s.core y)) ∧
      ∃ s1, readPlace x w e .pstat = .ok (c.postsOut, { e with s := s1 }) ∧ coreOnly x e.s s1 ∧
        s1.tile f.val u.val = { c with trace := (s1.tile f.val u.val).trace }) ∧
    (∀ (s : State) d a va e1 e2 ga n, s.canIssue x = true → readOp x .w64 (c5 a) 0 { s := s } = .ok (va, e1) →
      writeOp x .w64 (c5 d) 0 e1 va = .ok e2 → e2.stall = false → e2.get = some (ga, n) →
      ∃ t, exec (.tMov x (.c2 d a)) s = .next t ∧ (t.tile f.val u.val).wait = .get ∧
        t.tile f.val u.val = { s.tile f.val u.val with ts := (t.tile f.val u.val).ts, wait := .get } ∧
        t.mesh.outst.length = s.mesh.outst.length + 1 ∧ (∀ y, y ≠ x → t.core y = s.core y)) ∧
    (∀ (s : State) (p : Packet), s.inboxResp (.tile f.val u.val) (fun q => match q with | .put _ => true | _ => false) = some p →
      let c := s.tile f.val u.val
      ∃ t, exec (.postedStoreAck f u) s = .next t ∧ keeps [.tiles, .mesh] s t ∧ (∀ y, y ≠ x → t.core y = s.core y) ∧
        t.mesh = { s.mesh with pkts := s.mesh.pkts.filter fun q => q.id != p.id, outst := s.mesh.outst.filter fun a => a.id != p.access } ∧
        (p.err = .ok → t.tile f.val u.val = { c with posts := c.posts.filter fun y => y.access != p.access }) ∧
        (p.err ≠ .ok → t.tile f.val u.val = { c with posts := c.posts.map fun y => if y.access = p.access then
          { y with failed := some (if p.err = .protection then .protection else .poison) } else y })) ∧
    (∀ (s : State) (p : Packet), s.inboxResp (.tile f.val u.val) (fun q => match q with | .gl => true | .get => true | _ => false) = some p →
      s.awaited p.access = true → (s.tile f.val u.val).wait = .get →
      ∃ t, exec (.globalResponse f u) s = .next t ∧ keeps [.tiles, .mesh] s t ∧ (∀ y, y ≠ x → t.core y = s.core y) ∧
        t.tile f.val u.val = { s.tile f.val u.val with
          wait := .none, got := (s.tile f.val u.val).got ++ [(BitVec.ofNat 64 (natLE p.data), p.err)] })
  )

/-- R71, R73, Tables 3.6, 3.7: an instruction whose operand faults has no effect; PC stays on it, TS.FAULT is set, the tile halts and
sends a fault event; `TIL_FAULT_INFO` keeps the first fault until TS.FAULT is cleared from outside, which sets it to 0 and lets the tile
go on, which wakes the field (R202). A posted store that failed faults the instruction that waits for it (R137). R70, R91, R205: a tile
takes a pending context-switch request, a freeze of its field, or a debug halt (none once DEBUG_DIS is set) when it can, and a debug halt
waits until then; its reservation is lost by contention, and memory, registers and PC keep their values. The model's own choices in it:
assumption 118. -/
def Obligations.FaultsAndEvents : Prop :=
  (
  ∀ (x : Site) (s : State),
    (s.canIssue x = true → ∀ c a d fl, readOp x (AccW.ofCode c) a.toNat 0 { s := s } = .error fl →
      ∃ t, exec (.tMov x (.t2 c a d)) s = .next t ∧ faultsAt x s fl 0 t) ∧
    (s.canIssue x = true → ∀ c a d va e1 fl, readOp x (AccW.ofCode c) a.toNat 0 { s := s } = .ok (va, e1) →
      writeOp x (AccW.ofCode c) d.toNat 0 e1 va = .error fl → ∃ t, exec (.tMov x (.t2 c a d)) s = .next t ∧ faultsAt x s fl 0 t) ∧
    (∀ f u p cs, x = .tile f u → s.canIssue x = true → (s.tile f.val u.val).posts.find? (fun q => q.failed.isSome) = some p →
      p.failed = some cs → ∃ t, exec (.tDone x 0) s = .next t ∧
        faultsAt x s { cause := cs, glob := true, write := true, addr := p.ga } 0 t) ∧
    (∀ src f u, x = .tile f u → s.mayReach src f.val = true → let c := s.tile f.val u.val
      (c.fault = true → ∃ t, exec (.faultClear src f u) s = .next t ∧ (∀ y, y ≠ x → t.core y = s.core y) ∧ keeps [.tiles, .fields] s t ∧
        (∀ g, g ≠ f.val → t.field g = s.field g) ∧
        (t.field f.val = s.field f.val ∨ t.field f.val = { s.field f.val with quietSince := s.now, woken := true }) ∧
        (t.tile f.val u.val).fault = false ∧
        (t.tile f.val u.val).tsGet 8 4 = 0 ∧ (t.tile f.val u.val).flg = c.flg ∧ (t.tile f.val u.val).repeat_ = c.repeat_ ∧
        t.tile f.val u.val = { c with ts := (t.tile f.val u.val).ts, faultInfo := 0 }) ∧
      (c.fault = false → c.frozen = false → ∃ t, exec (.faultClear src f u) s = .next t ∧ coreOnly x s t ∧
        t.tile f.val u.val = { c with extDeny := true })) ∧
    (∀ src f u, s.mayReach src f.val = false → exec (.faultClear src f u) s = .next s)
  ) ∧ (
  ∀ (f : FieldNo) (u : TileNo) (s : State), let x : Site := .tile f u
    let c := s.tile f.val u.val
    let took (t : State) (fr db hr : Bool) : Prop :=
      t.tile f.val u.val = { c with
        frozen := fr, debugHalted := db, haltReq := hr, ir := none, trace := (t.tile f.val u.val).trace, sampleNext := (t.tile f.val u.val).sampleNext, resv := match c.resv with
          | .held _ _ => .lost true
          | r => r } ∧
      (∀ y, y ≠ x → t.core y = s.core y) ∧ keeps [.tiles, .regs] s t
    (c.canTake = true → c.gath = [] →
      ((s.field f.val).switching.isSome = true → ∃ t, exec (.contextSwitchEvent f u) s = .next t ∧ took t true c.debugHalted c.haltReq) ∧
      ((s.field f.val).freezing = true → ∃ t, exec (.freeze f u) s = .next t ∧ took t true c.debugHalted c.haltReq) ∧
      (s.flag F.secBootStat_DEBUG_DIS = false → ∃ t, exec (.debugHalt f u) s = .next t ∧ took t c.frozen true false)) ∧
    ((c.canTake = false ∨ (s.field f.val).switching = none) → exec (.contextSwitchEvent f u) s = .next s) ∧
    ((c.canTake = false ∨ (s.field f.val).freezing = false) → exec (.freeze f u) s = .next s) ∧
    (c.canTake = false → s.flag F.secBootStat_DEBUG_DIS = false →
      exec (.debugHalt f u) s = .next (s.setTile f.val u.val { c with haltReq := true })) ∧
    (s.flag F.secBootStat_DEBUG_DIS = true → exec (.debugHalt f u) s = .next s)
  )

/-- R196, R197: BARF and BARW of a tile, and of the sequencer, with every posted store acknowledged, arrive at their group and wait
with the group's SENSE recorded; a group with EXPECT = 0, or a wafer group not VALID or not the tenant's, refuses the arrival with
PROTECTION, GLOBAL = 0, ADDR = group, and does not count it. -/
def Obligations.BarrierArrivals : Prop :=
  (∀ (f : FieldNo) (u : TileNo) (s : State) (imm : Byte), let x : Site := .tile f u
    let c := s.tile f.val u.val
    let g := imm.toNat
    s.canIssue x = true → c.posts = [] →
    ((s.bar f.val g).expect ≠ 0 → ∃ t, exec (.tBarf x imm) s = .next t ∧ (t.tile f.val u.val).waiting = true ∧
      t.tile f.val u.val = { c with ts := (t.tile f.val u.val).ts, wait := .barF g (s.bar f.val g).sense } ∧
      t.bar f.val g = { s.bar f.val g with arrivals := (s.bar f.val g).arrivals + 1, parity := (s.bar f.val g).parity || (s.field f.val).treeInj } ∧
      (∀ h, h ≠ g → t.bar f.val h = s.bar f.val h) ∧ (∀ y, y ≠ x → t.core y = s.core y) ∧ keeps [.tiles, .fields] s t) ∧
    ((s.bar f.val g).expect = 0 → ∃ t, exec (.tBarf x imm) s = .next t ∧ faultsAt x s { cause := .protection, addr := g } 0 t ∧
      t.bar f.val g = s.bar f.val g) ∧
    (g < 64 → s.flag F.hubWbar_VALID g = true → s.getF F.hubWbar_OWNER g = s.actTenant f.val →
      ∃ t, exec (.tBarw x imm) s = .next t ∧ (t.tile f.val u.val).waiting = true ∧
        t.tile f.val u.val = { c with ts := (t.tile f.val u.val).ts, wait := .barW g (s.flag F.hubWbar_SENSE g) } ∧
        t.wbarArrivals g = s.wbarArrivals g + 1 ∧ (∀ h, h ≠ g → t.wbarArrivals h = s.wbarArrivals h) ∧
        (∀ y, y ≠ x → t.core y = s.core y) ∧ keeps [.tiles, .fields, .hub] s t) ∧
    (g < 64 → (s.flag F.hubWbar_VALID g = false ∨ s.getF F.hubWbar_OWNER g ≠ s.actTenant f.val) →
      ∃ t, exec (.tBarw x imm) s = .next t ∧ faultsAt x s { cause := .protection, addr := g } 0 t ∧ t.wbarArrivals g = s.wbarArrivals g)) ∧
  (∀ (f : FieldNo) (s : State) (i : SeqInstr) a e1, seqMay s f.val i {} false → srcS (seqStart s f.val) f.val i i.a = .ok a e1 →
    (e1.s.seq f.val).twait = .none →
    (∀ g, g = a % 256 →
      ((e1.s.bar f.val g).expect ≠ 0 → ∃ t, exec (.seqBarf f i) s = .next t ∧
        seqWaitsAt f.val e1 i.len (.barF g (e1.s.bar f.val g).sense) t ∧
        (t.bar f.val g).arrivals = (e1.s.bar f.val g).arrivals + 1 ∧ fieldOnly f.val e1.s t) ∧
      ((e1.s.bar f.val g).expect = 0 → ∃ t, exec (.seqBarf f i) s = .next t ∧
        seqFaultsAt f.val s { cause := .protection, addr := g } t ∧ t.bar f.val g = s.bar f.val g)) ∧
    (∀ g tn, g = a % 64 → tn = e1.s.seqNames f.val i →
      (e1.s.flag F.hubWbar_VALID g = true → e1.s.getF F.hubWbar_OWNER g = tn → ∃ t, exec (.seqBarw f i) s = .next t ∧
        seqWaitsAt f.val e1 i.len (.barW g (e1.s.flag F.hubWbar_SENSE g)) t ∧ t.wbarArrivals g = e1.s.wbarArrivals g + 1 ∧
        keeps [.fields, .hub] e1.s t) ∧
      (e1.s.flag F.hubWbar_VALID g = false ∨ e1.s.getF F.hubWbar_OWNER g ≠ tn → ∃ t, exec (.seqBarw f i) s = .next t ∧
        seqFaultsAt f.val s { cause := .protection, addr := g } t ∧ t.wbarArrivals g = s.wbarArrivals g)))

/-- R196, R199, Tables 9.3, 9.4: the arrivals combined at a root count toward EXPECT; at EXPECT or beyond CNT becomes 0 and SENSE is
inverted, and beyond it OVERRUN records the group. A release completes the BARF or BARW of the waiters whose recorded sense differs
from the group's, a frozen or halted tile apart, and no others. -/
def Obligations.BarrierPhases : Prop :=
  ∀ s : State,
    (∀ (f : FieldNo) (g : Fin 256), let b := s.bar f.val g.val
      b.parity = false → b.arrivals ≠ 0 → ∃ t, exec (.barrierArrival (.field f g)) s = .next t ∧
        t.bar f.val g.val = (if b.expect ≤ b.cnt + b.arrivals then { b with cnt := 0, arrivals := 0, sense := !b.sense }
          else { b with cnt := b.cnt + b.arrivals, arrivals := 0 }) ∧
        (b.expect < b.cnt + b.arrivals → t.flag F.fldSyncErr_OVERRUN f.val = true ∧ t.getF F.fldSyncErr_OVR_GROUP f.val = g.val) ∧
        (b.cnt + b.arrivals ≤ b.expect → t.regs = s.regs) ∧ (∀ h, h ≠ g.val → t.bar f.val h = s.bar f.val h) ∧
        (∀ h, h ≠ f.val → t.field h = s.field h) ∧ keeps [.fields, .regs] s t) ∧
    (∀ (f : FieldNo) (g : Fin 256), (s.bar f.val g.val).arrivals = 0 → exec (.barrierArrival (.field f g)) s = .next s) ∧
    (∀ g : Fin 64, let n := s.getF F.hubWbar_CNT g.val + s.wbarArrivals g.val
      let x := s.getF F.hubWbar_EXPECT g.val
      s.hub.wbarInj = false → s.wbarArrivals g.val ≠ 0 → n < 2 ^ F.hubWbar_CNT.width →
      ∃ t, exec (.barrierArrival (.wafer g)) s = .next t ∧ t.wbarArrivals g.val = 0 ∧
        t.getF F.hubWbar_CNT g.val = (if x ≤ n then 0 else n) ∧
        t.flag F.hubWbar_SENSE g.val = (if x ≤ n then !s.flag F.hubWbar_SENSE g.val else s.flag F.hubWbar_SENSE g.val) ∧
        t.getF F.hubWbar_EXPECT g.val = x ∧ (x < n → t.flag F.hubWbarErr_OVERRUN = true ∧ t.getF F.hubWbarErr_OVR_GROUP = g.val) ∧
        keeps [.fields, .regs, .hub] s t) ∧
    (∀ (f : FieldNo) (u : TileNo) (g : BarGroup), let c := s.tile f.val u.val
      ∃ t, exec (.barrierRelease g) s = .next t ∧ keeps [.tiles, .fields, .regs, .hub] s t ∧
        (∀ k b, g = .field f k → c.wait = .barF k.val b → b ≠ (s.bar f.val k.val).sense → c.frozen = false → c.debugHalted = false →
          (t.tile f.val u.val).wait = .none ∧ (t.tile f.val u.val).waiting = false ∧
          (t.tile f.val u.val).pc = BitVec.ofNat 16 (c.pc.toNat + 2) ∧ (t.tile f.val u.val).sram = c.sram) ∧
        (∀ k b, g = .wafer k → c.wait = .barW k.val b → b ≠ s.flag F.hubWbar_SENSE k.val → c.frozen = false → c.debugHalted = false →
          (t.tile f.val u.val).wait = .none ∧ (t.tile f.val u.val).waiting = false ∧
          (t.tile f.val u.val).pc = BitVec.ofNat 16 (c.pc.toNat + 2) ∧ (t.tile f.val u.val).sram = c.sram) ∧
        ((match g, c.wait with
          | .field h k, .barF n b => h ≠ f ∨ n ≠ k.val ∨ b = (s.bar f.val k.val).sense
          | .wafer k, .barW n b => n ≠ k.val ∨ b = s.flag F.hubWbar_SENSE k.val
          | _, _ => True) → t.tile f.val u.val = c) ∧
        (∀ k b, g = .field f k → (s.seq f.val).wait = .barF k.val b → b ≠ (s.bar f.val k.val).sense → seqResumed f.val s t))

/-- R191 to R193, Table 9.2: the pool performs the operations on its cells one by one: set (which wakes every waiter and sets a bound
signal), clear (which clears a bound signal), wait and test, which change no cell; an acknowledgement completes CSET, CCLR, CTST, SCSET
and SCCLR (CTST with Z = 1 when the cell is clear) and a wake CWAIT and SCWAIT, each the one on its cell: an answer of a cell that its receiver no longer waits on is dropped; a poisoned
answer is a POISON fault. -/
def Obligations.CellPool : Prop :=
  ∀ (f : FieldNo) (s : State), let fld := s.field f.val
    (∀ r, nextCellOp fld.cellOps = some r → let c := s.cell f.val r.cell
      (r ∈ fld.cellOps ∧ ∀ q ∈ fld.cellOps, r.at_ < q.at_ ∨ (r.at_ = q.at_ ∧ r.by_.rank ≤ q.by_.rank)) ∧
      (∀ v : Bool, r.op = (if v then .set else .clear) → ∃ t, exec (.cellOperation f) s = .next t ∧
        t.cell f.val r.cell = { c with set := v, poison := false, err := fld.cellInj, waiters := if v then [] else c.waiters } ∧
        (∀ k, k ≠ r.cell → t.cell f.val k = s.cell f.val k) ∧ (t.field f.val).cellOps = fld.cellOps.erase r ∧
        (t.field f.val).cellWakes = fld.cellWakes ++ (if v then c.waiters.map fun w => ⟨w, r.cell, false, false, false⟩ else []) ∧
        (t.field f.val).cellAcks = fld.cellAcks ++ (if r.by_ = .gstage then [] else [⟨r.by_, r.cell, false, false, false⟩]) ∧
        (c.bound = true → c.sig < 32 → (t.tile f.val c.tile).sig.getLsbD c.sig = v) ∧
        (∀ g u, (c.bound = false ∨ tkey g u ≠ tkey f.val c.tile) → t.tile g u = s.tile g u) ∧ keeps [.tiles, .fields] s t) ∧
      (r.op = .test → c.err = 0 → r.by_ ≠ .gstage → ∃ t, exec (.cellOperation f) s = .next t ∧
        (∀ k, t.cell f.val k = s.cell f.val k) ∧ (t.field f.val).cellAcks = fld.cellAcks ++ [⟨r.by_, r.cell, !c.set, c.poison, true⟩] ∧
        keeps [.fields] s t) ∧
      (r.op = .wait → c.err = 0 → r.by_ ≠ .gstage → ∃ t, exec (.cellOperation f) s = .next t ∧ keeps [.fields] s t ∧
        (c.set = true → (∀ k, t.cell f.val k = s.cell f.val k) ∧
          (t.field f.val).cellWakes = fld.cellWakes ++ [⟨r.by_, r.cell, false, c.poison, false⟩]) ∧
        (c.set = false → t.cell f.val r.cell = { c with waiters := c.waiters ++ [r.by_] }))) ∧
    (fld.cellOps = [] → exec (.cellOperation f) s = .next s) ∧
    (∀ (u : TileNo) a k, let x : Site := .tile f u
      let c := s.tile f.val u.val
      fld.cellAcks.find? (fun b => b.who == .tile u.val) = some a →
      (c.wait = .cellAck k → k ≠ a.cell → ∃ t, exec (.cellAck f (.tile u)) s = .next t ∧ t.tiles = s.tiles ∧
        (t.field f.val).cellAcks = fld.cellAcks.erase a ∧ fieldOnly f.val s t) ∧
      (c.wait = .cellAck a.cell → ∃ t, exec (.cellAck f (.tile u)) s = .next t ∧
        (∀ y, y ≠ x → t.core y = s.core y) ∧ (t.field f.val).cellAcks = fld.cellAcks.erase a ∧ (t.tile f.val u.val).wait = .none ∧
        (a.poison = false → (t.tile f.val u.val).pc = BitVec.ofNat 16 (c.pc.toNat + 4) ∧
          (t.tile f.val u.val).flg = (if a.test then { c.flg with z := a.z } else c.flg) ∧ keeps [.tiles, .fields] s t) ∧
        (a.poison = true → (t.tile f.val u.val).fault = true ∧ (c.faultInfo = 0 → (t.tile f.val u.val).faultInfo.toNat % 2 ^ 8 = 9)))) ∧
    (∀ a, fld.cellAcks.find? (fun b => b.who == .seq) = some a → (s.seq f.val).wait = .cellAck a.cell →
      ∃ t, exec (.cellAck f .seq) s = .next t ∧ seqResumed f.val s t ∧ keeps [.fields, .regs] s t) ∧
    (∀ (u : TileNo) a k, let x : Site := .tile f u
      let c := s.tile f.val u.val
      fld.cellWakes.find? (fun b => b.who == .tile u.val) = some a →
      (c.frozen = true → exec (.cellWake f (.tile u)) s = .next s) ∧
      (c.frozen = false → c.debugHalted = false → c.wait = .cell k → k ≠ a.cell → ∃ t, exec (.cellWake f (.tile u)) s = .next t ∧
        t.tiles = s.tiles ∧ (t.field f.val).cellWakes = fld.cellWakes.erase a ∧ fieldOnly f.val s t) ∧
      (c.frozen = false → c.debugHalted = false → c.wait = .cell a.cell → a.poison = false → ∃ t, exec (.cellWake f (.tile u)) s = .next t ∧
        (t.tile f.val u.val).wait = .none ∧ (t.tile f.val u.val).waiting = false ∧ (t.tile f.val u.val).flg = c.flg ∧
        (t.tile f.val u.val).pc = BitVec.ofNat 16 (c.pc.toNat + 4) ∧ (∀ y, y ≠ x → t.core y = s.core y) ∧ keeps [.tiles, .fields] s t)) ∧
    (∀ a, fld.cellWakes.find? (fun b => b.who == .seq) = some a → (s.seq f.val).wait = .cell a.cell → a.poison = false →
      ∃ t, exec (.cellWake f .seq) s = .next t ∧ seqResumed f.val s t ∧ keeps [.fields, .regs] s t)

/-- R56, R90 to R92, R229, R394, Table 4.14: GLD, GST, TAS, LR and SC, their addresses checked and their local operand served, send one
access and wait for it with PC on them (a GST or TAS gives up the tile's reservation). GST and SC read their local operand before GA is
formed and checked, the others check GA first; one whose check is held stalls; an SC that does not hold the granule completes at once with
Z = 0 and C = 0 only when contention took the reservation. The response completes the access: the local operand, Z of TAS (old = 0), Z
and C of SC, whose reservation is gone; a failed access faults with GLOBAL = 1. A priority hold ends when its reservation is gone or
after 4 µs. -/
def Obligations.GlobalAccesses : Prop :=
  ∀ (f : FieldNo) (u : TileNo) (s : State), let x : Site := .tile f u
    let c := s.tile f.val u.val
    (∀ o : GLForm, s.canIssue x = true → o.zero = 0 → let w := AccW.ofCode o.w
      let gaOf (d : Tile) : Nat := (d.breg o.k.val * 2 ^ 16 + d.breg o.j.val) % 2 ^ 48
      let tn := s.actTenant f.val
      (∀ p ∈ ([(Instr.tGld, 0, Kind.read), (.tGst, 1, .write), (.tTas, 2, .atomic), (.tLr, 3, .atomic), (.tSc, 4, .atomic)] :
          List ((Site → GLForm → Instr) × Nat × Kind)), (2 ≤ p.2.1 → o.w = 3) →
        let src : Bool := p.2.1 == 1 || p.2.1 == 4
        let faults (ga : Nat) (cs : Cause) : Prop := ∃ t, exec (p.1 x o) s = .next t ∧
          faultsAt x s { cause := cs, glob := true, write := p.2.1 = 1 ∨ p.2.1 = 2 ∨ p.2.1 = 4, addr := ga } 0 t
        (src = false → s.holding tn = false → ∀ cs, s.gaCheck false tn (gaOf c) w.bytes w.bytes p.2.2 = some cs → faults (gaOf c) cs) ∧
        (src = true → ∀ fl, readOp x w o.l.toNat 0 { s := s } = .error fl → ∃ t, exec (p.1 x o) s = .next t ∧ faultsAt x s fl 0 t) ∧
        (∀ v e, glLocal x w src o.l.toNat 0 { s := s, known := src } = .ok (v, e) →
          let ga := gaOf (if src then e.s.tile f.val u.val else c)
          let chk := s.gaCheck false tn ga w.bytes w.bytes p.2.2
          (s.checkHeld tn chk = true → ∃ t, exec (p.1 x o) s = .next t ∧ coreOnly x s t ∧
            t.tile f.val u.val = { c with ts := (t.tile f.val u.val).ts, stallAt := (t.tile f.val u.val).stallAt } ∧
            (t.tile f.val u.val).qstall = true) ∧
          (s.holding tn = false → ∀ cs, chk = some cs → faults ga cs) ∧
          (chk = none → e.served → s.holding tn = false → (p.2.1 = 4 → c.holds (s.granKey ga) = true) → ∃ t, exec (p.1 x o) s = .next t ∧
            t.tile f.val u.val = { c with
              ts := (t.tile f.val u.val).ts, wait := .gl ⟨p.2.1, w, o.l, ga, v⟩, resv := match c.resv with
                | .held a b => if p.2.1 = 1 ∨ p.2.1 = 2 then .lost false else .held a b
                | r => r } ∧
            (∃ a ∈ t.mesh.outst, a.id = s.mesh.nextId ∧ a.agent = .tile f.val u.val ∧ a.purpose = .gl ∧ a.issued = s.now) ∧
            t.mesh.outst.length = s.mesh.outst.length + 1 ∧ (∀ y, y ≠ x → t.core y = s.core y) ∧ t.hbm = s.hbm))) ∧
      (o.w = 3 → ∀ v e, readOp x .w64 o.l.toNat 0 { s := s } = .ok (v, e) → e.served →
        let ga := gaOf (e.s.tile f.val u.val)
        s.gaCheck false tn ga 8 8 .atomic = none → s.holding tn = false → c.holds (s.granKey ga) = false → ∃ t, exec (.tSc x o) s = .next t ∧ coreOnly x e.s t ∧
          (t.tile f.val u.val).pc = BitVec.ofNat 16 ((e.s.tile f.val u.val).pc.toNat + 4) ∧ (t.tile f.val u.val).flg.z = false ∧
          (t.tile f.val u.val).flg.c = (if (e.s.tile f.val u.val).resv = .lost true then false else true) ∧
          (t.tile f.val u.val).resv = .none ∧ (t.tile f.val u.val).sram = (e.s.tile f.val u.val).sram)) ∧
    (∀ p g, s.inboxResp (.tile f.val u.val) (fun q => match q with | .gl => true | .get => true | _ => false) = some p →
      s.awaited p.access = true → c.wait = .gl g →
      let s0 : State := { s with mesh := { s.mesh with pkts := s.mesh.pkts.filter fun q => q.id != p.id, outst := s.mesh.outst.filter fun a => a.id != p.access } }
      let s1 := s0.setTile f.val u.val { c with wait := .none }
      let v := natLE p.data
      (p.err ≠ .ok → ∃ t, exec (.globalResponse f u) s = .next t ∧ faultsAt x s1
        { cause := if p.err = .protection then .protection else .poison, glob := true, write := g.sub = 1 ∨ g.sub = 2 ∨ g.sub = 4, addr := g.ga } 0 t) ∧
      (p.err = .ok → ∀ q e, glLocal x g.w (g.sub = 1 ∨ g.sub = 4) g.l.toNat v { s := s1 } = .ok (q, e) → e.pc = none →
        let d := e.s.tile f.val u.val
        ∃ t, exec (.globalResponse f u) s = .next t ∧ coreOnly x e.s t ∧
          (t.tile f.val u.val).pc = BitVec.ofNat 16 (d.pc.toNat + 4) ∧ (t.tile f.val u.val).wait = d.wait ∧
          (t.tile f.val u.val).flg = (if g.sub = 2 then { d.flg with z := v == 0 }
            else if g.sub = 4 then { d.flg with z := p.okBit, c := if p.okBit then false else !p.contend } else d.flg) ∧
          (g.sub = 4 → (t.tile f.val u.val).resv = .none) ∧
          (t.tile f.val u.val).sram = d.sram ∧ (t.tile f.val u.val).b = d.b)) ∧
    (∀ granule, ∃ t, exec (.priorityHoldEnd granule) s = .next t ∧ t = { s with mesh := { s.mesh with holds := t.mesh.holds } } ∧
      ∀ h : Hold, h ∈ t.mesh.holds ↔ h ∈ s.mesh.holds ∧
        ¬(h.granule = granule.toNat ∧ (h.since + 4000 ≤ s.now ∨ s.resvHeld h.key h.granule = false)))

/-- R88, R89, Table 4.12: the gather issues its elements in order, four at most on their way: element n reads STEP bytes at (bk × 65,536
+ index word) for DPTR + n × STEP; an element that has returned whole is stored, CNT counts down and SPTR and DPTR advance; the last ends
the instruction; one that failed faults with FAULT_ELEM = 16 − CNT. The model's own choices in it: assumption 119. -/
def Obligations.GatherElements : Prop :=
  ∀ (f : FieldNo) (u : TileNo) (s : State), let x : Site := .tile f u
    let c := s.tile f.val u.val
    (∀ o : RepForm, s.canIssue x = true → c.repeat_ = true → c.running 4 o = true → s.eventWaits f.val u.val = false →
      let n := c.gath.length
      let step := c.step.toNat
      let sp := c.sptr.toNat + 4 * n
      let dp := c.dptr.toNat + step * n
      let ga := c.breg o.k.val * 2 ^ 16 + Tab.readLE zeroByte c.sram sp 4 * step
      n < 4 → n < c.cnt.toNat → step % 8 = 0 → 8 ≤ step → step ≤ 2048 → sp + 4 ≤ 0xC000 → dp + step ≤ 0xC000 → dp % 8 = 0 → sp % 4 = 0 →
      c.errAt sp = 0 → ga < 2 ^ 48 →
      (s.gaCheck false (s.actTenant f.val) ga step 1 .read = none → s.holding (s.actTenant f.val) = false →
        ∃ t g, exec (.repeatElement x 4 o) s = .next t ∧ g.dst = dp ∧ g.len = step ∧ g.ga = ga ∧ g.data = [] ∧ g.bad = none ∧
          (∃ a ∈ t.mesh.outst, a.id = g.access ∧ a.agent = .tile f.val u.val) ∧
          t.tile f.val u.val = { c with gath := c.gath ++ [g], trace := (t.tile f.val u.val).trace, sramErr := (t.tile f.val u.val).sramErr } ∧
          t.mesh.outst.length = s.mesh.outst.length + 1 ∧ (∀ y, y ≠ x → t.core y = s.core y) ∧ t.hbm = s.hbm) ∧
      (∀ cs, s.gaCheck false (s.actTenant f.val) ga step 1 .read = some cs → s.holding (s.actTenant f.val) = false → n = 0 → c.cnt.toNat ≤ 16 →
        ∃ t, exec (.repeatElement x 4 o) s = .next t ∧ faultsAt x s { cause := cs, glob := true, addr := ga } (16 - c.cnt.toNat) t)) ∧
    (∀ p g, s.inboxResp (.tile f.val u.val) (fun q => match q with | .gather _ => true | _ => false) = some p →
      s.awaited p.access = true → c.gath = [g] → g.access = p.access → g.bad = none → c.cnt.toNat ≤ 16 → c.cnt ≠ 0 →
      (p.err = .ok → (g.data ++ p.data).length = g.len → ∃ t, exec (.gatherElementReturn f u) s = .next t ∧
        bytesPut c.sram (t.tile f.val u.val).sram g.dst (g.data ++ p.data) ∧ (t.tile f.val u.val).gath = [] ∧
        (t.tile f.val u.val).cnt = c.cnt - 1 ∧ (t.tile f.val u.val).sptr = c.sptr + 4 ∧ (t.tile f.val u.val).dptr = c.dptr + c.step ∧
        (t.tile f.val u.val).b = c.b ∧
        (c.cnt = 1 → (t.tile f.val u.val).repeat_ = false ∧ (t.tile f.val u.val).pc = BitVec.ofNat 16 (c.pc.toNat + 4)) ∧
        (c.cnt ≠ 1 → (t.tile f.val u.val).ts = c.ts ∧ (t.tile f.val u.val).pc = c.pc) ∧
        (∀ y, y ≠ x → t.core y = { s.core y with resv := (t.core y).resv }) ∧ keeps [.tiles, .mesh] s t) ∧
      (p.err ≠ .ok → ∃ t, exec (.gatherElementReturn f u) s = .next t ∧ (t.tile f.val u.val).fault = true ∧
        (t.tile f.val u.val).tsGet 8 4 = (16 - c.cnt.toNat) ∧ (t.tile f.val u.val).sram = c.sram ∧ (t.tile f.val u.val).cnt = c.cnt ∧
        (t.tile f.val u.val).pc = c.pc ∧ (t.tile f.val u.val).gath = [] ∧
        (c.faultInfo = 0 → (t.tile f.val u.val).faultInfo = BitVec.ofNat 64 ((if p.err = .protection then 6 else 9) + 2 ^ 8 + g.ga % 2 ^ 48 * 2 ^ 16)) ∧
        ∀ y, y ≠ x → t.core y = s.core y))

/-- R49 to R52, R119, Tables 3.2, 3.13: a write to a tile's control space from outside takes effect only while the tile is halted
(TS.FAULT or frozen), `TIL_EVENT` apart; otherwise it is discarded and sets EXT_DENY, and unassigned offsets take none; to a tile of an
offline field nothing is delivered (R43). A write of the signals is progress and wakes an SWAIT on one it sets (R189, R204). Through the
tile window a source that may reach the field reads without effect, and writes as through global tile space the tile that its `TIL_SEL`
names; another source's access is OWNER_CONFLICT. -/
def Obligations.TileOutsideWrites : Prop :=
  ∀ (f : FieldNo) (u : TileNo) (s : State), let x : Site := .tile f u
    let c := s.tile f.val u.val
    (∀ (off : BitVec 12) (v : DWord) (seq : Bool),
      let w (d : Tile) : Prop := s.offline f.val = false → ∃ t, exec (.tileOutsideWrite f u off v seq) s = .next t ∧
        (∀ y, y ≠ x → t.core y = s.core y) ∧ keeps [.tiles, .fields] s t ∧ t.tile f.val u.val = d ∧
        (∀ g, g ≠ f.val → t.field g = s.field g) ∧ (off ≠ 0x80 → t.fields = s.fields) ∧
        (off = 0x80 → t.field f.val = if d.sig = c.sig then s.field f.val else { s.field f.val with dlSince := s.now, dlCyc := 0 })
      (s.offline f.val = true → exec (.tileOutsideWrite f u off v seq) s = .next s) ∧
      (off.toNat % 8 ≠ 0 ∨ (0xB8 ≤ off.toNat ∧ off.toNat < 0x100) ∨ 0x180 ≤ off.toNat → exec (.tileOutsideWrite f u off v seq) s = .next s) ∧
      (off = 0xB0 → w (if v.getLsbD 0 then { c with extDeny := false } else c)) ∧
      (c.fault = false → c.frozen = false → off.toNat % 8 = 0 → off.toNat < 0xB0 ∨ (0x100 ≤ off.toNat ∧ off.toNat < 0x180) →
        w { c with extDeny := true }) ∧
      (c.fault = true ∨ c.frozen = true →
        (off = 0x08 → w { c with pc := BitVec.ofNat 16 v.toNat }) ∧
        (∀ k : Fin 8, off.toNat = 0x10 + 8 * k.val → w (c.setB k.val v.toNat)) ∧
        (off = 0x50 → w { c with acc0 := BitVec.ofNat 40 v.toNat }) ∧ (off = 0x58 → w { c with acc1 := BitVec.ofNat 40 v.toNat }) ∧
        (off = 0x60 → w { c with cnt := BitVec.ofNat 16 v.toNat }) ∧ (off = 0x68 → w { c with sptr := BitVec.ofNat 16 v.toNat }) ∧
        (off = 0x70 → w { c with dptr := BitVec.ofNat 16 v.toNat }) ∧ (off = 0x78 → w { c with step := BitVec.ofNat 16 v.toNat }) ∧
        (off = 0x80 → w { c with
          sig := BitVec.ofNat 32 v.toNat, wait := match c.wait with
            | .sig n b => .sig n (b || (BitVec.ofNat 32 v.toNat).getLsbD n)
            | r => r }) ∧ (off = 0x88 ∨ off = 0x98 → w c) ∧
        (off = 0x90 → seq = true → w { c with mode := BitVec.ofNat 64 (v.toNat % 2 ^ 4) }) ∧
        (off = 0x90 → seq = false → w { c with mode := BitVec.ofNat 64 (v.toNat % 2 ^ 3 + (if c.decProp then 2 ^ 3 else 0)) }) ∧
        (off = 0xA0 → w { c with circ0 := BitVec.ofNat 64 (v.toNat % 2 ^ 32) }) ∧
        (off = 0xA8 → w { c with circ1 := BitVec.ofNat 64 (v.toNat % 2 ^ 32) }) ∧
        (∀ i, i < 8 → off.toNat = 0x100 + 16 * i →
          w (if checkDesc u.val v.toNat = none then c.setDesc i v.toNat else { c with extDeny := true })) ∧
        (∀ i, i < 8 → off.toNat = 0x108 + 16 * i → w (c.setArmed i (v.getLsbD 0))))) ∧
    (∀ (src : Source) (off : BitVec 12) (w : AccW), off.toNat % w.bytes = 0 → 4 ≤ w.bytes →
      let h := s.busTurn src (windowOff f off)
      (h.mayReach src f.val = true → ∃ t, exec (.tileWindowRead src f off w) s = .next t ∧ recorded s t ∧ t.regs = s.regs) ∧
      (h.mayReach src f.val = false → ∃ t, exec (.tileWindowRead src f off w) s = .next t ∧ recorded s t ∧
        t.getF F.hubLastWriter_OUTCOME 0 0 (src.code + 1) = 3) ∧
      ∀ v : DWord,
        (h.mayReach src f.val = false → ∃ t, exec (.tileWindowWrite src f off w v) s = .next t ∧ recorded s t ∧
          t.getF F.hubLastWriter_OUTCOME 0 0 (src.code + 1) = 3) ∧
        (h.mayReach src f.val = true → 4900 ≤ s.getF F.tilSel_LTILE f.val 0 (src.code + 1) ∨ s.offline f.val = true →
          ∃ t, exec (.tileWindowWrite src f off w v) s = .next t ∧ recorded s t) ∧
        (h.mayReach src f.val = true → w = .w64 → s.getF F.tilSel_LTILE f.val 0 (src.code + 1) = u.val → s.offline f.val = false →
          off.toNat < 0xB8 ∨ (0x100 ≤ off.toNat ∧ off.toNat < 0x180) →
          ∃ t, recorded s t ∧ exec (.tileWindowWrite src f off w v) s = exec (.tileOutsideWrite f u off v false) t))

/-- R99, R103, R104, R106, R117, R118, R229: a sequencer instruction that is illegal, privileged, too long, or has an operand that faults
has no effect but its precise fault; one whose global operand has no answer yet sends one access and waits for it with pc on it; one
whose tenant's checks are held changes nothing. The model's own choices in it: assumptions 125 and 126. -/
def Obligations.SequencerFaults : Prop :=
  ∀ (f : FieldNo) (s : State) (i : SeqInstr), s.seqCan f.val = true →
    (∀ p ∈ ([(Instr.seqNop, {}), (.seqCmp, {}), (.seqTret, { tOnly := true }), (.seqEvwait, { width := false, mOnly := true }),
        (.seqCallt, { width := false, mOnly := true })] : List ((FieldNo → SeqInstr → Instr) × Legal)),
      ∀ fl, legality s f.val i p.2 false = some fl → ∃ t, exec (p.1 f i) s = .next t ∧ seqFaultsAt f.val s fl t) ∧
    (i.rep = false → legality s f.val i legRp false = none →
      (∀ fl, srcS (seqStart s f.val) f.val i i.a = .fault fl → ∃ t, exec (.seqMov f i) s = .next t ∧ seqFaultsAt f.val s fl t) ∧
      (∀ op ga n d, srcS (seqStart s f.val) f.val i i.a = .issue op ga n d → ∃ t, exec (.seqMov f i) s = .next t ∧
        (t.seq f.val) = { s.seq f.val with wait := .glob } ∧ t.spc f.val = s.spc f.val ∧
        (∃ a ∈ t.mesh.outst, a.id = s.mesh.nextId ∧ a.agent = .seq f.val ∧ a.purpose = .seqOp) ∧
        t.mesh.outst.length = s.mesh.outst.length + 1 ∧ t.tiles = s.tiles ∧ t.hbm = s.hbm ∧ t.hub = s.hub) ∧
      (srcS (seqStart s f.val) f.val i i.a = .hold → exec (.seqMov f i) s = .next s)) ∧
    (legality s f.val i {} false = some { cause := .illegal, addr := s.spc f.val } ↔
      (i.atomic = true ∨ i.rep = true ∨ osBad true i.d = true ∨ osBad false i.a = true ∨ osBad false i.b = true ∨
        (s.tmode f.val = false ∧ (s.seq f.val).mfault = true))) ∧
    (∀ l : Legal, l.mOnly = true → s.tmode f.val = true → ∀ bad, ∃ fl, legality s f.val i l bad = some fl ∧ fl.cause ∈ [Cause.illegal, .length, .priv])

/-- R112, R176, Table 5.7: GSTAGE starts the copy of B rows of table TW to tile SRAM from D on and goes on at once, a 17th waits; when
every row is back they are written in row order, the cell is set and a KIND 0x05 event is delivered; at the first row that failed the
rows before it are written, no cell is set, and a KIND 0x06 event names the row. The model's own choices in it: assumptions 121 and 129. -/
def Obligations.GstageRows : Prop :=
  ∀ (f : FieldNo) (s : State), let q := s.seq f.val
    (∀ (i : SeqInstr) a e1 b e2 ga e3 cell rows e4, seqMay s f.val i { width := false } (i.mode.toNat / 2 ^ 8 != 0) →
      srcS (seqStart s f.val) f.val i i.a = .ok a e1 → srcS e1 f.val i i.b = .ok b e2 → dstS e2 f.val i i.d = .ok (.glob ga) e3 →
      let n := b % 2 ^ 16
      let tn := e3.s.seqNames f.val i
      n ≠ 0 → n ≤ 256 → b / 2 ^ 28 % 2 ^ 36 = 0 → gaSpace ga = 1 → e3.s.holding tn = false →
      (16 ≤ (e3.s.seq f.val).gst.length → exec (.seqGstage f i) s = .next (s.setSeq f.val { q with wait := .gstageFull })) ∧
      ((e3.s.seq f.val).gst.length < 16 → e3.s.cellIndex f.val tn (b / 2 ^ 16 % 2 ^ 12) = .ok cell →
        readRows f.val n (a % 2 ^ 24) e3 = .ok rows e4 →
        let tb := e4.s.tbl tn (i.mode.toNat % 2 ^ 8)
        let epoch := (((e4.s.reqOf f.val tn).bind e4.s.bySlot).map (·.epoch)).getD (e4.s.getF F.hubEpochStatus_EPOCH tn)
        ∃ (t : State) (x : Gst), exec (.seqGstage f i) s = .next t ∧
          (t.seq f.val).gst = (e4.s.seq f.val).gst ++ [x] ∧ x.tenant = tn ∧ x.cell = cell ∧
          x.slot = (e4.s.reqOf f.val tn).getD 0 ∧
          (tb.bankFor epoch = none → x.rows = [] ∧ x.fail = some (0, .protection)) ∧
          (∀ base, tb.bankFor epoch = some base → tb.rowSize ≠ 0 →
            x.parts = (if base / 2 ^ 44 % 4 = 2 then (tb.rowSize + 255) / 256 else 1) ∧
            (x.fail = none → x.rows.length = n * x.parts) ∧
            (∀ k r, x.rows[k]? = some r → r.dst = ga + k / x.parts * tb.rowSize + 256 * (k % x.parts) ∧
              r.len = (if base / 2 ^ 44 % 4 = 2 then min 256 (tb.rowSize - 256 * (k % x.parts)) else tb.rowSize) ∧
              r.data = [] ∧ r.bad = none)) ∧
          t.spc f.val = (s.spc f.val + i.len) % 2 ^ 24 ∧ (t.seq f.val).wait = .none ∧ t.tiles = e4.s.tiles ∧ t.hbm = e4.s.hbm ∧
          (∀ g, g ≠ f.val → (t.field g).seq = (e4.s.field g).seq))) ∧
    ((s.field f.val).dlReset = false → ∀ g, q.gst.find? (fun g => g.firstBad.isNone && g.rows.all GathEl.back) = some g → 0 < g.parts →
      ∃ t, exec (.gstageDone f) s = .next t ∧
      t.seq f.val = { q with gst := q.gst.erase g, events := q.events ++ [{ kind := 5, tenant := g.tenant, arg := g.slot }] } ∧
      (t.field f.val).cellOps = (s.field f.val).cellOps ++ [{ by_ := .gstage, op := .set, cell := g.cell, at_ := s.now }] ∧
      (∀ r ∈ g.rows.getLast?, ∀ k, k < r.data.length →
        Tab.get zeroByte (t.tile (gaField r.dst) (gaTile r.dst)).sram (gaOff r.dst + k) = r.data.getD k 0) ∧
      (∀ h k a, (∀ r ∈ g.rows, tkey (gaField r.dst) (gaTile r.dst) ≠ tkey h k ∨ a < gaOff r.dst ∨ gaOff r.dst + r.data.length ≤ a) →
        Tab.get zeroByte (t.tile h k).sram a = Tab.get zeroByte (s.tile h k).sram a) ∧
      (∀ h k, (t.tile h k).b = (s.tile h k).b ∧ (t.tile h k).pc = (s.tile h k).pc ∧ (t.tile h k).ts = (s.tile h k).ts) ∧
      keeps [.tiles, .fields, .mesh] s t) ∧
    ((s.field f.val).dlReset = false → ∀ g k, q.gst.find? (fun g => match g.firstBad with
        | some k => (g.rows.take (k * g.parts)).all GathEl.back
        | none => false) = some g → g.firstBad = some k → ∃ t, exec (.gstageFault f) s = .next t ∧
      t.seq f.val = { q with gst := q.gst.erase g, events := q.events ++ [{ kind := 6, tenant := g.tenant, arg := k % 256 + g.slot * 256 }] } ∧
      (t.field f.val).cellOps = (s.field f.val).cellOps ∧
      (∀ h u a, (∀ r ∈ g.rows.take (k * g.parts), tkey (gaField r.dst) (gaTile r.dst) ≠ tkey h u ∨ a < gaOff r.dst ∨ gaOff r.dst + r.data.length ≤ a) →
        Tab.get zeroByte (t.tile h u).sram a = Tab.get zeroByte (s.tile h u).sram a) ∧
      keeps [.tiles, .fields, .mesh] s t)

/-- R22, R28, R100, R111, R113, R182, Tables 5.6, 5.7, 5.13: EVWAIT writes the next event record or waits; RQTAKE copies the oldest
delivered descriptor to SA D with Z = 0, or sets Z; PROJ projects the finish under a profile; ADMIT by the lead field decides a request
for its fields; RQEND ends a request in its field. The model's own choices in it: assumptions 121, 122, 123 and 128. -/
def Obligations.SequencerRequests : Prop :=
  ∀ (f : FieldNo) (s : State) (i : SeqInstr), seqMay s f.val i { width := false, mOnly := true } false →
    let q := (seqStart s f.val).s.seq f.val
    (q.events = [] → ∃ t, exec (.seqEvwait f i) s = .next t ∧ t = s.setSeq f.val { s.seq f.val with wait := .ev }) ∧
    (∀ v r pl e1 e2, q.events = v :: r → dstS (seqStart s f.val) f.val i i.d = .ok pl e1 →
      writeS e1 f.val i pl (v.kind + v.tenant * 2 ^ 8 + v.tile * 2 ^ 16 + v.arg * 2 ^ 32) = .ok () e2 →
      ∃ t, exec (.seqEvwait f i) s = .next t ∧
        seqEndsAt f.val { e2 with s := e2.s.setSeq f.val { e2.s.seq f.val with events := r } } (seqNext s f.val e2 i) t) ∧
    (∀ d e1, srcD (seqStart s f.val) f.val i = .ok d e1 →
      ((e1.s.seq f.val).deliv = [] → ∃ t, exec (.seqRqtake f i) s = .next t ∧ t.flag F.seqStat_Z f.val = true ∧
        (t.seq f.val).store = (e1.s.seq f.val).store ∧ t.spc f.val = seqNext s f.val e1 i % 2 ^ 24 ∧ keeps [.fields, .regs] e1.s t) ∧
      (∀ slot r rq, (e1.s.seq f.val).deliv = slot :: r → e1.s.bySlot slot = some rq → e1.s.saCheck f.val d (e1.s.spc f.val) = none →
        d + 64 ≤ 0x40000 → rq.desc.length = 64 → rq.fields.length = rq.shares.length → ∃ t, exec (.seqRqtake f i) s = .next t ∧
          t.flag F.seqStat_Z f.val = false ∧ (t.seq f.val).deliv = r ∧ (t.seq f.val).taken = some slot ∧
          t.spc f.val = seqNext s f.val e1 i % 2 ^ 24 ∧
          bytesPut (e1.s.seq f.val).store (t.seq f.val).store d (rq.desc.take 40 ++ bytesLE 8 rq.arrival ++ bytesLE 4 rq.epoch ++ bytesLE 4 rq.slot
            ++ bytesLE 1 rq.lead ++ bytesLE 1 rq.fields.length ++ bytesLE 2 (rq.shareOf f.val).1 ++ bytesLE 4 (rq.shareOf f.val).2) ∧
          (∃ x ∈ t.hub.reqs, x = { rq with taken := rq.taken ++ [f.val] }) ∧ keeps [.fields, .regs, .hub] e1.s t)) ∧
    (∀ a e1 b e2 pl e3 w e4 e5, srcS (seqStart s f.val) f.val i i.a = .ok a e1 → srcS e1 f.val i i.b = .ok b e2 →
      dstS e2 f.val i i.d = .ok pl e3 → a % 8 = 0 → readDesc e3 f.val a = .ok w e4 → w.2 = 0 → w.1 % 2 ^ 32 ≠ 0 →
      let s4 := e4.s
      ∀ rq, (s4.seq f.val).taken.bind s4.bySlot = some rq →
      let v := (s4.now - rq.arrival) + s4.recallTerm f.val + s4.sliceTerm f.val rq.tenant + s4.quiesceTerm f.val
        + s4.trstTerm f.val rq.tenant + w.1 % 2 ^ 32 + (b * (w.1 / 2 ^ 32 % 2 ^ 32) + 999) / 1000
      (∀ r ∈ s4.hub.reqs, r.out = true → r.admitted = true → r.fields.contains f.val = true → r.ended.contains f.val = false →
        r.slot = rq.slot) →
      writeS { e4 with s := s4.mapReq rq.slot fun r => { r with proj := r.proj ++ [(f.val, (s4.ten rq.tenant).variants w, v % 2 ^ 64)] } }
        f.val i pl (v % 2 ^ 64) = .ok () e5 →
      ∃ t, exec (.seqProj f i) s = .next t ∧ seqEndsAt f.val e5 (seqNext s f.val e5 i) t) ∧
    (∀ a e1 b e2, srcS (seqStart s f.val) f.val i i.a = .ok a e1 → srcS e1 f.val i i.b = .ok b e2 →
      (∀ r, e2.s.bySlot (a % 2 ^ 24) = some r → r.admitted = false → r.lead = f.val →
        let meets (v : Nat) : Prop := ∀ g ∈ r.fields, ∃ p, r.projOf v g = some p ∧ p ≤ r.deadline * 1000
        let fallback : Prop := (e2.s.ten r.tenant).hasFb = true ∧ r.noFallback = false ∧ meets 1
        (b = 0 ∧ meets 0 ∨ b = 1 ∧ ¬meets 0 ∧ fallback → ∃ t, exec (.seqAdmit f i) s = .next t ∧ t.spc f.val = seqNext s f.val e2 i % 2 ^ 24 ∧
          (∃ x ∈ t.hub.reqs, x = { r with admitted := true, variant := b, started := x.started }) ∧
          keeps [.fields, .regs, .hub, .ports, .ras, .sloe] e2.s t) ∧
        (b = 2 → ¬meets 0 → ¬fallback → ∃ t, exec (.seqAdmit f i) s = .next t ∧ t.spc f.val = seqNext s f.val e2 i % 2 ^ 24 ∧
          (t.port r.port).rejs = (e2.s.port r.port).rejs ++ [⟨r.tenant, r.ringSlot, 0x10, r.seqNo⟩] ∧
          (∀ x ∈ t.hub.reqs, ¬(x.tenant = r.tenant ∧ x.seqNo = r.seqNo)) ∧ keeps [.fields, .regs, .hub, .ports, .ras, .sloe] e2.s t)) ∧
      (∀ r, e2.s.bySlot (a % 2 ^ 24) = some r → r.admitted = true ∨ r.lead ≠ f.val ∨ b ≠ e2.s.decision r → ∃ t, exec (.seqAdmit f i) s = .next t ∧
        seqEndsAt f.val e2 (seqNext s f.val e2 i) t) ∧
      (∀ r, e2.s.bySlot (a % 2 ^ 24) = some r → f.val ∈ r.fields → f.val ∉ r.ended →
        (∀ g ∈ r.fields, g = f.val ∨ g ∈ r.ended) → r.admitted = true → ∃ t, exec (.seqRqend f i) s = .next t ∧
          t.spc f.val = seqNext s f.val e2 i % 2 ^ 24 ∧ (∃ pg : Page, (t.port r.port).pages = (e2.s.port r.port).pages ++ [pg] ∧
            pg.tenant = r.tenant ∧ pg.seqNo = r.seqNo ∧ pg.lead = r.lead ∧
            pg.status = pickStatus (r.stats ++ [b % 256]) (decide (r.arrival + r.deadline * 1000 < e2.s.now)) (r.variant == 1)) ∧
          (∀ x ∈ t.hub.reqs, ¬(x.tenant = r.tenant ∧ x.seqNo = r.seqNo))) ∧
      (∀ r g, e2.s.bySlot (a % 2 ^ 24) = some r → f.val ∈ r.fields → f.val ∉ r.ended → g ∈ r.fields → g ≠ f.val → g ∉ r.ended →
        ∃ t, exec (.seqRqend f i) s = .next t ∧ t.spc f.val = seqNext s f.val e2 i % 2 ^ 24 ∧
          (∃ x ∈ t.hub.reqs, x = { r with ended := r.ended ++ [f.val], stats := r.stats ++ [b % 256], started := x.started }) ∧
          keeps [.fields, .regs, .hub] e2.s t))

/-- R98, R102, R113, R114, R117, R159, R222, R223, Tables 5.6, 5.8: CALLT enters T mode at A for the tenant; TRST returns the tenant's
context in the field to the clean one; CTXSAVE keeps the resident context and CTXLOAD puts the incoming one in its place; an event
preempts T mode to the event entry (a free address, assumption 17), pc kept in `SEQ_TPC`; a halted sequencer gets its microcode anew and
runs from pc 0 (the model's choice, assumption 65). The model's own choices in it: assumptions 120, 122 and 130. -/
def Obligations.SequencerModes : Prop :=
  ∀ (f : FieldNo) (s : State),
    (∀ i : SeqInstr, seqMay s f.val i { width := false, mOnly := true } false → ∀ a e1, srcS (seqStart s f.val) f.val i i.a = .ok a e1 →
      (∃ t, exec (.seqCallt f i) s = .next t ∧ t.tmode f.val = true ∧ t.spc f.val = a % 2 ^ 24 ∧
        t.getF F.seqStat_TENANT f.val = (match i.tenant with
          | some u => u.val
          | none => e1.s.getF F.seqStat_TENANT f.val) ∧
        (t.seq f.val).retPc = (e1.s.spc f.val + i.len) % 2 ^ 24 ∧ (∀ g, g ≠ f.val → t.field g = e1.s.field g) ∧ keeps [.fields, .regs] e1.s t) ∧
      ((∃ g ∈ (e1.s.seq f.val).gst, g.tenant = a % 16) → ∃ t, exec (.seqTrst f i) s = .next t ∧
        t.field f.val = { s.field f.val with trst := (t.field f.val).trst } ∧ t.trstTerm f.val (a % 16) = 60000 ∧
        (∀ g, g ≠ f.val → t.field g = s.field g) ∧ keeps [.fields] s t) ∧
      ((∀ g ∈ (e1.s.seq f.val).gst, g.tenant ≠ a % 16) → e1.s.residentIs f.val (a % 16) = true → ∃ t, exec (.seqTrst f i) s = .next t ∧
        t.spc f.val = seqNext s f.val e1 i % 2 ^ 24 ∧ (t.dense f.val).queue = [] ∧ (t.dense f.val).running = none ∧
        (t.dense f.val).conv = [] ∧ (t.dense f.val).wload = [] ∧ (t.dense f.val).acc = [] ∧
        (∀ k, k < 4900 → let c := Tab.get (fun _ => Tile.reset) (e1.s.cleanImage (a % 16) f.val).tiles k
          let d := t.tile f.val k
          d.b = c.b ∧ d.pc = c.pc ∧ d.ts = c.ts ∧ d.desc = c.desc ∧ d.armed = c.armed ∧ d.qn = c.qn ∧ d.qe = c.qe ∧ d.qs = c.qs ∧
          d.qw = c.qw ∧ d.ql = c.ql ∧ d.acc0 = c.acc0 ∧ d.acc1 = c.acc1 ∧ d.resv = (e1.s.tile f.val k).loseEvent.resv ∧
          d.faultInfo = c.faultInfo ∧ d.frozen = false) ∧
        t.trstTerm f.val (a % 16) = 60000 ∧
        (∀ g k, g ≠ f.val → k < 4900 → (t.tile g k).sram = (e1.s.tile g k).sram ∧ (t.tile g k).b = (e1.s.tile g k).b ∧
          (t.tile g k).pc = (e1.s.tile g k).pc ∧ (t.tile g k).ts = (e1.s.tile g k).ts) ∧ (∀ g, g ≠ f.val → t.field g = e1.s.field g)) ∧
      (∀ tn, (e1.s.field f.val).resident = some tn →
        (e1.s.allCanTake f.val = false ∨ (e1.s.dense f.val).idle = false → exec (.seqCtxsave f i) s = .next s) ∧
        (e1.s.allCanTake f.val = true → (e1.s.dense f.val).idle = true → ∃ t im, exec (.seqCtxsave f i) s = .next t ∧
          Tab.get (fun _ => ({} : Image)) t.hub.saved (tn * 92 + f.val) = im ∧ im.clean = false ∧
          (∀ k, k < 4900 → let c := Tab.get (fun _ => Tile.reset) im.tiles k
            c.b = (t.tile f.val k).b ∧ c.acc0 = (t.tile f.val k).acc0 ∧ c.cnt = (t.tile f.val k).cnt ∧ c.desc = (t.tile f.val k).desc ∧
            c.qn = (t.tile f.val k).qn ++ (t.tile f.val k).pn ∧ c.mode = (t.tile f.val k).mode ∧ (t.tile f.val k).frozen = true) ∧
          im.bars = (e1.s.field f.val).bars ∧ (t.dense f.val).acc = [] ∧ (t.dense f.val).tops = [] ∧ (t.dense f.val).feed = [] ∧ (t.dense f.val).drain = [] ∧
          t.spc f.val = seqNext s f.val e1 i % 2 ^ 24)) ∧
      (∀ inc ph, (e1.s.field f.val).switching = some (inc, ph) →
        (ph ≠ 1 → exec (.seqCtxload f i) s = .next s) ∧
        (ph = 1 → ∃ t, exec (.seqCtxload f i) s = .next t ∧ (t.field f.val).switching = some (inc, 2) ∧
          t.getF F.seqStat_TENANT f.val = inc % 2 ^ 4 ∧
          (∀ k, k < 4900 → (t.tile f.val k).b = (Tab.get (fun _ => Tile.reset) (e1.s.loadable inc f.val).1.tiles k).b ∧
            (t.tile f.val k).desc = (Tab.get (fun _ => Tile.reset) (e1.s.loadable inc f.val).1.tiles k).desc) ∧
          t.spc f.val = seqNext s f.val e1 i % 2 ^ 24))) ∧
    (s.tmode f.val = true → (s.seq f.val).mustPreempt = true → (s.seq f.val).wait ∈ [SWait.none, .ev, .dwait] →
      ∃ t, exec (.seqPreempt f) s = .next t ∧ t.tmode f.val = false ∧ t.getF F.seqTpc_PC f.val = s.spc f.val ∧
        t.spc f.val = Config.eventEntry.toNat ∧ (t.seq f.val).p = (s.seq f.val).p ∧ (t.seq f.val).events = (s.seq f.val).events ∧
        keeps [.fields, .regs] s t) ∧
    (s.tmode f.val = false ∨ (s.seq f.val).mustPreempt = false → exec (.seqPreempt f) s = .next s) ∧
    (s.released = true → s.flag F.seqStat_HALTED f.val = true → ∃ t, exec (.microcodeReload f) s = .next t ∧
      t.flag F.seqStat_HALTED f.val = false ∧ t.tmode f.val = false ∧ t.spc f.val = 0 ∧ t.reg .seqFaultInfo f.val 0 0 = 0 ∧
      (t.seq f.val).wait = .none ∧ (∀ a, a < 0x20000 → Tab.get zeroByte (t.seq f.val).store a = Tab.get zeroByte s.sec.mc a) ∧
      (∀ a, 0x20000 ≤ a → Tab.get zeroByte (t.seq f.val).store a = Tab.get zeroByte (s.seq f.val).store a) ∧
      t.getF F.rasLogTail_TAIL = (s.getF F.rasLogTail_TAIL + 1) % 2 ^ F.rasLogTail_TAIL.width ∧
      t.tiles = s.tiles ∧ (∀ g, g ≠ f.val → t.field g = s.field g)) ∧
    (s.flag F.seqStat_HALTED f.val = false → exec (.microcodeReload f) s = .next s)

/-- R105, R144, R146, R147, R161, Table 7.1: WLOAD queues the copy of B bytes to the weight buffer, or faults; when its reads are back it
writes them, each 512-byte unit tagged with its tenant, and a read that failed is a precise fault; a frozen block waits; DPASS queues a
pass under the descriptor at SA A, or faults, or waits for room; DWAIT completes when the block is idle and waits otherwise. The model's
own choices in it: assumption 121. -/
def Obligations.DenseInstructions : Prop :=
  ∀ (f : FieldNo) (s : State), let dn := s.dense f.val
    (∀ (i : SeqInstr) a e1 b e2, seqMay s f.val i { width := false } (!s.tmode f.val && i.tenant.isNone) →
      srcS (seqStart s f.val) f.val i i.a = .ok a e1 → srcS e1 f.val i i.b = .ok b e2 →
      (∀ d e3, srcD e2 f.val i = .ok d e3 →
        (d % 512 ≠ 0 ∨ b % 512 ≠ 0 ∨ b = 0 ∨ 2 ^ 23 < d + b → ∃ t, exec (.seqWload f i) s = .next t ∧
          seqFaultsAt f.val s { cause := .localAddr, addr := d } t) ∧
        (d % 512 = 0 → b % 512 = 0 → b ≠ 0 → d + b ≤ 2 ^ 23 →
          (2 ^ 48 ≤ a ∨ 1 < gaSpace a → ∃ t, exec (.seqWload f i) s = .next t ∧
            seqFaultsAt f.val s { cause := .globalAddr, glob := true, addr := a } t) ∧
          (a < 2 ^ 48 → gaSpace a ≤ 1 → seqHolds e3.s f.val i = false → ∃ (t : State) (w : Wld), exec (.seqWload f i) s = .next t ∧
            (t.dense f.val).wload = (e3.s.dense f.val).wload ++ [w] ∧ (t.dense f.val).order = (e3.s.dense f.val).order + 1 ∧
            w.tenant = e3.s.seqNames f.val i ∧ w.off = d ∧ w.len = b ∧ w.order = (e3.s.dense f.val).order ∧
            (∀ k r, w.rows[k]? = some r → r.ga = a + 256 * k ∧ r.len = 256 ∧ r.data = [] ∧ r.bad = none ∧
              e3.s.gaCheck false w.tenant r.ga 256 1 .read = none) ∧
            (w.fail = none → w.rows.length = b / 256) ∧
            (∀ x, w.fail = some x → x.1 = a + 256 * w.rows.length ∧ e3.s.gaCheck false w.tenant x.1 256 1 .read = some x.2) ∧
            t.spc f.val = (s.spc f.val + i.len) % 2 ^ 24 ∧ (t.seq f.val).wait = .none ∧ t.tiles = e3.s.tiles ∧ t.hbm = e3.s.hbm ∧
            t.hub = e3.s.hub))) ∧
      (b = 0 ∨ 512 < b ∨ a % 8 ≠ 0 → ∃ t, exec (.seqDpass f i) s = .next t ∧
        seqFaultsAt f.val s { cause := .illegal, addr := e2.s.spc f.val } t) ∧
      (0 < b → b ≤ 512 → a % 8 = 0 → ∀ x y e3, readDesc e2 f.val a = .ok (x, y) e3 → x < 2 ^ 64 → y < 2 ^ 64 →
        let refused : Prop := x / 2 ^ 14 % 2 ^ 2 ≠ 0 ∨ x / 2 ^ 48 ≠ 0 ∨ y / 2 ^ 24 % 2 ^ 8 ≠ 0 ∨ y / 2 ^ 56 % 2 ^ 8 ≠ 0 ∨
          6 ≤ x / 2 ^ 45 % 2 ^ 3 ∨ ¬(x / 2 ^ 32 % 2 ^ 2 = 0 ↔ x / 2 ^ 34 % 2 ^ 2 = 0) ∨
          2 ^ 23 < x % 2 ^ 14 * 512 + tileBytes (x / 2 ^ 32 % 2 ^ 2)
        (refused → ∃ t, exec (.seqDpass f i) s = .next t ∧ seqFaultsAt f.val s { cause := .illegal, addr := e2.s.spc f.val } t) ∧
        (¬refused → 4 ≤ (e3.s.dense f.val).queue.length →
          exec (.seqDpass f i) s = .next (s.setSeq f.val { s.seq f.val with wait := .dpassFull })) ∧
        (¬refused → (e3.s.dense f.val).queue.length < 4 → ∃ t, exec (.seqDpass f i) s = .next t ∧
          let k := (e3.s.dense f.val).order
          let p : Pass :=
            { desc := x, rslot := y / 2 ^ 32, vecs := b, tenant := e3.s.seqNames f.val i, order := k, omul := y % 2 ^ 16,
              osh := y / 2 ^ 16 % 2 ^ 8 }
          t.dense f.val = { e3.s.dense f.val with queue := (e3.s.dense f.val).queue ++ [p], order := k + 1 } ∧
          t.spc f.val = (s.spc f.val + i.len) % 2 ^ 24 ∧ (t.seq f.val).wait = .none ∧ keeps [.fields, .regs] e3.s t))) ∧
    (∀ i : SeqInstr, seqMay s f.val i { width := false } false →
      let idle : Prop := dn.queue = [] ∧ dn.running = none ∧ dn.conv = [] ∧ dn.drainIn = [] ∧ dn.wload = []
      (idle → ∃ t, exec (.seqDwait f i) s = .next t ∧ seqEndsAt f.val (seqStart s f.val) (s.spc f.val + i.len) t) ∧
      (¬idle → exec (.seqDwait f i) s = .next (s.setSeq f.val { s.seq f.val with wait := .dwait }))) ∧
    (∀ w, dn.frozen = false → dn.wload.find? (fun w => w.rows.all GathEl.back
        && !dn.queue.any (fun p => !p.loaded && decide (p.order < w.order) && overlap w.off w.len p.woff (tileBytes p.wfmt))
        && !dn.wload.any (fun v => decide (v.order < w.order) && overlap w.off w.len v.off v.len)) = some w →
      ((∀ r ∈ w.rows, r.bad = none ∧ r.data.length = 256) → w.fail = none → w.rows.length % 2 = 0 → w.off % 512 = 0 →
        ∃ t, exec (.wloadComplete f) s = .next t ∧ keeps [.fields] s t ∧
          t.dense f.val = { dn with wload := dn.wload.erase w, wbuf := (t.dense f.val).wbuf, wtag := (t.dense f.val).wtag } ∧
          bytesPut dn.wbuf (t.dense f.val).wbuf w.off (w.rows.flatMap fun r => r.data) ∧
          ∀ u, Tab.get (fun _ => 0) (t.dense f.val).wtag u =
            if w.off / 512 ≤ u ∧ u < w.off / 512 + w.rows.length / 2 then w.tenant + 1 else Tab.get (fun _ => 0) dn.wtag u) ∧
      (∀ r l c, w.rows = r :: l → r.bad = some c → ∃ t, exec (.wloadComplete f) s = .next t ∧
        t.reg .seqFaultInfo f.val 0 0 = c.code + (if w.tm then 2 ^ 8 else 0) + 2 ^ 9 + r.ga % 2 ^ 48 * 2 ^ 16 ∧
        (w.tm = false → t.flag F.seqStat_HALTED f.val = true) ∧ (t.dense f.val).wbuf = dn.wbuf ∧
        (t.dense f.val).wload = dn.wload.erase w)) ∧
    (dn.wload = [] ∨ dn.frozen = true → exec (.wloadComplete f) s = .next s)

/-- R141 to R143, R145, R146, R148 to R157, R160: entries reach the lanes; a plane takes the units that carry its tenant's tag, others
load as zeros, with the column tops; a pass starts on the loaded plane; a vector takes one entry of each lane it uses and adds its products to the
accumulators, saturating at 56 bits; the end of a pass and of a conversion raises its event; the converter rounds and narrows A × OMUL
× 2^(OSH − 15) and writes the drain lanes; bf16 values that need no rounding convert exactly. -/
def Obligations.DenseStreaming : Prop :=
  ∀ (f : FieldNo) (s : State), let d := s.dense f.val
    (∀ (l : Fin 70) v r, lane d.feedIn l.val = v :: r → ∃ t, exec (.feedEntryArrival f l) s = .next t ∧ lane (t.dense f.val).feedIn l.val = r ∧
      (∀ k, k ≠ l.val → lane (t.dense f.val).feedIn k = lane d.feedIn k) ∧
      (∀ k, lane (t.dense f.val).feed k = lane d.feed k ++ (if k = l.val ∧ k < 64 then [v] else [])) ∧
      t.dense f.val = { d with feedIn := (t.dense f.val).feedIn, feed := (t.dense f.val).feed } ∧
      t.flag F.dnsErr_IDLE_LANE f.val = (s.flag F.dnsErr_IDLE_LANE f.val || decide (64 ≤ l.val)) ∧ keeps [.fields, .regs] s t) ∧
    (∀ (l : Fin 70) v r, lane d.drainIn l.val = v :: r → ∃ t, exec (.drainEntryArrival f l) s = .next t ∧ lane (t.dense f.val).drainIn l.val = r ∧
      (∀ k, k ≠ l.val → lane (t.dense f.val).drainIn k = lane d.drainIn k) ∧
      (∀ k, lane (t.dense f.val).drain k = lane d.drain k ++ (if k = l.val then [v] else [])) ∧
      t.dense f.val = { d with drainIn := (t.dense f.val).drainIn, drain := (t.dense f.val).drain } ∧ keeps [.fields] s t) ∧
    (∀ p r, d.queue = p :: r → d.frozen = false →
      (p.loaded = false → d.nextLoaded = false →
        (∀ w ∈ d.wload, w.order < p.order → overlap w.off w.len p.woff (tileBytes p.wfmt) = false) →
        ∃ t, exec (.planeLoadDone f) s = .next t ∧
          t.dense f.val = { d with
            queue := { p with loaded := true, bad := d.inj == 2 } :: r, next := (t.dense f.val).next, nextLoaded := true,
            inj := if d.inj = 1 ∨ d.inj = 2 then 0 else d.inj } ∧
          (∀ a, a < tileBytes p.wfmt → Tab.get zeroByte (t.dense f.val).next.w a =
            if Tab.get (fun _ => 0) d.wtag ((p.woff + a) / 512) = p.tenant + 1 ∧ (p.wbytes ≤ a → ∀ b, b < tileBytes p.wfmt →
                Tab.get (fun _ => 0) d.wtag ((p.woff + b) / 512) = p.tenant + 1) then Tab.get zeroByte d.wbuf (p.woff + a) else 0) ∧
          (t.flag F.dnsErr_STALE f.val = true ↔ s.flag F.dnsErr_STALE f.val = true ∨
            ∃ a, a < tileBytes p.wfmt ∧ Tab.get (fun _ => 0) d.wtag ((p.woff + a) / 512) ≠ p.tenant + 1) ∧
          (d.inj = 2 → t.flag F.dnsErr_POISON f.val = true) ∧ keeps [.fields, .regs, .ras, .sloe] s t) ∧
      (d.running = none → p.loaded = true → (p.fence = true → d.conv = []) → (∀ c ∈ d.conv, c.pass.bank ≠ p.bank) →
        ∃ t, exec (.passStreamStart f) s = .next t ∧ keeps [.fields] s t ∧
          t.dense f.val = { d with
            queue := r, running := some p, plane := d.next, next := {}, nextLoaded := false, vec := 0, tops := (t.dense f.val).tops } ∧
          ∀ k, Tab.get (fun _ => (0 : Half)) (t.dense f.val).tops k =
            if p.clr = true ∧ p.wfmt ≠ 0 ∧ p.bank * 256 ≤ k ∧ k < p.bank * 256 + p.n then
              BitVec.ofNat 16 (Tab.readLE zeroByte d.next.w (p.wbytes + 2 * (k - p.bank * 256)) 2)
            else Tab.get (fun _ => (0 : Half)) d.tops k)) ∧
    (∀ p, d.running = some p → d.frozen = false → (∀ e, e < p.inLanes → lane d.feed e ≠ []) → ∃ t, exec (.vectorEntry f) s = .next t ∧
      let v (n : Nat) : Int := (if p.clr then 0 else (Tab.get (fun _ => (0 : BitVec 56)) d.acc (accKey p.bank n d.vec)).toInt)
        + (d.column p (d.input p) n).1
      let fin : Bool := decide (p.vecs ≤ d.vec + 1)
      t.dense f.val = { d with
        acc := (t.dense f.val).acc, feed := (t.dense f.val).feed, vec := d.vec + 1, running := if fin then none else some p,
        ending := if fin then d.ending ++ [p] else d.ending, conv := if fin && p.final then d.conv ++ [⟨p, 0⟩] else d.conv } ∧
      (∀ e, lane (t.dense f.val).feed e = if e < p.inLanes then (lane d.feed e).drop 1 else lane d.feed e) ∧
      (∀ n, n < p.n → (Tab.get (fun _ => (0 : BitVec 56)) (t.dense f.val).acc (accKey p.bank n d.vec)).toInt =
        max (-2 ^ 55) (min (2 ^ 55 - 1) (v n))) ∧
      (∀ k, (∀ n, n < p.n → k ≠ accKey p.bank n d.vec) →
        Tab.get (fun _ => (0 : BitVec 56)) (t.dense f.val).acc k = Tab.get (fun _ => (0 : BitVec 56)) d.acc k) ∧
      (t.flag F.dnsErr_ACC_SAT f.val = true ↔ s.flag F.dnsErr_ACC_SAT f.val = true ∨ ∃ n, n < p.n ∧ (v n < -2 ^ 55 ∨ 2 ^ 55 ≤ v n)) ∧
      (p.wfmt = 0 → p.xfmt = 0 → ∀ n, n < p.n → (d.column p (d.input p) n).1 = ((List.range p.k).map fun k =>
        signedOf 8 (((lane d.feed (k / 8)).headD 0).toNat / 2 ^ (8 * (k % 8)) % 2 ^ 8)
          * signedOf 8 (Tab.get zeroByte d.plane.w (k * 256 + n)).toNat).sum) ∧
      keeps [.fields, .regs, .ras, .sloe] s t) ∧
    (d.frozen = true → exec (.passEnd f) s = .next s) ∧
    (∀ p r, d.ending = p :: r → d.frozen = false → ∃ t, exec (.passEnd f) s = .next t ∧ t.dense f.val = { d with ending := r } ∧
      (t.seq f.val).events = (s.seq f.val).events ++
        (if p.final = false ∧ (p.evt = true ∨ p.bad = true) then [{ kind := 4, tenant := p.tenant, arg := p.rslot }] else []) ∧
      (s.flag F.hubCntCtrl_FREEZE = false → s.getF F.dnsCntPass_COUNT f.val < 2 ^ 48 - 1 →
        t.getF F.dnsCntPass_COUNT f.val = s.getF F.dnsCntPass_COUNT f.val + 1) ∧ keeps [.fields, .regs, .ras, .sloe] s t) ∧
    (∀ c r, d.conv = c :: r → d.frozen = false → let p := c.pass
      let w := ofmtBits p.ofmt / 8
      (c.next < p.vecs → (∀ e, e < p.outLanes → (lane d.drain e).length + (lane d.drainIn e).length < 16) → ∃ t,
        exec (.vectorConvert f) s = .next t ∧ keeps [.fields, .regs, .ras, .sloe] s t ∧
        t.dense f.val = { d with
          drainIn := (t.dense f.val).drainIn, conv := ⟨{ p with bad := p.bad || d.inj == 4 }, c.next + 1⟩ :: r,
          inj := if d.inj = 3 ∨ d.inj = 4 then 0 else d.inj } ∧
        (∀ e, p.outLanes ≤ e → lane (t.dense f.val).drainIn e = lane d.drainIn e) ∧
        (∃ x : Nat → DWord, (∀ e, e < p.outLanes → lane (t.dense f.val).drainIn e = lane d.drainIn e ++ [x e]) ∧
          (∀ n, n < p.n → (x (n * w / 8)).toNat / 2 ^ (8 * (n * w % 8)) % 2 ^ (8 * w) = (d.output p c.next n).1 % 2 ^ (8 * w)) ∧
          ∀ e b, p.n * w ≤ 8 * e + b → b < 8 → (x e).toNat / 2 ^ (8 * b) % 2 ^ 8 = 0) ∧
        (∀ n, d.output p c.next n = convertOut p.ofmt p.rnd p.sat
          ⟨if p.act = true ∧ (Tab.get (fun _ => (0 : BitVec 56)) d.acc (accKey p.bank n c.next)).toInt * p.omul < 0 then 0
            else (Tab.get (fun _ => (0 : BitVec 56)) d.acc (accKey p.bank n c.next)).toInt * p.omul,
          (if p.wfmt = 0 then 0 else (Tab.get (fun _ => (0 : Half)) d.tops (p.bank * 256 + n)).toInt - 48) + (signedOf 8 p.osh - 15)⟩)) ∧
      (p.vecs ≤ c.next → ∃ t, exec (.conversionDone f) s = .next t ∧ t.dense f.val = { d with conv := r } ∧ keeps [.fields] s t ∧
        (t.seq f.val).events = (s.seq f.val).events ++
          (if p.evt = true ∨ p.bad = true then [{ kind := 4, tenant := p.tenant, arg := p.rslot }] else []))) ∧
    (∀ (o rnd : Nat) (sat : Bool) (m : Int) (k : Nat), o ≠ 1 → rnd < 4 → ∃ q, rounded rnd m k q ∧
      narrowed (ofmtBits o) sat q (convertOut o rnd sat ⟨m, -(k : Int) - ofmtFrac o⟩).1 (convertOut o rnd sat ⟨m, -(k : Int) - ofmtFrac o⟩).2) ∧
    (∀ (rnd v : Nat) (sat : Bool) (b : Bin), v < 2 ^ 16 → floatOf 3 v = some b → convertOut 1 rnd sat b = (if b.m = 0 then 0 else v, false)) ∧
    (∀ src, writes (.dnsErrClear src f) s fun u t => regOnly .dnsErr f.val 0 [F.dnsErr_CORR, F.dnsErr_UNCORR] u t ∧
      t.getF F.dnsErr_CORR f.val = 0 ∧ t.getF F.dnsErr_UNCORR f.val = 0)

/-- Every step keeps the memory of the HBM stacks, their error marks and the Hub's tables in canonical form: keys strictly rising, no
entry equal to what an unlisted key reads as. -/
def Obligations.HbmStaysCanonical : Prop :=
  ∀ s t : State, canonical s → step s = .next t → canonical t

/-- The state after reset is canonical. -/
def Obligations.CanonicalAtReset : Prop :=
  canonical State.reset

/-- R164, R165, R167, R174, R299: HBM_ACCESS performs the oldest request that has reached a stack and answers it: a read takes the
bytes, or is poisoned by an uncorrectable error or an offline stack; a write stores its bytes, unless an engine agent writes into a
registered bank; an atomic answers the old bytes. A patrol scrub pass corrects every single-bit error of its stack. -/
def Obligations.HbmAccesses : Prop :=
  ∀ (m : Stack) (s : State),
    (s.inboxReq (.hbm m.val) = none → exec (.hbmAccess m) s = .next s) ∧
    (∀ p, s.inboxReq (.hbm m.val) = some p → p.ext = none → 0 < p.len → p.len ≤ 256 →
      let rest := s.mesh.pkts.filter fun q => q.id != p.id
      let off := s.stackOff (stackOf p.ga)
      let old := Tab.readBytes zeroByte s.hbm.bytes p.ga p.len
      let bad := (unitsOf p.ga p.len).any fun u => s.hbmErrAt u == 2
      let answer (r : Packet) (k : PktOp) (e : RespErr) (d : List Byte) : Prop :=
        r.access = p.access ∧ r.purpose = p.purpose ∧ r.dst = p.src ∧ r.op = k ∧ r.err = e ∧ r.data = d
      (p.op = .read → ∃ t r, exec (.hbmAccess m) s = .next t ∧ t.mesh.pkts = rest ++ [r] ∧ t.hbm.bytes = s.hbm.bytes ∧
        (if p.err ≠ .ok ∨ off = true ∨ bad = true then answer r .readData .poison [] else answer r .readData .ok old) ∧
        keeps [.hbm, .regs, .mesh, .ras, .sloe] s t) ∧
      (p.op = .write ∨ p.op = .posted → ∃ t r, exec (.hbmAccess m) s = .next t ∧ t.mesh.pkts = rest ++ [r] ∧
        keeps [.hbm, .regs, .mesh, .ras, .sloe, .tiles] s t ∧
        (if p.err ≠ .ok ∨ off = true then answer r .writeAck .poison [] ∧ t.hbm.bytes = s.hbm.bytes
          else if p.src ≠ .hub ∧ s.banksOver p.ga p.len ≠ [] then answer r .writeAck .protection [] ∧ t.hbm.bytes = s.hbm.bytes
          else answer r .writeAck .ok [] ∧ bytesPut s.hbm.bytes t.hbm.bytes p.ga p.data)) ∧
      (∀ a, p.op = .atomic a → p.err = .ok → off = false → bad = false → (∀ pri, a ≠ .lr pri) → s.banksOver p.ga p.len = [] →
        ∃ t r, exec (.hbmAccess m) s = .next t ∧ t.mesh.pkts = rest ++ [r] ∧ answer r .readData .ok old ∧
          (match a with
           | .tas => bytesPut s.hbm.bytes t.hbm.bytes p.ga (bytesLE p.len 1)
           | .xchg v => bytesPut s.hbm.bytes t.hbm.bytes p.ga (bytesLE p.len v.toNat)
           | .cas x v => bytesPut s.hbm.bytes t.hbm.bytes p.ga
             (if natLE old = x.toNat % 2 ^ (8 * p.len) then bytesLE p.len v.toNat else old)
           | .rmw op v => bytesPut s.hbm.bytes t.hbm.bytes p.ga (bytesLE p.len (rmwOp op.toNat (8 * p.len) (natLE old) v.toNat))
           | .sc v => r.okBit = s.scHome p ∧ bytesPut s.hbm.bytes t.hbm.bytes p.ga (if s.scHome p then bytesLE p.len v.toNat else old)
           | .lr _ => True))) ∧
    (canonical s →
      let due : Prop := m.val ∈ s.hbm.scrubDue ∨ (s.getF F.hbmScrub_PERIOD ≠ 0 ∧
        Tab.get (fun _ => 0) s.hbm.scrubAt m.val + s.getF F.hbmScrub_PERIOD * 3600000000000 ≤ s.now)
      (¬due ∨ s.stackOff m.val = true → exec (.patrolScrub m) s = .next s) ∧
      (due → s.stackOff m.val = false → ∃ t, exec (.patrolScrub m) s = .next t ∧ t.hbm.bytes = s.hbm.bytes ∧
        (∀ u, t.hbmErrAt u = if s.hbmErrAt u = 1 ∧ u * 64 / 0x900000000 = m.val then 0 else s.hbmErrAt u) ∧
        m.val ∉ t.hbm.scrubDue ∧ t.flag F.hbmStat_SCRUB_BUSY m.val = false ∧ keeps [.hbm, .regs] s t)) ∧
    (∀ bank, exec (.hbmRefresh m bank) s = .next s) ∧
    (∀ src, writes (.hbmErrClear src m) s fun u t => regOnly .hbmErr m.val 0 [F.hbmErr_CORR, F.hbmErr_UNCORR, F.hbmErr_SCRUB_FIX] u t ∧
      t.getF F.hbmErr_CORR m.val = 0 ∧ t.getF F.hbmErr_UNCORR m.val = 0 ∧ t.getF F.hbmErr_SCRUB_FIX m.val = 0)

/-- R127 to R131, R135: a hop moves a packet to its next place, column before row, when the buffer there has room for it and nothing
goes before it; the room it leaves is owed until its credit returns; 100 ms after its issue an access completes as poisoned; CLEAR
zeroes the counters of a field's bridge and of a trunk router. -/
def Obligations.PacketHops : Prop :=
  ∀ (s : State) (id : Nat),
    (s.mesh.pkts.find? (fun p => p.id == id) = none → exec (.packetHop id) s = .next s) ∧
    (∀ p, s.mesh.pkts.find? (fun p => p.id == id) = some p → let n := s.nextHop p
      (p.arrived = true ∨ s.blocked p n.1 = true → exec (.packetHop id) s = .next s) ∧
      (p.arrived = false → n.1 ≠ .done → s.bufferUsed p.node n.1 p.cls n.2 + (16 + p.data.length) > bufferSize n.1 →
        exec (.packetHop id) s = .next s) ∧
      (p.arrived = false → n.1 ≠ .done → s.blocked p n.1 = false →
        s.bufferUsed p.node n.1 p.cls n.2 + (16 + p.data.length) ≤ bufferSize n.1 →
        (∀ f u, p.node = .tile f u → (s.field f).laneInj = 0) → (∀ r, p.node = .router r → Tab.get (fun _ => 0) s.mesh.trunkInj r = 0) →
        ∃ t, exec (.packetHop id) s = .next t ∧ keeps [.mesh] s t ∧ t.mesh.outst = s.mesh.outst ∧
          t.mesh.pkts = s.mesh.pkts.map (fun q => if q.id = id then { p with prev := p.node, node := n.1, up := n.2 } else q) ∧
          t.mesh.debts = s.mesh.debts ++ (if p.prev = p.node then [] else [⟨p.id, p.prev, p.node, p.cls, p.up, 16 + p.data.length⟩])) ∧
      (∀ f a b, p.node = .tile f a → p.dst = .tile f b → a ≠ b → n.1 = .tile f
        (if a % 70 < b % 70 then a + 1 else if b % 70 < a % 70 then a - 1 else if a / 70 < b / 70 then a + 70 else a - 70)) ∧
      (∀ r f u, p.node = .router r → p.dst = .tile f u → s.pfield f ≠ r → let q := s.pfield f
        n.1 = if r % 12 = q % 12 then .router (if r / 12 < q / 12 then r + 12 else r - 12)
          else if r % 12 < q % 12 then (if r % 12 = 5 then .junction (r / 12) else .router (r + 1))
          else (if r % 12 = 6 then .junction (r / 12) else .router (r - 1)))) ∧
    (∀ d, s.mesh.debts.find? (fun d => d.id == id) = some d →
      exec (.routerCreditReturn id) s = .next { s with mesh := { s.mesh with debts := s.mesh.debts.erase d } }) ∧
    (s.mesh.debts.find? (fun d => d.id == id) = none → exec (.routerCreditReturn id) s = .next s) ∧
    (∀ a, s.mesh.outst.find? (fun a => a.id == id) = some a →
      (s.now < a.issued + 100000000 → exec (.accessTimeout id) s = .next s) ∧
      (a.issued + 100000000 ≤ s.now → ∃ t, exec (.accessTimeout id) s = .next t ∧ t.hbm = s.hbm ∧ t.tiles = s.tiles ∧
        (a.hostPort < 4 → t.getF F.prtErr_HOST_ERR a.hostPort = min 0xFFFF (s.getF F.prtErr_HOST_ERR a.hostPort + 1)) ∧
        (a.agent.field < 92 → t.getF F.fldBrErr_TIMEOUT a.agent.field = min 0xFFFF (s.getF F.fldBrErr_TIMEOUT a.agent.field + 1)) ∧
        (∀ f u, a.agent = .tile f u → ∃ r : Packet, t.mesh.pkts = (s.mesh.pkts.filter fun p => p.access != id) ++ [r] ∧ r.access = id ∧
          r.err = .poison ∧ r.dst = a.agent ∧ r.purpose = a.purpose ∧ r.arrived = true ∧ t.mesh.outst = s.mesh.outst) ∧
        (∀ f, a.agent = .seq f → a.purpose = .seqOp → t.mesh.outst = (s.mesh.outst.filter fun b => b.id != id) ∧
          (t.seq f).got = (s.seq f).got ++ [([], .poison, false)] ∧
          (t.seq f).wait = if (s.seq f).wait = .glob then .none else (s.seq f).wait))) ∧
    (s.mesh.outst.find? (fun a => a.id == id) = none → exec (.accessTimeout id) s = .next s) ∧
    (∀ src (f : FieldNo), writes (.fldBrErrClear src f) s fun u t =>
      regOnly .fldBrErr f.val 0 [F.fldBrErr_CORR, F.fldBrErr_UNCORR, F.fldBrErr_TIMEOUT] u t ∧
      t.getF F.fldBrErr_CORR f.val = 0 ∧ t.getF F.fldBrErr_UNCORR f.val = 0 ∧ t.getF F.fldBrErr_TIMEOUT f.val = 0) ∧
    (∀ src (p : PField), writes (.hubBrTrunkClear src p) s fun u t => regOnly .hubBrTrunk p.val 0 [F.hubBrTrunk_CORR, F.hubBrTrunk_UNCORR] u t ∧
      t.getF F.hubBrTrunk_CORR p.val = 0 ∧ t.getF F.hubBrTrunk_UNCORR p.val = 0)

/-- R239, R240, R243 to R246, R253 to R257, R259, R260, Tables 11.3 to 11.6: a doorbell publishes the slots up to N or counts as bad,
as does RS_HEAD; ENABLE, FLUSH and the ring registers change by their rules; a REJECT word and a result page are written to host memory
as posted credit allows, the completion word last; credit returns; a tenant that waits 50 ms is stalled and raises RAS event 0x0A; the
ring's message is sent once due. -/
def Obligations.HostRings : Prop :=
  ∀ (p : Port) (tn : Tenant) (s : State), let x := s.port p.val
    let g := Guard.port p.val
    let d (a b : Nat) : Nat := (a + 2 ^ 32 - b) % 2 ^ 32
    let bad (t : State) : Prop := keeps [.regs] s t ∧ regsKept [.prtErr, .prtStat] s t ∧ t.flag F.prtStat_DOORBELL_BAD p.val = true ∧
      t.getF F.prtErr_DOORBELL_BAD p.val = min 0xFFFF (s.getF F.prtErr_DOORBELL_BAD p.val + 1)
    (s.linkUp p.val = false → ∀ off w v, exec (.doorbell p tn off w v) s = .next s) ∧
    (∀ w v, exec (.rsHeadWrite p tn w v) s = exec (.doorbell p tn 0x10 w v) s) ∧
    (s.linkUp p.val = true →
      (∀ off w v, w.bytes < 4 ∨ off.toNat % w.bytes ≠ 0 ∨ off.toNat ∉ [0, 4, 0x10, 0x14] →
        ∃ t, exec (.doorbell p tn off w v) s = .next t ∧ bad t) ∧
      ∀ (w : AccW) (v : DWord), 4 ≤ w.bytes → let n := v.toNat % 2 ^ 32
        let k := d n (x.index tn.val 0)
        let room := k < 2 ^ 31 ∧ k + d (x.index tn.val 0) (x.index tn.val 1) ≤ 2 ^ s.getF F.prtRqCfg_LOG2 p.val tn.val
        (s.flag F.prtRingCtrl_ENABLE p.val tn.val = false ∨ k ≠ 0 ∧ ¬room → ∃ t, exec (.doorbell p tn 0 w v) s = .next t ∧ bad t) ∧
        (s.flag F.prtRingCtrl_ENABLE p.val tn.val = true → k = 0 → exec (.doorbell p tn 0 w v) s = .next s) ∧
        (s.flag F.prtRingCtrl_ENABLE p.val tn.val = true → k ≠ 0 → room → ∃ t, exec (.doorbell p tn 0 w v) s = .next t ∧ keeps [.ports] s t ∧
          (∀ q, q ≠ p.val → t.port q = s.port q) ∧
          (t.port p.val).published = x.published ++ (List.range k).map (fun i => (tn.val, (x.index tn.val 0 + i) % 2 ^ 32, s.now)) ∧
          (∀ u i, i < 4 → (t.port p.val).index u i = if u = tn.val ∧ i = 0 then n else x.index u i)) ∧
        (d (x.index tn.val 3) (x.index tn.val 2) < d n (x.index tn.val 2) → ∃ t, exec (.rsHeadWrite p tn w v) s = .next t ∧ bad t) ∧
        (d n (x.index tn.val 2) ≤ d (x.index tn.val 3) (x.index tn.val 2) → ∃ t, exec (.rsHeadWrite p tn w v) s = .next t ∧
          keeps [.ports] s t ∧ (∀ q, q ≠ p.val → t.port q = s.port q) ∧
          ∀ u i, i < 4 → (t.port p.val).index u i = if u = tn.val ∧ i = 2 then n else x.index u i)) ∧
    (∀ src, maySource s src g →
      (∀ v : DWord, v.getLsbD 1 = false → writes (.ringEnable src p tn v) s fun u t =>
        t.getF F.prtRingCtrl_VEC p.val tn.val = v.toNat / 2 ^ 2 % 2 ^ 6 ∧ t.getF F.prtRingCtrl_IRQ_GAP p.val tn.val = v.toNat / 2 ^ 16 % 2 ^ 16 ∧
        (let rq := s.getF F.prtRqCfg_LOG2 p.val tn.val
        let rs := s.getF F.prtRsCfg_LOG2 p.val tn.val
        let legal := s.flag F.hubTenStat_OWNED tn.val = true ∧ s.getF F.hubTenStat_OWNER tn.val = p.val ∧
          (s.tenState tn.val = 1 ∨ s.tenState tn.val = 2) ∧ 4 ≤ rq ∧ rq ≤ 16 ∧ 2 ≤ rs ∧ rs ≤ 14 ∧ x.waiting tn.val = 0
        (v.getLsbD 0 = false → t.flag F.prtRingCtrl_ENABLE p.val tn.val = false ∧ t.flag F.prtRingStat_ENABLED p.val tn.val = false ∧
          keeps [.regs] u t) ∧
        (v.getLsbD 0 = true → ¬legal → t.flag F.prtRingStat_REFUSED p.val tn.val = true ∧ keeps [.regs] u t ∧
          t.flag F.prtRingCtrl_ENABLE p.val tn.val = s.flag F.prtRingCtrl_ENABLE p.val tn.val) ∧
        (v.getLsbD 0 = true → legal → s.flag F.prtRingCtrl_ENABLE p.val tn.val = false → t.flag F.prtRingCtrl_ENABLE p.val tn.val = true ∧
          t.flag F.prtRingStat_ENABLED p.val tn.val = true ∧ (∀ i, i < 4 → (t.port p.val).index tn.val i = 0) ∧
          keeps [.regs, .ports, .hub] u t))) ∧
      writes (.flush src p tn) s (fun u t => (t.port p.val).rejs = x.rejs.filter (fun r => r.tenant != tn.val) ∧
        (t.port p.val).pages = x.pages.filter (fun h => h.tenant != tn.val) ∧ t.flag F.prtRingStat_STALLED p.val tn.val = false ∧
        t.getF F.prtRingStat_FLUSHED p.val tn.val = min 0xFFFF (s.getF F.prtRingStat_FLUSHED p.val tn.val + x.waiting tn.val) ∧
        (∀ q, q ≠ p.val → t.port q = s.port q) ∧ keeps [.regs, .ports] u t) ∧
      (∀ (rs : Bool) (v : DWord), writes (.ringConfigWrite src p tn rs v) s fun u t =>
        let r := if rs then Reg.prtRsCfg else Reg.prtRqCfg
        let idle := s.flag F.prtRingCtrl_ENABLE p.val tn.val = false ∧ x.waiting tn.val = 0
        keeps [.regs] u t ∧ regsKept [r, .prtRingStat] u t ∧
        (idle → t.reg r p.val tn.val 0 % 2 ^ 5 = v.toNat % 2 ^ 5 ∧ t.reg r p.val tn.val 0 / 2 ^ 12 = v.toNat / 2 ^ 12) ∧
        (¬idle → t.reg r p.val tn.val 0 = s.reg r p.val tn.val 0 ∧ t.flag F.prtRingStat_REFUSED p.val tn.val = true)) ∧
      (∀ v : DWord, writes (.farSegmentWrite src p v) s fun u t => regOnly .prtFar p.val 0 [F.prtFar_EN, F.prtFar_SIZE, F.prtFar_HOST_BASE] u t ∧
        t.getF F.prtFar_EN p.val = v.toNat % 2 ∧ t.getF F.prtFar_SIZE p.val = v.toNat / 2 % 2 ^ 13 ∧
        t.getF F.prtFar_HOST_BASE p.val = v.toNat / 2 ^ 30) ∧
      writes (.prtErrClear src p) s (fun u t =>
        regOnly .prtErr p.val 0 [F.prtErr_DESC_INVALID, F.prtErr_DOORBELL_BAD, F.prtErr_HOST_ERR] u t ∧
        t.getF F.prtErr_DESC_INVALID p.val = 0 ∧ t.getF F.prtErr_DOORBELL_BAD p.val = 0 ∧ t.getF F.prtErr_HOST_ERR p.val = 0)) ∧
    (∀ r, x.rejs.find? (fun r => r.tenant == tn.val) = some r →
      (s.portIssues p.val = false ∨ s.creditNow p.val < 8 → exec (.rejectWord p tn) s = .next s) ∧
      (s.portIssues p.val = true → 8 ≤ s.creditNow p.val → ∃ t, exec (.rejectWord p tn) s = .next t ∧
        t.hostOut = s.hostOut ++ [⟨p.val, s.getF F.prtRqCfg_BASE p.val tn.val * 4096 + r.ringSlot % 2 ^ s.getF F.prtRqCfg_LOG2 p.val tn.val * 64 + 0x38,
          bytesLE 8 (r.status + 2 ^ 8 + r.seqNo % 2 ^ 48 * 2 ^ 16)⟩] ∧
        (t.port p.val).rejs = x.rejs.erase r ∧ (t.port p.val).pages = x.pages ∧ (t.port p.val).credit = x.credit - 8 ∧
        t.flag F.prtRingStat_STALLED p.val tn.val = false ∧ (∀ q, q ≠ p.val → t.port q = s.port q) ∧ keeps [.ports, .regs, .hostOut] s t)) ∧
    (∀ h, x.pages.find? (fun h => h.tenant == tn.val) = some h → let k := h.bytes.length
      let tail := x.index tn.val 3
      let size := 2 ^ s.getF F.prtRsCfg_LOG2 p.val tn.val
      let base := s.getF F.prtRsCfg_BASE p.val tn.val * 4096 + tail % size * 4096
      (s.portIssues p.val = false ∨ size ≤ d tail (x.index tn.val 2) ∨ s.creditNow p.val < 8 → exec (.resultPage p tn) s = .next s) ∧
      (s.portIssues p.val = true → d tail (x.index tn.val 2) < size → h.sent = 0 → 0x20 ≤ k → k % 8 = 0 → k + 8 ≤ s.creditNow p.val →
        ∃ t, exec (.resultPage p tn) s = .next t ∧
          t.hostOut = s.hostOut ++ [⟨p.val, base, h.bytes.take 0x18 ++ bytesLE 8 s.now ++ h.bytes.drop 0x20⟩,
            ⟨p.val, base + 0xFF8, bytesLE 8 (h.status + (if tail / size % 2 = 0 then 2 ^ 8 else 0) + h.seqNo % 2 ^ 48 * 2 ^ 16)⟩] ∧
          (t.port p.val).pages = x.pages.erase h ∧ (t.port p.val).rejs = x.rejs ∧ (t.port p.val).credit = x.credit - k - 8 ∧
          (t.port p.val).index tn.val 3 = (tail + 1) % 2 ^ 32 ∧ tn.val ∈ (t.port p.val).irqDue ∧
          t.flag F.prtRingStat_STALLED p.val tn.val = false ∧ (∀ q, q ≠ p.val → t.port q = s.port q) ∧ keeps [.ports, .regs, .hostOut] s t)) ∧
    (∀ n, ∃ t, exec (.postedCreditReturn p n) s = .next t ∧ (t.port p.val).credit = x.credit + n ∧ (t.port p.val).pages = x.pages ∧
      (t.port p.val).rejs = x.rejs ∧ (∀ q, q ≠ p.val → t.port q = s.port q) ∧ keeps [.ports, .msix] s t ∧
      (x.evtDue = false → t.msix = s.msix)) ∧
    (let early : Prop := x.waiting tn.val = 0 ∨ s.flag F.prtRingStat_STALLED p.val tn.val = true ∨
        s.now < Tab.get (fun _ => 0) x.sentAt tn.val + 50000000
     (early → exec (.portStall p tn) s = .next s) ∧
     (¬early → ∃ t, exec (.portStall p tn) s = .next t ∧ t.flag F.prtStat_PORT_STALL p.val = true ∧
        t.flag F.prtRingStat_STALLED p.val tn.val = true ∧ t.getF F.prtStat_STALL_TENANTS p.val / 2 ^ tn.val % 2 = 1 ∧
        t.reg .rasLog (s.getF F.rasLogTail_TAIL % 256) 0 0 % 2 ^ 8 = 0x0A ∧
        t.getF F.rasLogTail_TAIL = (s.getF F.rasLogTail_TAIL + 1) % 2 ^ F.rasLogTail_TAIL.width ∧
        (t.port p.val).pages = x.pages ∧ (t.port p.val).rejs = x.rejs ∧ keeps [.ports, .regs, .ras, .sloe, .msix] s t)) ∧
    (let now : Prop := tn.val ∈ x.irqDue ∧ (∀ e, x.irqAt.find? (fun e => e.1 == tn.val) = some e →
        e.2 + s.getF F.prtRingCtrl_IRQ_GAP p.val tn.val * 1000 ≤ s.now) ∧ s.portIssues p.val = true ∧ s.creditNow p.val ≠ 0
     (¬now → exec (.ringInterrupt p tn) s = .next s) ∧
     (now → ∃ t, exec (.ringInterrupt p tn) s = .next t ∧ t.msix = s.msix ++ [⟨p.val, s.getF F.prtRingCtrl_VEC p.val tn.val, s.now⟩] ∧
        (t.port p.val).irqDue = (if s.getF F.prtRingCtrl_IRQ_GAP p.val tn.val = 0 then x.irqDue.erase tn.val
          else x.irqDue.filter fun u => u != tn.val) ∧ (t.port p.val).pages = x.pages ∧ keeps [.ports, .msix] s t))

/-- R225, R226, R237 to R239, R241, R242, R254, R257, R258, R326, Tables 11.1, 11.2, 11.7, 15.1: a host access to HBM is performed and
answered, held while its window check is, or refused and recorded with its reason; BAR2 and the configuration space are read and written;
a far-tier access completes at its port; a link goes up and down, Bus Master Enable and the HDM decoder change, and a port's resets clear
what they clear. The model's own choices in it: assumption 133. -/
def Obligations.HostAccesses : Prop :=
  ∀ (p : Port) (s : State), let x := s.port p.val
    let others (t : State) : Prop := ∀ q, q ≠ p.val → t.port q = s.port q
    (∀ (path : HostPath) (addr : BitVec 40), let a := addr.toNat
      (∀ len wr, s.hostWhy p.val path a len wr = 0 ↔ path ≠ .atomicOp ∧ a + len ≤ 0x9000000000 ∧ rangeInSystem a len = false ∧
        (∃ tn, tn < 16 ∧ (s.tenState tn = 2 ∨ s.tenState tn = 3) ∧ s.getF F.hubTenStat_OWNER tn = p.val ∧
          s.winCheck tn a len (if wr then 5 else 4) = true) ∧
        (wr = true → ∀ b ∈ s.banksOver a len, (s.tbl b.1 b.2.1).st b.2.2 < 2)) ∧
      (s.hostPath p.val path = false → (∀ len, exec (.hostMemoryRead p path addr len) s = .next s) ∧
        ∀ data, exec (.hostMemoryWrite p path addr data) s = .next s) ∧
      (s.hostPath p.val path = true → path = .bar4 ∨ path = .cxl ∨ path = .atomicOp →
        let early (len : Nat) : Prop := path = .atomicOp ∨ 0x9000000000 < a + len ∨ rangeInSystem a len = true
        let held (len perm : Nat) : Prop := ¬early len ∧ s.hostHeld p.val a len perm = true
        let holds (h : HeldAcc) : State := s.setPort p.val { x with held := x.held ++ [h] }
        let refused (w : Nat) (wr : Bool) (t : State) : Prop := t.getF F.prtRefuse_ADDR p.val = a ∧ t.getF F.prtRefuse_WHY p.val = w ∧
          t.flag F.prtRefuse_WRITE p.val = wr ∧ t.getF F.prtRefuse_COUNT p.val = min 0xFFFF (s.getF F.prtRefuse_COUNT p.val + 1) ∧
          t.flag F.prtStat_REFUSE p.val = true ∧ regsKept [.prtRefuse, .prtStat] s t
        (∀ len, held len 4 → exec (.hostMemoryRead p path addr len) s = .next (holds ⟨path, a, len, none⟩)) ∧
        (∀ data, held data.length 5 → exec (.hostMemoryWrite p path addr data) s = .next (holds ⟨path, a, data.length, some data⟩)) ∧
        (∀ len w, ¬held len 4 → s.hostWhy p.val path a len false = w →
          let no : HostAns := ⟨p.val, a, if path = .cxl then [] else List.replicate len 0xFF, decide (path = .cxl)⟩
          let bad := (unitsOf a len).any fun u => s.hbmErrAt u == 2
          (w = 0 → ∃ t, exec (.hostMemoryRead p path addr len) s = .next t ∧ t.hbm.bytes = s.hbm.bytes ∧
            t.hostAns = s.hostAns ++ [if s.stackOff (stackOf a) then no else if bad then ⟨p.val, a, [], true⟩
              else ⟨p.val, a, Tab.readBytes zeroByte s.hbm.bytes a len, false⟩] ∧ keeps [.hbm, .regs, .ras, .sloe, .hostAns] s t) ∧
          (w ≠ 0 → ∃ t, exec (.hostMemoryRead p path addr len) s = .next t ∧ refused w false t ∧ keeps [.regs, .hostAns] s t ∧
            t.hostAns = s.hostAns ++ (if w = 5 then [] else [no]))) ∧
        (∀ data w, ¬held data.length 5 → s.hostWhy p.val path a data.length true = w →
          (w = 0 → ∃ t, exec (.hostMemoryWrite p path addr data) s = .next t ∧ keeps [.hbm, .regs, .ras, .sloe, .tiles, .mesh] s t ∧
            if s.stackOff (stackOf a) then t.hbm.bytes = s.hbm.bytes else bytesPut s.hbm.bytes t.hbm.bytes a data) ∧
          (w ≠ 0 → ∃ t, exec (.hostMemoryWrite p path addr data) s = .next t ∧ refused w true t ∧ keeps [.regs, .hub] s t ∧
            ∀ a b, t.tbl a b = { s.tbl a b with denied := (t.tbl a b).denied }))) ∧
      (s.linkUp p.val = true →
        let replies (len : Nat) (d : List Byte) (t : State) : Prop := t.hostAns = s.hostAns ++ [⟨p.val, a, d, false⟩] ∧ d.length = len
        let ask (len : Nat) (t : State) : Prop := exec (.hostMemoryRead p .bar2 addr len) s = .next t
        (∀ len, a < 0x10000 → (len = 4 ∨ len = 8) → a % len = 0 → a % 0x1000 < 0x20 → ∃ t, ask len t ∧ keeps [.hostAns] s t ∧
          replies len (bytesLE len (if a % 8 = 4 then 0 else x.index (a / 0x1000) (a % 0x1000 / 8))) t) ∧
        (∀ len, a < 0x10000 → ¬((len = 4 ∨ len = 8) ∧ a % len = 0 ∧ a % 0x1000 < 0x20) → ∃ t, ask len t ∧ keeps [.hostAns, .regs] s t ∧
          replies len (List.replicate len 0) t ∧ t.flag F.prtStat_DOORBELL_BAD p.val = true ∧
          t.getF F.prtErr_DOORBELL_BAD p.val = min 0xFFFF (s.getF F.prtErr_DOORBELL_BAD p.val + 1)) ∧
        (∀ len, 0x10000 ≤ a → a < 0x20000 → ∃ t d, ask len t ∧ keeps [.hostAns, .freeCtr] s t ∧ replies len d t ∧
          (s.flag F.prtLink_CXL p.val = false → d = List.replicate len 0)) ∧
        (0x20000 ≤ a → ∀ len, ask len s) ∧
        (∀ data, 0x10000 ≤ a → exec (.hostMemoryWrite p .bar2 addr data) s = .next s) ∧
        (∀ (tn : Tenant) (data : List Byte) (w : AccW), a / 0x1000 = tn.val → data.length = w.bytes → 4 ≤ w.bytes →
          exec (.hostMemoryWrite p .bar2 addr data) s =
            exec (.doorbell p tn (BitVec.ofNat 12 a) w (BitVec.ofNat 64 (natLE data))) s) ∧
        (∀ len, ∃ t d, exec (.hostMemoryRead p .config addr len) s = .next t ∧ replies len d t ∧ keeps [.hostAns] s t ∧
          (a = 0 → 4 ≤ len → d.take 4 = bytesLE 2 Config.vendorId.toNat ++ bytesLE 2 0x4B01) ∧
          (∀ k, a ≤ 4 → a + k = 4 → k < len → (d.getD k 0).getLsbD 2 = x.bme)) ∧
        ∀ data, ∃ t, exec (.hostMemoryWrite p .config addr data) s = .next t ∧ others t ∧ keeps [.ports, .msix] s t ∧
          bytesPut x.cfg (t.port p.val).cfg a data ∧ (t.port p.val).pages = x.pages ∧ (t.port p.val).credit = x.credit ∧
          (t.port p.val).bme = if a ≤ 4 ∧ 4 < a + data.length then (data.getD (4 - a) 0).getLsbD 2 else x.bme)) ∧
    (∀ r k, s.mesh.pkts.find? (fun k => k.arrived && k.dst == .far && !k.isResp && k.hostAt.1 == p.val) = some k → k.ext = none →
      let rest := s.mesh.pkts.filter fun q => q.id != k.id
      let answer (h : Packet) (o : PktOp) (e : RespErr) (d : List Byte) : Prop :=
        h.access = k.access ∧ h.purpose = k.purpose ∧ h.dst = k.src ∧ h.op = o ∧ h.err = e ∧ h.data = d
      (s.portIssues p.val = false → exec (.farTierAccess p r) s = .next s) ∧
      (s.portIssues p.val = true → k.op = .read → k.err = .ok → ∃ t h, exec (.farTierAccess p r) s = .next t ∧ keeps [.mesh, .regs, .hostGet] s t ∧
        (0 < k.len → k.len ≤ 256 → t.hostGet = s.hostGet ++ [⟨p.val, k.hostAt.2, k.len⟩]) ∧
        (match r with
         | .data d => d.length = k.len → k.len ≤ 256 → t.mesh.pkts = rest ++ [h] ∧ answer h .readData .ok d ∧ t.regs = s.regs
         | .failed => t.mesh.pkts = rest ++ [h] ∧ answer h .readData .poison [] ∧ t.flag F.prtStat_HOST_ERR p.val = true ∧
           t.getF F.prtErr_HOST_ERR p.val = min 0xFFFF (s.getF F.prtErr_HOST_ERR p.val + 1))) ∧
      (s.portIssues p.val = true → k.op = .write ∨ k.op = .posted → k.err = .ok →
        (s.creditNow p.val < k.data.length → exec (.farTierAccess p r) s = .next s) ∧
        (k.data.length ≤ s.creditNow p.val → ∃ t h, exec (.farTierAccess p r) s = .next t ∧ keeps [.mesh, .ports, .hostOut] s t ∧ others t ∧
          t.hostOut = s.hostOut ++ [⟨p.val, k.hostAt.2, k.data⟩] ∧ (t.port p.val).credit = x.credit - k.data.length ∧
          t.mesh.pkts = rest ++ [h] ∧ answer h .writeAck .ok []))) ∧
    (let down (t : State) : Prop := t.flag F.prtLink_UP p.val = false ∧ t.flag F.prtLink_CXL p.val = false ∧ t.getF F.prtLink_WIDTH p.val = 0 ∧
      t.getF F.prtLink_RATE p.val = 0 ∧ t.getF F.prtLink_DOWNS p.val = min 0xFFFF (s.getF F.prtLink_DOWNS p.val + 1) ∧
      t.flag F.prtStat_LINK_DOWN p.val = true ∧ (t.port p.val).rejs = x.rejs ∧ (t.port p.val).pages = x.pages.map fun h => { h with sent := 0 }
     (s.linkUp p.val = false → exec (.linkDown p) s = .next s) ∧
     (s.linkUp p.val = true → ∃ t, exec (.linkDown p) s = .next t ∧ down t ∧ (t.port p.val).bme = x.bme ∧ others t ∧
       regsKept [.prtLink, .prtStat] s t ∧ keeps [.regs, .ports] s t) ∧
     (∀ k, ∃ t, exec (.portReset p k) s = .next t ∧ (t.port p.val).bme = false ∧ (t.port p.val).cfg = [] ∧ others t ∧ keeps [.regs, .ports] s t ∧
       regsKept [.prtLink, .prtStat] s t ∧ (k = .d3hot → t.regs = s.regs ∧ (t.port p.val).pages = x.pages) ∧
       (k = .flr → t.flag F.prtStat_FLR p.val = true) ∧ (k = .perst ∨ k = .hotReset → t.flag F.prtLink_HDM p.val = false) ∧
       (k ≠ .d3hot → s.linkUp p.val = true → down t))) ∧
    (∀ flit cxl rate width,
      let trains : Prop := rate.toNat ≤ 5 ∧ width.toNat ∈ [1, 2, 4, 8, 16] ∧ (rate.toNat = 5 → flit = true)
      let may : Prop := trains ∧ s.linkUp p.val = false ∧ 11 ≤ s.getF F.secBootStat_STEP ∧ s.flag F.secBootStat_SAFE = false ∧ s.getF F.secBootStat_LC ≠ 3
      (¬may → exec (.linkUp p flit cxl rate width) s = .next s) ∧
      (may → ∃ t, exec (.linkUp p flit cxl rate width) s = .next t ∧ t.flag F.prtLink_UP p.val = true ∧ t.flag F.prtLink_FLIT p.val = flit ∧
        t.flag F.prtLink_CXL p.val = (cxl && s.flag F.prtCfg_CXL_EN p.val) ∧ t.getF F.prtLink_RATE p.val = rate.toNat ∧
        t.getF F.prtLink_WIDTH p.val = width.toNat ∧ regsKept [.prtLink] s t ∧ others t ∧ keeps [.regs, .ports, .msix] s t)) ∧
    (∀ on, (s.linkUp p.val = false → exec (.busMasterEnable p on) s = .next s) ∧
      (s.linkUp p.val = true → ∃ t, exec (.busMasterEnable p on) s = .next t ∧ (t.port p.val).bme = on ∧ (t.port p.val).pages = x.pages ∧
        (t.port p.val).credit = x.credit ∧ others t ∧ keeps [.ports, .msix] s t)) ∧
    (s.linkUp p.val = false ∨ s.flag F.prtLink_CXL p.val = false → exec (.hdmDecoderCommit p) s = .next s) ∧
    (s.linkUp p.val = true → s.flag F.prtLink_CXL p.val = true → ∃ t, exec (.hdmDecoderCommit p) s = .next t ∧
      t.flag F.prtLink_HDM p.val = true ∧ t.linkUp p.val = true ∧ regsKept [.prtLink] s t ∧ keeps [.regs] s t)

/-- R100, R111, R182, R184, R221, R245, R246, R248 to R250, Tables 11.4, 11.6: a descriptor read takes the tenant's next SEQ, and a bad
or failed one a REJECT 0x3F; dispatch tests the oldest descriptor in the order of R249 and gives it the lowest free slot and even
shares; each field is told; projections reach the lead field; the candidate fetch completes and each field receives its share, or its failure ends the request with 0x3F.
-/
def Obligations.RequestFlow : Prop :=
  ∀ s : State,
    (∀ (p : Port) (tn : Tenant) (n : Fin 17) (r : HostRead), let x := s.port p.val
      let l := (x.published.filter fun e => e.1 == tn.val).take n.val
      let ctr := (s.ten tn.val).seqCtr
      let sq (i : Nat) : Nat := if i = 0 then ctr else (ctr + i) % 2 ^ 64
      let may : Prop := s.portIssues p.val = true ∧ l.length = n.val ∧ n.val ≠ 0 ∧ s.undispatched p.val + n.val ≤ 64 ∧ x.rejs.length ≤ 256
      (¬may → exec (.descriptorFetch p tn n r) s = .next s) ∧
      (may → ∃ t, exec (.descriptorFetch p tn n r) s = .next t ∧ (t.ten tn.val).seqCtr = (ctr + n.val) % 2 ^ 64 ∧
        (t.port p.val).published = x.published.filter (fun e => !l.contains e) ∧ keeps [.ports, .hub, .regs, .hostGet] s t ∧
        (let base := s.getF F.prtRqCfg_BASE p.val tn.val * 4096
         let slot := (l.headD (0, 0, 0)).2.1 % 2 ^ s.getF F.prtRqCfg_LOG2 p.val tn.val
         let k := min n.val (2 ^ s.getF F.prtRqCfg_LOG2 p.val tn.val - slot)
         t.hostGet = s.hostGet ++ ⟨p.val, base + slot * 64, k * 64⟩ :: (if k < n.val then [⟨p.val, base, (n.val - k) * 64⟩] else [])) ∧
        (∀ b, r = .data b → (∀ i, i < n.val → badDesc ((b.drop (64 * i)).take 64) = false) →
          t.hub.reqs = s.hub.reqs ++ l.mapIdx (fun i e => { port := p.val, tenant := tn.val, ringSlot := e.2.1, seqNo := sq i, arrival := e.2.2, desc := (b.drop (64 * i)).take 64 }) ∧
          (t.port p.val).rejs = x.rejs) ∧
        (r = .failed → (t.port p.val).rejs = x.rejs ++ l.mapIdx (fun i e => ⟨tn.val, e.2.1, 0x3F, sq i⟩) ∧
          t.flag F.prtStat_HOST_ERR p.val = true ∧ t.getF F.prtErr_HOST_ERR p.val = min 0xFFFF (s.getF F.prtErr_HOST_ERR p.val + 1)) ∧
        (∀ b e, r = .data b → l = [e] → badDesc (b.take 64) = true → (t.port p.val).rejs = x.rejs ++ [⟨tn.val, e.2.1, 0x3F, ctr⟩] ∧
          t.flag F.prtStat_DESC_INVALID p.val = true ∧
          t.getF F.prtErr_DESC_INVALID p.val = min 0xFFFF (s.getF F.prtErr_DESC_INVALID p.val + 1)))) ∧
    (∀ fields : List FieldNo,
      (s.hub.reqs.find? (fun r => !r.out && !s.flag F.hubEpochStatus_PAUSED r.tenant) = none → exec (.dispatch fields) s = .next s) ∧
      ∀ r, s.hub.reqs.find? (fun r => !r.out && !s.flag F.hubEpochStatus_PAUSED r.tenant) = some r →
        let fs := (List.range 92).filter fun f => fields.any fun g => g.val == f
        let online := s.tenState r.tenant = 2 ∧ ∃ f ∈ s.maskFields r.tenant, s.offline f = false
        let stale := epochRejects (bitsOf (r.dget 0x1E 1) 1 2) (s.getF F.hubEpochStatus_EPOCH r.tenant) (r.dget 0x24 4)
        let room (f : Nat) : Prop := s.reserved f r.tenant + max r.outK 1 ≤ 1024
        let rejects (st : Nat) : Prop := ∃ t, exec (.dispatch fields) s = .next t ∧
          (t.port r.port).rejs = (s.port r.port).rejs ++ [⟨r.tenant, r.ringSlot, st, r.seqNo⟩] ∧
          (∀ x ∈ t.hub.reqs, ¬(x.tenant = r.tenant ∧ x.seqNo = r.seqNo)) ∧ keeps [.ports, .hub, .regs] s t
        (s.tenState r.tenant ≠ 2 → rejects 0x11) ∧
        (s.tenState r.tenant = 2 → ¬online → rejects 0x3F) ∧
        (online → stale = true → rejects 0x12) ∧
        (online → stale = false → s.freeSlot r.tenant = none ∨ (∀ f ∈ s.choices r.tenant, ¬room f) → rejects 0x11) ∧
        (∀ k, online → stale = false → s.freeSlot r.tenant = some k → s.legalChoice r.tenant fs = true → room (fs.headD 0) →
          (∀ a, r.tenant * 4096 ≤ a → a < k → (s.bySlot a).isSome = true) ∧ s.bySlot k = none ∧
          (evenShares r.candCount fs.length).sum = r.candCount ∧ (evenShares r.candCount fs.length).length = fs.length ∧
          (∀ a ∈ evenShares r.candCount fs.length, ∀ b ∈ evenShares r.candCount fs.length, a ≤ b + 1) ∧
          ∃ t, exec (.dispatch fields) s = .next t ∧ keeps [.hub, .regs] s t ∧ regsKept [.prtRingStat] s t ∧
            (∃ x ∈ t.hub.reqs, x = { r with
              slot := k, epoch := s.getF F.hubEpochStatus_EPOCH r.tenant, fields := fs, shares := evenShares r.candCount fs.length, out := true }))) ∧
    (∀ f : FieldNo, (∀ r, s.hub.reqs.find? (fun r => r.out && r.fields.contains f.val && !r.delivered.contains f.val) = some r →
        ∃ t, exec (.descriptorDelivery f) s = .next t ∧ (∃ x ∈ t.hub.reqs, x = { r with delivered := r.delivered ++ [f.val] }) ∧
          t.seq f.val = { s.seq f.val with deliv := (s.seq f.val).deliv ++ [r.slot], events := (s.seq f.val).events ++ [{ kind := 1, tenant := r.tenant, arg := r.slot }] } ∧
          (∀ g, g ≠ f.val → t.field g = s.field g) ∧ keeps [.fields, .hub] s t) ∧
      (s.hub.reqs.find? (fun r => r.out && r.fields.contains f.val && !r.delivered.contains f.val) = none →
        exec (.descriptorDelivery f) s = .next s) ∧
      (∀ r, s.hub.reqs.find? (fun r => r.out && !(r.unsent f.val).isEmpty) = some r → ∃ t, exec (.projectionExchange f) s = .next t ∧
        keeps [.hub] s t ∧ ∃ x ∈ t.hub.reqs, x = { r with
          exchanged := r.exchanged ++ r.proj.filter fun q => q.1 == f.val && !r.exchanged.contains q }) ∧
      (s.hub.reqs.find? (fun r => r.out && !(r.unsent f.val).isEmpty) = none → exec (.projectionExchange f) s = .next s)) ∧
    (∀ (slot : BitVec 24) (c x : HostRead),
      (s.bySlot slot.toNat = none → exec (.candidateFetch slot c x) s = .next s) ∧
      ∀ r, s.bySlot slot.toNat = some r →
        (r.admitted = false ∨ r.fetched = true ∨ s.portIssues r.port = false → exec (.candidateFetch slot c x) s = .next s) ∧
        (r.admitted = true → r.fetched = false → s.portIssues r.port = true →
          (∀ a b, c = .data a → (if r.ctxLen = 0 then b = [] else x = .data b) →
            (a.length ≠ 8 * r.candCount ∨ b.length ≠ 64 * r.ctxLen → exec (.candidateFetch slot c x) s = .next s) ∧
            (a.length = 8 * r.candCount → b.length = 64 * r.ctxLen → ∃ t, exec (.candidateFetch slot c x) s = .next t ∧
              keeps [.hub, .fields, .hostGet] s t ∧ (∃ y ∈ t.hub.reqs, y = { r with fetched := true, cands := a, ctx := b }) ∧
              (∀ g, g ∉ r.fields → t.field g = s.field g) ∧
              ∀ g ∈ r.fields, t.field g = { s.field g with seq := { s.seq g with inputs := (t.seq g).inputs } } ∧
                (slot.toNat, (a.drop (8 * (r.shareOf g).2)).take (8 * (r.shareOf g).1), b) ∈ (t.seq g).inputs)) ∧
          (c = .failed ∨ r.ctxLen ≠ 0 ∧ x = .failed → ∃ t, exec (.candidateFetch slot c x) s = .next t ∧ t.flag F.prtStat_HOST_ERR r.port = true ∧
            (∃ pg : Page, (t.port r.port).pages = (s.port r.port).pages ++ [pg] ∧ pg.tenant = r.tenant ∧ pg.seqNo = r.seqNo ∧ pg.status = 0x3F ∧ pg.count = 0) ∧
            (∀ y ∈ t.hub.reqs, ¬(y.tenant = r.tenant ∧ y.seqNo = r.seqNo)) ∧ t.tiles = s.tiles ∧ t.hbm = s.hbm)))

/-- R171 to R184, Tables 8.2 to 8.7: the commands of the table that a source has selected change its banks, or are refused and set
REFUSED; a held READY takes effect; a flip is tested in order and then swaps the banks of every table of the tenant as one act; a
drained bank leaves DRAINING; a copy-forward copies the active bank. -/
def Obligations.TablesAndEpochs : Prop :=
  ∀ s : State,
    (∀ src : Source, let k := s.tblSel (srcCopy src)
      let x := s.tbl k.1 k.2
      maySource s src (.tenant k.1) →
      let becomes (y : Tbl) (u t : State) : Prop := keeps [.hub] u t ∧ t.tbl k.1 k.2 = y ∧
        ∀ a b, b < 256 → (a, b) ≠ k → t.tbl a b = s.tbl a b
      let refused : State → State → Prop := becomes { x with refused := true }
      (let sz := x.geom / 2 ^ 32 % 2 ^ 32 * (x.geom % 2 ^ 9 * 8)
       let legal : Prop := x.registered = false ∧ 1 ≤ x.geom % 2 ^ 9 ∧ x.geom % 2 ^ 9 ≤ 256 ∧ x.geom / 2 ^ 32 % 2 ^ 32 ≠ 0 ∧ s.registeredTables < 1024 ∧
         s.bankFits x.baseA sz = true ∧ s.bankFits x.baseB sz = true ∧ banksOverlap x.baseA x.baseB sz = false
       (legal → writes (.tableRegister src) s (becomes { x with registered := true, retiring := false, retFlipped := false, stA := 1, stB := 1 })) ∧
       (¬legal → writes (.tableRegister src) s refused)) ∧
      (x.registered = true → x.retiring = false → writes (.tableRetire src) s (becomes { x with retiring := true })) ∧
      (x.registered = false ∨ x.retiring = true → writes (.tableRetire src) s refused) ∧
      (∀ bk : Bank,
        (x.registered = true → x.st bk = 1 → writes (.ready src bk) s fun u t => becomes x u t ∧
          t.hub.readyHeld = s.hub.readyHeld ++ [⟨k.1, k.2, bk == .b, s.now, srcCopy src⟩]) ∧
        (x.registered = false ∨ x.st bk ≠ 1 → writes (.ready src bk) s refused) ∧
        (x.st bk = 2 → writes (.unready src bk) s (becomes (x.setSt bk 1))) ∧ (x.st bk ≠ 2 → writes (.unready src bk) s refused)) ∧
      (∀ v : DWord, let n := v.toNat
        let base := n % 2 ^ 46 + n / 2 ^ 48 % 2 ^ 8 * 2 ^ 48
        let good := n % 2 ^ 12 = 0 ∧ n / 2 ^ 44 % 4 ≠ 3 ∧ (n / 2 ^ 44 % 4 = 1 ∨ n / 2 ^ 48 % 2 ^ 8 = 0)
        (x.registered = false → writes (.tableConfigWrite src .geom v) s (becomes { x with geom := n % 2 ^ 9 + n / 2 ^ 32 * 2 ^ 32 })) ∧
        (x.registered = true → writes (.tableConfigWrite src .geom v) s refused) ∧
        (x.stA < 2 → good → writes (.tableConfigWrite src .baseA v) s (becomes { x with baseA := base })) ∧
        (¬(x.stA < 2 ∧ good) → writes (.tableConfigWrite src .baseA v) s refused) ∧
        (x.stB < 2 → good → writes (.tableConfigWrite src .baseB v) s (becomes { x with baseB := base })) ∧
        (¬(x.stB < 2 ∧ good) → writes (.tableConfigWrite src .baseB v) s refused))) ∧
    (∀ (tn : Tenant) (n : Byte) (bk : Bank), let x := s.tbl tn.val n.toNat
      let mine (r : ReadyHeld) : Bool := r.tenant == tn.val && r.table == n.toNat && r.bank == (bk == .b)
      let frame (t : State) : Prop := ∀ a b, b < 256 → (a, b) ≠ (tn.val, n.toNat) → t.tbl a b = s.tbl a b
      let drained (b : Bank) : Prop := x.st b = 4 ∧ ∀ e ∈ s.epochsOut tn.val, epochBefore e (x.endOf b) = false
      let late : Prop := ∃ r ∈ s.hub.readyHeld, mine r = true ∧ ∃ p, p < 4 ∧ r.src = p + 1 ∧ ∃ a ∈ (s.port p).held, a.data ≠ none
      ((∀ r ∈ s.hub.readyHeld, mine r = false) ∨ late → exec (.readyTakeEffect tn n bk) s = .next s) ∧
      ((∃ r ∈ s.hub.readyHeld, mine r = true) → ¬late → ∃ t, exec (.readyTakeEffect tn n bk) s = .next t ∧ keeps [.hub] s t ∧ frame t ∧
        t.tbl tn.val n.toNat = (if x.registered = true ∧ x.st bk = 1 then x.setSt bk 2 else x) ∧
        t.hub.readyHeld = s.hub.readyHeld.filter (fun r => !mine r)) ∧
      (¬drained .a → ¬drained .b → exec (.bankDrained tn n) s = .next s) ∧
      (drained bk → ¬drained (otherBank bk) → ∃ t, exec (.bankDrained tn n) s = .next t ∧ keeps [.hub, .regs] s t ∧ frame t ∧
        regsKept [.hubEpochStatus] s t ∧ t.flag F.hubEpochStatus_DRAIN_EVT tn.val = true ∧
        (t.tbl tn.val n.toNat).st bk = (if x.retiring then 0 else if x.copyFwd then 5 else 1) ∧
        (x.retiring = false → x.copyFwd = true → t.hub.copies = s.hub.copies ++ [(tn.val * 256 + n.toNat, bankNo bk)]))) ∧
    (∀ (src : Source) (tn : Tenant), maySource s src (.tenant tn.val) →
      let due := ∃ x ∈ s.tablesOf tn.val, x.2.stA = 2 ∨ x.2.stB = 2 ∨ x.2.retiring = true
      let result (k : Nat) (u t : State) : Prop := t.getF F.hubEpochStatus_RESULT tn.val = k ∧ t.hub = s.hub ∧ keeps [.regs] u t ∧
        t.getF F.hubEpochStatus_EPOCH tn.val = s.getF F.hubEpochStatus_EPOCH tn.val
      (s.flag F.hubEpochStatus_PAUSED tn.val = true → writes (.epochFlip src tn) s (result 4)) ∧
      (s.flag F.hubEpochStatus_PAUSED tn.val = false → 8 ≤ (s.epochsOut tn.val).length → writes (.epochFlip src tn) s (result 3)) ∧
      (s.flag F.hubEpochStatus_PAUSED tn.val = false → (s.epochsOut tn.val).length < 8 → ¬due → writes (.epochFlip src tn) s (result 2)) ∧
      (canonical s → s.flag F.hubEpochStatus_PAUSED tn.val = false → (s.epochsOut tn.val).length < 8 → due →
        let e := (s.getF F.hubEpochStatus_EPOCH tn.val + 1) % 2 ^ 32
        writes (.epochFlip src tn) s fun u t => t.getF F.hubEpochStatus_RESULT tn.val = 1 ∧ t.getF F.hubEpochStatus_EPOCH tn.val = e ∧
          t.flag F.hubEpochStatus_PAUSED tn.val = true ∧ t.reg .hubEpochStamp tn.val 0 0 = s.now % 2 ^ 64 ∧
          (∀ f, f < 92 → s.belongs tn.val f = true → (t.seq f).events = (s.seq f).events ++ [{ kind := 7, tenant := tn.val }]) ∧
          (∀ n, n < 256 → let x := s.tbl tn.val n
            let y := t.tbl tn.val n
            (x.registered = false → y = x) ∧
            (∀ bk, x.registered = true → x.retiring = false → x.st bk = 3 → (bk = .b → x.stA ≠ 3) →
              (x.st (otherBank bk) = 2 → y.st bk = 4 ∧ y.endOf bk = e ∧ y.st (otherBank bk) = 3 ∧ y.flipEpoch = e ∧ y.base .a = x.baseA ∧ y.base .b = x.baseB) ∧
              (x.st (otherBank bk) ≠ 2 → y = x)) ∧
            (x.registered = true → x.retiring = false → x.stA ≠ 3 → x.stB ≠ 3 →
              (x.stA = 2 → y = { x with stA := 3, flipEpoch := e }) ∧ (x.stA ≠ 2 → x.stB = 2 → y = { x with stB := 3, flipEpoch := e })) ∧
            (∀ bk, x.registered = true → x.retiring = true → x.retFlipped = false → x.st bk = 3 → (bk = .b → x.stA ≠ 3) →
              y.st bk = 4 ∧ y.endOf bk = e ∧ y.retFlipped = true)) ∧
          (∀ a b, b < 256 → a ≠ tn.val → t.tbl a b = s.tbl a b) ∧ keeps [.regs, .hub, .fields] u t)) ∧
    (∀ tn : Tenant, (∃ t, exec (.epochPauseEnd tn) s = .next t ∧ t.flag F.hubEpochStatus_PAUSED tn.val = false ∧
        regsKept [.hubEpochStatus] s t ∧ keeps [.regs] s t) ∧
      (s.hub.copies.find? (fun c => c.1 / 256 == tn.val) = none ∨ s.getF F.hubEpochCopyRate_GBPS = 0 → exec (.copyForward tn) s = .next s) ∧
      (∀ c, s.hub.copies.find? (fun c => c.1 / 256 == tn.val) = some c → s.getF F.hubEpochCopyRate_GBPS ≠ 0 →
        let x := s.tbl tn.val (c.1 % 256)
        let b : Bank := if c.2 = 0 then .a else .b
        let src := x.base (otherBank b) % 2 ^ 44
        let dst := x.base b % 2 ^ 44
        x.st (otherBank b) = 3 → s.bankHere (x.base (otherBank b)) x.bankSize = true → s.bankHere (x.base b) x.bankSize = true →
        s.stackOff (stackOf dst) = false → (∀ u ∈ unitsOf src x.bankSize, s.hbmErrAt u ≠ 2 ∧ s.stackOff (stackOf (u * 64)) = false) →
        (∀ y ∈ s.hub.copyIn, y.1 ≠ c.1) → (∀ y ∈ s.hub.copyOut, y.1 ≠ c.1) → ∃ t, exec (.copyForward tn) s = .next t ∧
          bytesPut s.hbm.bytes t.hbm.bytes dst (Tab.readBytes zeroByte s.hbm.bytes src x.bankSize) ∧
          t.tbl tn.val (c.1 % 256) = x.setSt b 1 ∧ t.hub.copies = s.hub.copies.filter (fun d => !(d.1 == c.1 && d.2 == bankNo b)) ∧
          keeps [.hbm, .hub, .regs, .ras, .sloe, .tiles, .mesh] s t))

/-- R27, R187, R190, R211 to R222, R225 to R229, Tables 10.1, 10.4, 10.5: CLAIM, ACTIVATE, STOP, REASSIGN and the configuration writes
change a tenant's state and owner, or are refused; a stopped tenant is freed once its last request has left; the slice of a field passes
on to the next tenant with a held request; a switch waits for the outgoing requests; residency changes in all fields of the group at
once; a window is committed, installed and drained. The model's own choices in it: assumption 135. -/
def Obligations.TenantsAndWindows : Prop :=
  ∀ s : State,
    (∀ (src : Source) (tn : Tenant), let st := s.tenState tn.val
      let owned (p : Nat) (t : State) : Prop := t.flag F.hubTenStat_OWNED tn.val = true ∧ t.getF F.hubTenStat_OWNER tn.val = p
      let refused (u t : State) : Prop := t.tenState tn.val = st ∧ t.flag F.hubTenStat_REFUSED tn.val = true ∧ regsKept [.hubTenStat] u t ∧ keeps [.regs] u t
      let freed (t : State) : Prop := t.tenState tn.val = 0 ∧ t.flag F.hubTenStat_OWNED tn.val = false ∧
        ∀ p, p < 4 → t.flag F.prtRingCtrl_ENABLE p tn.val = false
      (∀ arg : BitVec 3,
        (∀ p : Port, src = .host p → st = 0 → writes (.claim src tn arg) s fun u t => t.tenState tn.val = 1 ∧ owned p.val t ∧
          regsKept [.hubTenStat] u t ∧ keeps [.regs] u t) ∧
        (src = .sloe → st = 0 → arg.toNat < 4 → writes (.claim src tn arg) s fun u t => t.tenState tn.val = 1 ∧ owned arg.toNat t ∧
          regsKept [.hubTenStat] u t ∧ keeps [.regs] u t) ∧
        ((st ≠ 0 ∧ maySource s src (.tenant tn.val)) ∨ (src = .sloe ∧ 4 ≤ arg.toNat) → writes (.claim src tn arg) s refused) ∧
        (src = .sloe → st ≠ 0 → arg.toNat < 4 → writes (.reassign src tn arg) s fun u t => t.tenState tn.val = st ∧ owned arg.toNat t ∧
          (s.getF F.hubTenStat_OWNER tn.val ≠ arg.toNat → ∀ p, p < 4 → t.flag F.prtRingCtrl_ENABLE p tn.val = false) ∧
          keeps [.regs, .bus] u t) ∧
        (src = .sloe → st = 0 ∨ 4 ≤ arg.toNat → writes (.reassign src tn arg) s refused)) ∧
      (maySource s src (.tenant tn.val) → st ≠ 0 →
        (st ≠ 1 → writes (.activate src tn) s refused) ∧
        (let good := match (s.readPkg tn.val).1 with
          | some p => pkgGood p (s.maskFields tn.val).length
          | none => false
         let why := s.whyNot tn.val good
         (st = 1 → why ≠ 0 → writes (.activate src tn) s fun _ t => t.tenState tn.val = 1 ∧ t.flag F.hubTenStat_REFUSED tn.val = true ∧
           t.getF F.hubTenStat_REFUSE_WHY tn.val = why ∧ t.hub = s.hub ∧ t.fields = s.fields ∧ t.tiles = s.tiles) ∧
         (∀ p, st = 1 → why = 0 → (s.readPkg tn.val).1 = some p → writes (.activate src tn) s fun _ t => t.tenState tn.val = 2 ∧
           (t.ten tn.val).full0 = fieldAt p 0x10 8 ∧ (t.ten tn.val).full1 = fieldAt p 0x18 8 ∧ (t.ten tn.val).sliceBytes = fieldAt p 0x0C 4 ∧
           (∀ f ∈ s.maskFields tn.val, t.getF F.fldCellAllot_COUNT f tn.val = s.cellBlocks tn.val) ∧
           (∀ f ∈ s.maskFields tn.val, s.offline f = false → (s.field f).resident = none → (s.field f).switching = none →
             t.residentIs f tn.val = true) ∧
           (∀ a, (∀ f ∈ s.maskFields tn.val, ∀ area, t.imageArea tn.val f = some area → a < area ∨ area + 0x800000 ≤ a) →
             Tab.get zeroByte t.hbm.bytes a = Tab.get zeroByte s.hbm.bytes a))) ∧
        (st = 1 → writes (.stop src tn) s fun u t => freed t ∧ keeps [.regs] u t) ∧
        (st = 2 → writes (.stop src tn) s fun u t => t.tenState tn.val = 3 ∧ t.flag F.hubTenStat_OWNED tn.val = s.flag F.hubTenStat_OWNED tn.val ∧
          t.getF F.hubTenStat_OWNER tn.val = s.getF F.hubTenStat_OWNER tn.val ∧ regsKept [.hubTenStat] u t ∧ keeps [.regs] u t) ∧
        (st = 3 → writes (.stop src tn) s refused)) ∧
      (maySource s src (.tenant tn.val) → ∀ (c : TenCfgReg) (v : DWord), let r := cfgReg c
        (st = 1 → writes (.tenantConfigWrite src tn c v) s fun u t => regsKept [r] u t ∧ keeps [.regs] u t ∧
          ∀ fd ∈ r.desc.fields, t.reg r tn.val 0 0 / 2 ^ fd.lsb % 2 ^ fd.width =
            if fd.acc = .rw then v.toNat / 2 ^ fd.lsb % 2 ^ fd.width else s.reg r tn.val 0 0 / 2 ^ fd.lsb % 2 ^ fd.width) ∧
        (st ≠ 1 → writes (.tenantConfigWrite src tn c v) s refused)) ∧
      (st ≠ 3 ∨ (∃ r ∈ s.hub.reqs, r.out = true ∧ r.tenant = tn.val) → exec (.tenantStopComplete tn) s = .next s) ∧
      (st = 3 → (∀ r ∈ s.hub.reqs, r.out = true → r.tenant ≠ tn.val) → (∀ f, f < 92 → (s.field f).resident = some tn.val →
          (s.field f).sliceTo ≠ some tn.val ∧ ∀ ph, (s.field f).switching ≠ some (tn.val, ph)) → ∃ t, exec (.tenantStopComplete tn) s = .next t ∧ freed t ∧
        (∀ w, w < 32 → t.window tn.val w = {}) ∧ (∀ n, n < 256 → (t.tbl tn.val n).registered = false) ∧
        (∀ f ∈ s.maskFields tn.val, t.getF F.fldCellAllot_COUNT f tn.val = 0 ∧ t.residentIs f tn.val = false) ∧
        (∀ a w, a ≠ tn.val → w < 32 → t.window a w = s.window a w) ∧ t.hbm.bytes = s.hbm.bytes)) ∧
    (∀ f : FieldNo, let x := s.field f.val
      let g := s.groupOf f.val
      let l := s.tenantsOf f.val
      (∀ tn, x.resident = some tn →
        (let over_ := 2 ≤ l.length ∧ x.switching = none ∧ x.sliceTo = none ∧ x.sliceStart + max 2 (s.getF F.hubTenCfg_SLICE tn) * 100000 ≤ s.now
         let next := (rotation l tn).find? fun u => s.heldFor u g
         (¬over_ → exec (.sliceExpiry f) s = .next s) ∧
         (over_ → ∃ t, exec (.sliceExpiry f) s = .next t ∧ keeps [.fields] s t ∧ (∀ h, h ∉ g → t.field h = s.field h) ∧
           (∀ n, next = some n → ∀ h ∈ g, t.field h = { s.field h with sliceTo := some n }) ∧
           (next = none → ∀ h ∈ g, t.field h = { s.field h with sliceStart := s.now }))) ∧
        (x.sliceTo = none → exec (.contextSwitch f) s = .next s) ∧
        (∀ n, x.sliceTo = some n → let g := s.passing f.val tn n
          let may := x.switching = none ∧ (∀ h ∈ g, (s.field h).quiesce = none) ∧
            ∀ r ∈ s.hub.reqs, r.out = true → r.tenant = tn → r.started = true → ∀ h ∈ r.fields, h ∉ g
          (¬may → exec (.contextSwitch f) s = .next s) ∧
          (may → ∃ t, exec (.contextSwitch f) s = .next t ∧ keeps [.fields] s t ∧ (∀ h, h ∉ g → t.field h = s.field h) ∧
            ∀ h ∈ g, (t.field h).switching = some (n, 0) ∧ (t.field h).freezing = true ∧
              (t.seq h).events = (s.seq h).events ++ [{ kind := 8, tenant := n }]))) ∧
      (x.resident = none → exec (.sliceExpiry f) s = .next s ∧ exec (.contextSwitch f) s = .next s) ∧
      (let w := g.filter fun h => (s.field h).switching.isSome
       let may := f.val ∈ w ∧ ∀ h ∈ w, ∃ n, (s.field h).switching = some (n, 2)
       (¬may → exec (.residencyChange f) s = .next s) ∧
       (may → ∃ t, exec (.residencyChange f) s = .next t ∧ keeps [.fields, .tiles, .hub] s t ∧ (∀ h, h ∉ g → t.field h = s.field h) ∧
         (∀ h ∈ w, ∀ n, (s.field h).switching = some (n, 2) → (t.field h).resident = some n ∧ (t.field h).switching = none ∧
           (t.field h).freezing = false ∧ ∀ k, k < 4900 → t.tile h k = { s.tile h k with frozen := false }) ∧
         ∀ n, (∀ h ∈ g, (s.field h).switching = some (n, 2)) → ∀ h ∈ g, t.field h = { s.field h with
           resident := some n, switching := none, freezing := false, sliceStart := s.now, sliceTo := none,
           quietSince := (t.field h).quietSince, woken := (t.field h).woken }))) ∧
    (∀ (src : Source) (v : DWord), let k := srcCopy src
      let tn := s.getF F.hubWinSel_TENANT 0 0 k
      let wn := s.getF F.hubWinSel_WINDOW 0 0 k
      let base := s.getF F.hubWinBase_PAGE 0 0 k * 4096
      let limit := s.getF F.hubWinLimit_PAGE 0 0 k * 4096
      let refused := v.getLsbD 0 = true ∧ (gaSpace base ≠ gaSpace limit ∨ 4 ≤ gaSpace base ∨ limit < base ∨
        (gaSpace base = 0 ∧ rangeInSystem base (limit + 0x1000 - base) = true) ∨
        (gaSpace base = 3 ∧ (v.getLsbD 2 = true ∨ v.getLsbD 3 = true ∨ v.getLsbD 5 = true)))
      maySource s src (.tenant tn) →
        (refused → writes (.windowCommit src v) s fun u t => t.flag F.hubWinDrain_REFUSED tn = true ∧ t.hub = s.hub ∧ keeps [.regs] u t ∧
          t.getF F.hubWinEpoch_EPOCH tn = s.getF F.hubWinEpoch_EPOCH tn) ∧
        (¬refused → writes (.windowCommit src v) s fun u t =>
          t.hub = { s.hub with commits := s.hub.commits ++ [⟨tn, wn, ⟨base, limit, v.toNat % 2 ^ 6⟩⟩] } ∧
          t.getF F.hubWinEpoch_EPOCH tn = (s.getF F.hubWinEpoch_EPOCH tn + 1) % 2 ^ 32 ∧ t.flag F.hubWinDrain_DRAIN tn = false ∧
          t.flag F.hubWinDrain_HOLDING tn = (s.flag F.hubWinCtrl_FENCED tn || s.flag F.hubWinDrain_HOLDING tn) ∧ keeps [.regs, .hub] u t)) ∧
    (∀ tn : Tenant, (∀ (w : Fin 32) c, s.hub.commits.find? (fun c => c.tenant == tn.val && c.win == w.val) = some c →
        ∃ t, exec (.windowInstall tn w) s = .next t ∧ keeps [.hub] s t ∧ t.hub.commits = s.hub.commits.erase c ∧
          ∀ a b, b < 32 → t.window a b = if a = tn.val ∧ b = w.val then c.w else s.window a b) ∧
      (∀ w : Fin 32, s.hub.commits.find? (fun c => c.tenant == tn.val && c.win == w.val) = none → exec (.windowInstall tn w) s = .next s) ∧
      (let drained := (∀ c ∈ s.hub.commits, c.tenant ≠ tn.val) ∧
         ∀ a ∈ s.mesh.outst, a.winTenant = tn.val → a.winEpoch = s.getF F.hubWinEpoch_EPOCH tn.val
       (¬drained → exec (.windowDrain tn) s = .next s) ∧
       (drained → ∃ t, exec (.windowDrain tn) s = .next t ∧ t.flag F.hubWinDrain_DRAIN tn.val = true ∧
         t.flag F.hubWinDrain_HOLDING tn.val = false ∧
         ((∀ p, p < 4 → (s.port p).held = []) → regsKept [.hubWinDrain] s t ∧ (∀ p, t.port p = s.port p) ∧ keeps [.regs, .ports] s t))))

/-- R203 to R207, Tables 9.1, 9.2, 9.5: the detector fires when its counter has reached a window other than 0, or when a firing was
injected, and freezes the field; ACTION 1 thaws it, ACTION 2 ends the tenant's requests there and clears its tiles first, once no GSTAGE
of the tenant is outstanding; an ACTION of a field that is not frozen, or that waits for its RESET, is refused. The injections arm and
the CLEAR bits clear. The model's own choices in it: assumptions 122 and 134. -/
def Obligations.DeadlockDetector : Prop :=
  ∀ (f : FieldNo) (s : State), let x := s.field f.val
    (let due (tn : Nat) : Prop := x.resident = some tn ∧ s.flag F.fldDlStat_FROZEN f.val = false ∧
        (x.dlForce = true ∨ s.condC f.val = true ∧ s.dlWindow f.val ≠ 0 ∧ s.dlWindow f.val ≤ s.dlCount f.val)
     ((∀ tn, ¬due tn) → exec (.deadlockDetectorFire f) s = .next s) ∧
     (∀ tn, tn < 16 → due tn → ∃ t, exec (.deadlockDetectorFire f) s = .next t ∧ t.flag F.fldDlStat_FIRED f.val = true ∧
        t.flag F.fldDlStat_FROZEN f.val = true ∧ t.getF F.fldDlStat_TENANT f.val = tn ∧ counted F.fldDlStat_FIRES f.val s t ∧
        t.reg .fldDlSnapTime f.val 0 0 = s.now % 2 ^ 64 ∧ (∀ k, k < 4900 → (t.tile f.val k).frozen = true) ∧
        (t.dense f.val).frozen = true ∧ (t.field f.val).dlForce = false ∧
        ((∀ k, k < 4900 → (s.tile f.val k).gath = []) → (t.seq f.val).events = x.seq.events ++ [{ kind := 9, tenant := tn }] ∧
          raised 9 s.now s t ∧ (∀ g, g ≠ f.val → t.field g = s.field g) ∧ keeps [.regs, .fields, .tiles, .ras, .sloe, .mesh] s t))) ∧
    (∀ src, maySource s src (.holder f.val) →
      let refused (u t : State) : Prop := t.flag F.fldDlStat_REFUSED f.val = true ∧
        regsKept [.fldDlStat] u t ∧ keeps [.regs] u t
      (s.flag F.fldDlStat_FROZEN f.val = false ∨ x.dlReset = true → writes (.thaw src f) s refused ∧ writes (.deadlockReset src f) s refused) ∧
      (s.flag F.fldDlStat_FROZEN f.val = true → x.dlReset = false → writes (.thaw src f) s (fun u t => t.flag F.fldDlStat_FROZEN f.val = false ∧
          (t.field f.val).dlSince = s.now ∧ (t.dense f.val).frozen = false ∧ (t.seq f.val) = x.seq ∧
          (x.switching = none → x.quiesce = none → ∀ k, k < 4900 → t.tile f.val k = { s.tile f.val k with frozen := false }) ∧
          regsKept [.fldDlStat] u t ∧ (∀ g, g ≠ f.val → t.field g = s.field g) ∧ keeps [.regs, .fields, .tiles] u t) ∧
        (let tn := s.getF F.fldDlStat_TENANT f.val
         let waits : Prop := ∃ g ∈ x.seq.gst, g.tenant = tn
         let oneSlot : Prop := ∀ r ∈ s.hub.reqs, ∀ q ∈ s.hub.reqs, r.out = true → q.out = true → r.slot = q.slot → r = q
         (waits → writes (.deadlockReset src f) s (fun _ t => t.flag F.fldDlStat_FROZEN f.val = true ∧ (t.field f.val).dlReset = true ∧
           (oneSlot → ∀ r ∈ t.hub.reqs, r.fliesIn tn f.val = false) ∧ t.trstTerm f.val tn = 60000)) ∧
         (¬waits → x.switching = none → x.quiesce = none → writes (.deadlockReset src f) s (fun _ t =>
           t.flag F.fldDlStat_FROZEN f.val = false ∧ (t.field f.val).dlSince = s.now ∧ (t.field f.val).dlReset = false ∧
           (t.dense f.val).frozen = false ∧ (oneSlot → ∀ r ∈ t.hub.reqs, r.fliesIn tn f.val = false) ∧ t.trstTerm f.val tn = 60000 ∧
           ∀ k, k < 4900 → let c := Tab.get (fun _ => Tile.reset) (s.cleanImage tn f.val).tiles k
             (t.tile f.val k).frozen = false ∧ (t.tile f.val k).b = c.b ∧ (t.tile f.val k).pc = c.pc ∧ (t.tile f.val k).ts = c.ts)))) ∧
      (let armed (y : Field) (u t : State) : Prop := t.field f.val = y ∧ (∀ g, g ≠ f.val → t.field g = s.field g) ∧ keeps [.fields] u t
       writes (.dlFire src f) s (armed { x with
         dlForce := x.dlForce || (x.resident.isSome && !s.flag F.fldDlStat_FROZEN f.val) }) ∧
       writes (.cellCorrInject src f) s (armed { x with cellInj := 1 }) ∧ writes (.cellUncorrInject src f) s (armed { x with cellInj := 2 }) ∧
       writes (.treeParityInject src f) s (armed { x with treeInj := true }))) ∧
    (∀ src, (src = .sloe ∨ ∃ tn, s.wbarOwner = some tn ∧ maySource s src (.tenant tn)) → writes (.waferTreeInject src) s fun u t =>
      t.hub = { s.hub with wbarInj := true } ∧ regsKept [] u t ∧ keeps [.hub, .regs] u t) ∧
    (∀ src, writes (.syncErrClear src f) s (fun u t => t.getF F.fldSyncErr_CELL_CORR f.val = 0 ∧ t.getF F.fldSyncErr_CELL_UNCORR f.val = 0 ∧
        t.getF F.fldSyncErr_TREE_PAR f.val = 0 ∧
        regOnly .fldSyncErr f.val 0 [F.fldSyncErr_CELL_CORR, F.fldSyncErr_CELL_UNCORR, F.fldSyncErr_TREE_PAR] u t) ∧
      writes (.wbarErrClear src) s (fun u t => t.getF F.hubWbarErr_TREE_PAR = 0 ∧ regOnly .hubWbarErr 0 0 [F.hubWbarErr_TREE_PAR] u t))

/-- R281 to R287, R291: a complete record goes to the next field of the rotation; a replay that agrees ends it, one that does not counts
a MISMATCH, makes both tiles suspect and asks a referee; the referee confirms the one that stands alone; a record that no tile takes
passes on; an entry expires 24 h after its last mismatch; a tile tests itself when idle, and one that fails is to be fenced. The model's
own choices in it: assumptions 137 and 140. -/
def Obligations.WitnessExecution : Prop :=
  ∀ (f : FieldNo) (s : State), let x := s.field f.val
    let others (t : State) : Prop := ∀ g, g ≠ f.val → t.field g = s.field g
    let counts : Prop := s.flag F.hubCntCtrl_FREEZE = false ∧ s.getF F.rasWitSamples_COUNT + 1 < 2 ^ 48 - 1
    let free : Prop := ∃ i, i < 16 ∧ s.flag F.rasFencePend_VALID i = false
    let fences (pf pt : Nat) (t : State) : Prop := ∃ i, i < 16 ∧ t.flag F.rasFencePend_VALID i = true ∧ t.getF F.rasFencePend_PFIELD i = pf ∧
      t.getF F.rasFencePend_PTILE i = pt ∧ t.flag F.rasFencePend_CMD i = false
    (s.doneTrace f.val = none ∨ s.witRotate x.witNext [f.val] = none ∨ 8 ≤ x.recs.length → exec (.witnessRecordSend f) s = .next s) ∧
    (∀ k tr g, s.doneTrace f.val = some (k, tr) → s.witRotate x.witNext [f.val] = some g → x.recs.length < 8 →
      ∃ t, exec (.witnessRecordSend f) s = .next t ∧ (t.tile f.val k).trace = none ∧ (t.field f.val).witNext = g ∧
        (t.field f.val).recs = x.recs ++ [{ trace := tr, tries := 1, field := g, since := s.now }] ∧ others t ∧ keeps [.tiles, .fields] s t) ∧
    (∀ (k : TileNo) (r : Replay) (ref : Bool), let c : Instr := if ref then .refereeReplay f k r else .witnessReplay f k r
      (∀ src rc, s.recordAt f.val ref = some (src, rc) → s.witTile f.val rc ≠ some k.val ∨ s.canReplay f.val k.val rc = false →
        exec c s = .next s) ∧
      (s.recordAt f.val ref = none → exec c s = .next s)) ∧
    (∀ rc k, s.witTile f.val rc = some k → k < 4900 ∧ s.canReplay f.val k rc = true) ∧
    (∀ (k : TileNo) (r : Replay) (src : Nat) (rc : WitRec), s.recordAt f.val false = some (src, rc) → rc ∈ (s.field src).recs →
      s.witTile f.val rc = some k.val → counts → let tr := rc.trace
      let same : Prop := replaySig r = tr.crc ∧ r.asked = tr.log.map fun e => e.1
      let wp := (s.pfield f.val, s.ptile f.val k.val)
      ∃ t, exec (.witnessReplay f k r) s = .next t ∧ t.getF F.rasWitSamples_COUNT = s.getF F.rasWitSamples_COUNT + 1 ∧
        (t.field f.val).witTile = (k.val + 1) % 4900 ∧
        (s.injected 3 src = none → same → (t.field src).recs = (s.field src).recs.erase rc ∧ regsKept [.rasWitSamples] s t ∧
          keeps [.fields, .regs] s t) ∧
        (s.injected 3 src ≠ none ∨ ¬same → counted F.rasWitErr_MISMATCH 0 s t ∧ raised 1 tr.seqNo s t ∧
          (t.seq src).events.length = (s.seq src).events.length + 1 ∧
          ((∃ i j, i < 128 ∧ j < 128 ∧ i ≠ j ∧ s.flag F.rasSuspect_VALID i = false ∧ s.flag F.rasSuspect_VALID j = false) → tr.pf < 128 →
            tr.pt < 8192 → wp.2 < 8192 → (t.suspectAt tr.pf tr.pt).isSome = true ∧ (t.suspectAt wp.1 wp.2).isSome = true) ∧
          (∀ g, s.witRotate (s.field src).witNext [src, f.val] = some g → (t.field src).witNext = g ∧ ∃ q ∈ (t.field src).recs,
            q.trace = tr ∧ q.field = g ∧ q.tries = 1 ∧ q.since = s.now ∧ q.witness = some (f.val, k.val) ∧ q.witPhys = wp ∧ q.witAsked = r.asked))) ∧
    (∀ (k : TileNo) (r : Replay) (src : Nat) (rc : WitRec), s.recordAt f.val true = some (src, rc) → s.witTile f.val rc = some k.val →
      counts → let tr := rc.trace
      let isSrc : Prop := replaySig r = tr.crc ∧ r.asked = tr.log.map fun e => e.1
      let isWit : Prop := replaySig r = rc.witSig ∧ r.asked = rc.witAsked
      ∃ t, exec (.refereeReplay f k r) s = .next t ∧ (t.field src).recs = (s.field src).recs.erase rc ∧
        t.getF F.rasWitSamples_COUNT = s.getF F.rasWitSamples_COUNT + 1 ∧
        ((isSrc ↔ isWit) → regsKept [.rasWitSamples] s t ∧ keeps [.fields, .regs] s t) ∧
        (∀ guilty, (isWit ∧ ¬isSrc ∧ guilty = (tr.pf, tr.pt)) ∨ (isSrc ∧ ¬isWit ∧ guilty = rc.witPhys) →
          counted F.rasWitErr_CONFIRMED 0 s t ∧ raised 2 tr.seqNo s t ∧
          (∀ i, rc.injArg = none → guilty.2 ∉ s.badOf guilty.1 → s.suspectAt guilty.1 guilty.2 = some i → let conf := s.flag F.rasSuspect_CONF i
            let within : Prop := s.now ≤ Tab.get (fun _ => 0) s.ras.confAt i + 86400000000000
            (conf = false ∨ ¬within → t.flag F.rasSuspect_CONF i = true) ∧
            (conf = true → within → free → (∀ y ∈ s.pendFences, y.2 ≠ guilty) → (∀ e ∈ s.ras.extra, (e.1, e.2.1) ≠ guilty) →
              fences guilty.1 guilty.2 t)))) ∧
    (∀ r, x.recs.find? (fun r => decide (r.since + 1000000 ≤ s.now)) = some r → let ex := f.val :: (r.witness.map (·.1)).toList
      (r.tries < 3 → ∀ g, s.witRotate r.field ex = some g → ∃ t, exec (.witnessRecordTimeout f) s = .next t ∧ others t ∧ keeps [.fields] s t ∧
        (t.field f.val).recs = x.recs.map (fun y => if y = r then { r with tries := r.tries + 1, field := g, since := s.now } else y)) ∧
      (3 ≤ r.tries ∨ s.witRotate r.field ex = none → ∃ t, exec (.witnessRecordTimeout f) s = .next t ∧ others t ∧ keeps [.fields, .regs] s t ∧ regsKept [.rasWitErr] s t ∧
        (t.field f.val).recs = x.recs.erase r ∧ counted F.rasWitErr_DROPPED 0 s t)) ∧
    ((∀ r ∈ x.recs, s.now < r.since + 1000000) → exec (.witnessRecordTimeout f) s = .next s) ∧
    (∀ i : Fin 128, let old : Prop := s.flag F.rasSuspect_VALID i.val = true ∧ s.suspTime i.val + 86400000000000 ≤ s.now
      (¬old → exec (.suspectExpiry i) s = .next s) ∧
      (old → ∃ t, exec (.suspectExpiry i) s = .next t ∧ t.flag F.rasSuspect_VALID i.val = false ∧
        (∀ j, j < 128 → j ≠ i.val → t.reg .rasSuspect j 0 0 = s.reg .rasSuspect j 0 0) ∧ regsKept [.rasSuspect] s t ∧ keeps [.regs, .ras] s t)) ∧
    (∀ (k : TileNo) (pass : Bool), let c := s.tile f.val k.val
      let pf := s.pfield f.val
      let pt := s.ptile f.val k.val
      let key := pf * 5184 + pt
      let due := s.testDue f.val k.val
      let late : Prop := due + s.testPeriod f.val k.val < s.now ∧ Tab.get (fun _ => 0) s.ras.late key ≠ due
      let may : Prop := s.released = true ∧ s.offline f.val = false ∧ c.idle = true ∧ s.readySlot f.val k.val = none ∧ x.freezing = false ∧
        due ≤ s.now
      let inj : Prop := ∃ i ∈ s.ras.inj, i.point = 4 ∧ i.where_ = f.val ∧ i.ltile = k.val
      (¬may → exec (.tileSelfTest f k pass) s = .next s) ∧
      (s.suspectAt pf pt = none → due = max (Tab.get (fun _ => 0) s.ras.tested key) s.ras.relAt + 600000000000) ∧
      (may → ∃ t, exec (.tileSelfTest f k pass) s = .next t ∧ Tab.get (fun _ => 0) t.ras.tested key = s.now ∧
        (late → counted F.rasStStat_ST_LATE 0 s t) ∧
        (pass = true → ¬inj → (late ∨ t.regs = s.regs) ∧ keeps [.ras, .regs] s t) ∧
        (pass = false ∨ inj → raised 6 0 s t) ∧
        (pass = false → ¬inj → free → pf < 128 → pt < 8192 → pt ∉ s.badOf pf → (∀ y ∈ s.pendFences, y.2 ≠ (pf, pt)) →
          (∀ e ∈ s.ras.extra, (e.1, e.2.1) ≠ (pf, pt)) → fences pf pt t)))

/-- R232: a FENCE and an UNFENCE of one tile in one Hub cycle leave it fenced, whatever their order. -/
def Obligations.FenceBeatsUnfence : Prop :=
  ∀ (a b : Source) (f : FieldNo) (k : TileNo) (hold : Half) (s : State), maySource s a (.port (s.getF F.rasCtrl_ADMIN)) →
    maySource s b (.port (s.getF F.rasCtrl_ADMIN)) → s.offline f.val = false →
    (∃ i, i < 16 ∧ s.flag F.rasFencePend_VALID i = false) → s.ptile f.val k.val < 8192 →
    let fence : BusWrite := ⟨a, 0x300030, .w64, BitVec.ofNat 64 (1 + f.val * 2 ^ 2 + k.val * 2 ^ 9 + hold.toNat * 2 ^ 32)⟩
    let unfence : BusWrite := ⟨b, 0x300030, .w64, BitVec.ofNat 64 (2 + f.val * 2 ^ 2 + k.val * 2 ^ 9)⟩
    ∀ ws, ws = [fence, unfence] ∨ ws = [unfence, fence] → ∃ t, exec (.registerWrite ws) s = .next t ∧ ∃ i, i < 16 ∧
      t.flag F.rasFencePend_VALID i = true ∧ t.getF F.rasFencePend_PFIELD i = s.pfield f.val ∧
      t.getF F.rasFencePend_PTILE i = s.ptile f.val k.val ∧ t.flag F.rasFencePend_CMD i = true

/-- R26, R37, R43, R288 to R292, Tables 13.5 to 13.8: FENCE, UNFENCE and RETIRE enter, drop and ask, or are refused; the quiesce of a
field applies its fences under a new map, or turns into a retirement, and the field resumes 30 ms after its freeze; a retiring field
moves to the first spare or goes offline; one commanded self-test runs at a time and its result is read in `RAS_ST_STAT`. The model's own
choices in it: assumption 139. -/
def Obligations.FencesAndRetirement : Prop :=
  ∀ (f : FieldNo) (s : State), let x := s.field f.val
    let pf := s.pfield f.val
    let mine (i : Nat) : Prop := s.flag F.rasFencePend_VALID i = true ∧ s.getF F.rasFencePend_PFIELD i = pf
    (∀ src, maySource s src (.port (s.getF F.rasCtrl_ADMIN)) →
      let refused (u t : State) : Prop := t.flag F.rasCtrl_REFUSED = true ∧ regsKept [.rasCtrl] u t ∧ keeps [.regs] u t
      (∀ (k : BitVec 13) (hold : Half), let pt := s.ptile f.val k.toNat
        let full : Prop := ∀ i, i < 16 → s.flag F.rasFencePend_VALID i = true
        let its (i : Nat) : Prop := mine i ∧ s.getF F.rasFencePend_PTILE i = pt
        let legal : Prop := s.offline f.val = false ∧ k.toNat < 4900
        (¬legal ∨ full → writes (.fence src f k hold) s refused) ∧
        (legal → ¬full → writes (.fence src f k hold) s fun u t => ∃ i, i < 16 ∧ s.flag F.rasFencePend_VALID i = false ∧
          t.flag F.rasFencePend_VALID i = true ∧ t.getF F.rasFencePend_PFIELD i = pf ∧ t.getF F.rasFencePend_PTILE i = pt % 2 ^ 13 ∧
          t.flag F.rasFencePend_CMD i = true ∧ Tab.get (fun _ => 0) t.ras.fenceDue i = s.now + hold.toNat * 1000000 ∧
          (∀ j, j < 16 → j ≠ i → t.reg .rasFencePend j 0 0 = s.reg .rasFencePend j 0 0) ∧ regsKept [.rasFencePend] u t ∧ keeps [.regs, .ras] u t) ∧
        (¬legal ∨ (∀ i, i < 16 → ¬its i) → writes (.unfence src f k) s refused) ∧
        (legal → (∃ i, i < 16 ∧ its i) → writes (.unfence src f k) s fun u t => (∀ i, i < 16 →
          let cmd (j : Nat) : Prop := s.flag F.rasFencePend_CMD j = true
          let kept : Prop := ¬its i ∨ cmd i ∧ Tab.get (fun _ => 0) s.ras.fenceAt i = s.now ∨ ¬cmd i ∧ ∃ j, j < 16 ∧ its j ∧ cmd j
          (kept → t.reg .rasFencePend i 0 0 = s.reg .rasFencePend i 0 0) ∧ (¬kept → t.flag F.rasFencePend_VALID i = false)) ∧
          regsKept [.rasFencePend] u t ∧ keeps [.regs, .ras] u t)) ∧
      (s.offline f.val = true → writes (.retire src f) s refused) ∧
      (s.offline f.val = false → writes (.retire src f) s fun u t => f.val ∈ t.ras.retire ∧ keeps [.ras] u t) ∧
      (∀ (kind : BitVec 2) (num : BitVec 7), let k := kind.toNat
        let n := num.toNat
        let ok : Prop := s.ras.st = none ∧ (k = 1 ∧ n < 92 ∧ s.offline n = false ∨ k = 2 ∧ n < 16 ∨
          k = 3 ∧ n < 96 ∧ s.getF F.fldPmap_ROLE n = 1)
        (k ≠ 0 → ¬ok → writes (.commandedSelfTest src kind num) s refused) ∧
        (ok → writes (.commandedSelfTest src kind num) s fun _ t => t.flag F.rasStStat_BUSY = true ∧ t.getF F.rasStStat_KIND = k ∧
          t.getF F.rasStStat_NUM = n ∧ t.ras.st = some (k, n, s.now) ∧
          (k = 1 → (s.field n).switching = none → (s.field n).quiesce = none → (t.field n).quiesce = some ⟨2, s.now, 100000000, 0, false⟩ ∧
            ∀ j, j < 4900 → (t.tile n j).frozen = true)))) ∧
    (∀ r : TestResult,
      let due : Prop := (∃ i, i < 16 ∧ mine i ∧ Tab.get (fun _ => 0) s.ras.fenceDue i ≤ s.now) ∨ ∃ e ∈ s.ras.extra, e.1 = pf
      let may : Prop := s.released = true ∧ s.offline f.val = false ∧ due ∧ x.quiesce = none ∧ x.switching = none
      (¬may → exec (.fenceQuiesce f r) s = .next s) ∧
      (may → ∃ t, exec (.fenceQuiesce f r) s = .next t ∧ (∀ i, i < 16 → mine i → t.flag F.rasFencePend_VALID i = false) ∧
        (∀ i, i < 16 → mine i → s.getF F.rasFencePend_PTILE i ∈ t.badOf pf) ∧ (∀ k, k < 4900 → (t.tile f.val k).frozen = true) ∧
        t.pfield f.val = pf ∧ (∃ q, (t.field f.val).quiesce = some q ∧ q.start = s.now ∧ q.len = 30000000 ∧
          (mapOf (t.badOf pf) = none → q.kind = 3 ∧ f.val ∈ t.ras.retire) ∧
          (∀ m, mapOf (t.badOf pf) = some m → r.tiles = [] → q.kind = 0 ∧ t.getF F.fldMapRows_SKIP_ROW0 f.val = m.r0 ∧
            t.getF F.fldMapRows_SKIP_ROW1 f.val = m.r1 ∧ counted F.fldId_MAP_GEN f.val s t)))) ∧
    (let over_ (k : Nat) (q : Quiesce) : Prop := x.quiesce = some q ∧ q.kind = k ∧ q.start + q.len ≤ s.now
     let resumes (t : State) : Prop := (t.field f.val).quiesce = none ∧ (∀ g, g ≠ f.val → t.field g = s.field g) ∧
       (x.switching = none → s.flag F.fldDlStat_FROZEN f.val = false → ∀ k, k < 4900 → (t.tile f.val k).frozen = false) ∧
       keeps [.fields, .tiles, .regs, .ras, .sloe] s t
     ((∀ q, ¬over_ 0 q) → exec (.fenceResume f) s = .next s) ∧ ((∀ q, ¬over_ 1 q) → exec (.retirementResume f) s = .next s) ∧
     (∀ q, over_ 0 q → ∃ t, exec (.fenceResume f) s = .next t ∧ resumes t ∧ raised 3 q.fences s t) ∧
     (∀ q, over_ 1 q → ∃ t, exec (.retirementResume f) s = .next t ∧ resumes t ∧ raised 4 pf s t)) ∧
    (∀ bad : List PField,
      let may : Prop := s.released = true ∧ s.offline f.val = false ∧ f.val ∈ s.ras.retire ∧ x.switching = none ∧
        (x.quiesce = none ∨ ∃ q, x.quiesce = some q ∧ q.kind = 3)
      (¬may → exec (.retirementQuiesce f bad) s = .next s) ∧
      (∀ p ps m, may → s.spares = p :: ps → (∀ b ∈ bad, b.val ≠ p) → mapOf (s.badOf p) = some m → p ≠ pf → ∃ t,
        exec (.retirementQuiesce f bad) s = .next t ∧ t.pfield f.val = p ∧ t.getF F.fldPmap_LFIELD p = f.val ∧ t.getF F.fldPmap_ROLE p = 0 ∧
        t.getF F.fldPmap_ROLE pf = 2 ∧ t.ras.retire = s.ras.retire.erase f.val ∧
        (s.getF F.pwrDom_STATE p ≠ 3 → t.getF F.pwrDom_STATE p = 2) ∧ (s.getF F.pwrDom_STATE pf ≠ 3 → t.getF F.pwrDom_STATE pf = 0) ∧
        ∃ q, (t.field f.val).quiesce = some q ∧ q.kind = 1 ∧ q.len = 400000000) ∧
      (may → s.spares = [] → ∃ t, exec (.retirementQuiesce f bad) s = .next t ∧ t.offline f.val = true ∧ (t.field f.val).resident = none ∧
        (t.field f.val).quiesce = none ∧ t.getF F.fldPmap_ROLE pf = 2)) ∧
    (∀ r : TestResult, let dur (k : Nat) := if k = 1 then 100000000 else if k = 2 then 2500000000 else 90000000
      let ends (k n a : Nat) : Prop := s.ras.st = some (k, n, a) ∧ a + dur k ≤ s.now ∧
        (k = 1 → s.offline n = true ∨ ∃ q, (s.field n).quiesce = some q ∧ q.kind = 2)
      ((∀ k n a, ¬ends k n a) → exec (.stDone r) s = .next s) ∧
      (∀ k n a, ends k n a → ∃ t, exec (.stDone r) s = .next t ∧ t.flag F.rasStStat_BUSY = false ∧ t.ras.st = none ∧
        (r.tiles = [] → r.part = false → s.ras.inj = [] → (k = 2 → s.stackBad n = false) → t.getF F.rasStStat_RESULT = 1) ∧
        (r.part = true → t.getF F.rasStStat_RESULT = 3 ∧ (k = 1 → n < 92 → s.offline n = false → n ∈ t.ras.retire) ∧
          (k = 2 → n < 16 → t.flag F.hbmStat_OFFLINE n = true) ∧ (k = 3 → n < 96 → t.getF F.fldPmap_ROLE n = 3))))

/-- R293 to R299, Table 13.4: a `RAS_INJECT` write arms the detector of its code and place, or is refused; the scrub restores a hardened
word with one bad copy and resets or rebuilds one with two; CLEAR of `RAS_HARD`; one message tells a port of every event since the last.
The model's own choices in it: assumption 138. -/
def Obligations.RasInjection : Prop :=
  ∀ s : State,
    (∀ (src : Source) (v : DWord), maySource s src (.port (s.getF F.rasCtrl_ADMIN)) → let n := v.toNat
      let p := n % 2 ^ 8
      let w := n / 2 ^ 8 % 2 ^ 7
      let tl := n / 2 ^ 15 % 2 ^ 13
      let arg := n / 2 ^ 32
      let does (P : State → Prop) : Prop := writes (.rasInject src v) s fun _ t => P t
      let bad : Prop := (p ∈ [1, 2, 4, 0x15] ∧ (92 ≤ w ∨ 4900 ≤ tl)) ∨ (p ∈ [3, 7, 8, 9, 0xC, 0xD, 0x10, 0x11, 0x12, 0x20] ∧ 92 ≤ w) ∨
        (p ∈ [0xA, 0xB] ∧ 96 ≤ w) ∨ (p ∈ [0xE, 0xF, 0x14] ∧ 16 ≤ w) ∨ (p = 0x13 ∧ 4 ≤ w) ∨ p = 0 ∨ (0x15 < p ∧ p ∉ [0x20, 0x21, 0x30, 0x31, 0x32, 0x33])
      (bad → writes (.rasInject src v) s fun u t => t.flag F.rasCtrl_REFUSED = true ∧ regsKept [.rasCtrl] u t ∧ keeps [.regs] u t) ∧
      (¬bad → (p = 1 ∨ p = 2 → does fun t => (t.tile w tl).sramInj = p ∧ t.ras.inj = s.ras.inj) ∧
        (p ∈ [3, 4, 0x14, 0x15, 0x21, 0x31, 0x32] → does fun t => t.ras.inj = s.ras.inj ++ [{ point := p, where_ := w, ltile := tl, arg := arg }]) ∧
        (p = 5 ∨ p = 6 → (∃ r i j, regAt (arg / 8 * 8) = some (r, i, j) ∧ r.hardened = true) → s.hardCopies (arg / 8 * 8) = [0, 0, 0] →
          does fun t => t.hardAt (arg / 8 * 8) = p - 4) ∧ (p = 7 ∨ p = 8 → does fun t => (t.field w).laneInj = p - 6) ∧
        (p = 9 → does fun t => (t.field w).dropInj = true) ∧
        (p = 0xA ∨ p = 0xB → does fun t => Tab.get (fun _ => 0) t.mesh.trunkInj w = p - 9) ∧
        (p = 0xC ∨ p = 0xD → does fun t => (t.dense w).inj = p - 0xB + 2 * (arg / 2 % 2)) ∧
        (p = 0xE ∨ p = 0xF → does fun t => Tab.get (fun _ => 0) t.hbm.inj w = p - 0xD ∧ t.hbm.bytes = s.hbm.bytes) ∧
        (p = 0x10 ∨ p = 0x11 → does fun t => (t.seq w).storeInj = p - 0xF) ∧ (p = 0x12 → does fun t => (t.seq w).mfault = true) ∧
        (p = 0x13 → does fun t => (t.port w).withheldUntil = s.now + 60000000) ∧
        (p = 0x20 → does fun t => (t.pfld w).injUntil = s.now + 1000000000) ∧
        (p = 0x30 → s.sloe.stopped = false → does fun t => t.alarmNow 3 = true) ∧
        (p = 0x33 → does fun t => Tab.get zeroByte t.sloe.active 0 = Tab.get zeroByte s.sloe.active 0 ^^^ 1))) ∧
    (∀ off : BitVec 26, let a := off.toNat / 8 * 8
      (s.hardAt a = 0 → exec (.hardenedScrub off) s = .next s) ∧
      (∀ r i j, regAt a = some (r, i, j) → r.hardened = true →
        (s.hardAt a = 1 → ∃ t, exec (.hardenedScrub off) s = .next t ∧ counted F.rasHard_CORR 0 s t ∧ t.hardAt a = 0 ∧
          regsKept [.rasHard] s t ∧ keeps [.regs, .ras] s t) ∧
        (s.hardAt a = 2 → ∃ t, exec (.hardenedScrub off) s = .next t ∧ counted F.rasHard_UNCORR 0 s t ∧ t.getF F.rasHard_LAST_OFFSET = a ∧
          t.hardAt a = 0 ∧ raised 8 a s t ∧ keeps [.regs, .ras, .sloe, .hub] s t ∧
          (r ∉ [Reg.hubTblGeom, .hubTblBaseA, .hubTblBaseB, .hubTblCtrl] → t.hub = s.hub ∧
            (r.desc.fields.all (fun d => d.acc == .rw || d.acc == .rwl) = true → r.isMap = false → ∀ d ∈ r.desc.fields,
              ∀ k, (if r.desc.perSrc then 1 ≤ k ∧ k ≤ 6 else k = 0) → bitsOf (t.reg r i j k) d.lsb d.width = d.reset))))) ∧
    (∀ src, writes (.rasHardClear src) s fun u t => t.getF F.rasHard_CORR = 0 ∧ t.getF F.rasHard_UNCORR = 0 ∧ t.getF F.rasHard_LAST_OFFSET = 0 ∧
      (∀ f, f < 92 → t.reg .rasFldErr f 0 0 = 0) ∧ regsKept [.rasHard, .rasFldErr] u t ∧ keeps [.regs] u t) ∧
    (∀ p : Port, let may : Prop := p.val ∈ s.ras.notifyDue ∧ (∀ e, s.ras.notifyAt.find? (fun e => e.1 == p.val) = some e → e.2 + 10000 ≤ s.now) ∧
        s.portIssues p.val = true ∧ s.creditNow p.val ≠ 0
      (¬may → exec (.rasNotify p) s = .next s) ∧
      (may → ∃ t, exec (.rasNotify p) s = .next t ∧ t.msix = s.msix ++ [⟨p.val, s.getF F.prtCfg_EVT_VEC p.val, s.now⟩] ∧
        t.ras.notifyDue = s.ras.notifyDue.erase p.val ∧ keeps [.ras, .msix] s t))

/-- R27, R202, R303 to R314, Tables 14.1 to 14.3: a quiet field lends what the point it holds does not need, recalls it at its first
wake and has it back at the end; the report of a re-evaluation, what a lending field lends after it, the credit that a slower point
returns and the conservation of credit; the stages of a transition, rail before clock to a faster point and clock before rail to a slower
one; the thermal, HBM, current and envelope ceilings. The model's own choices in it: assumptions 49 and 143. -/
def Obligations.PowerManager : Prop :=
  ∀ (f : FieldNo) (s : State), let x := s.pfld f.val
    let us := s.getF F.pwrLendThreshold_US
    let parts : List Part := [.pwr, .regs, .fields, .ras, .sloe]
    let frame (t : State) : Prop := keeps parts s t ∧ (∀ g, g ≠ f.val → t.field g = s.field g) ∧ t.seq f.val = s.seq f.val
    let lends (t : State) : Bool := t.flag F.pwrFldStat_LENDING f.val
    let fuse := s.fuseOp (s.pfield f.val)
    let lentOk : Prop := ∀ g ∈ s.onlineFields, s.flag F.pwrFldStat_LENDING g = true → (s.pfld g).lent = s.baseQ - opQ (s.heldOp g)
    let settled : Prop := lentOk ∧ ∀ g ∈ s.onlineFields, (s.pfld g).borrowed ≤ s.needQ g
    (let kept := opQ (s.heldOp f.val)
     let may : Prop := s.released = true ∧ s.offline f.val = false ∧ us ≠ 0 ∧ s.quiet f.val = true ∧
       (s.field f.val).quietSince + us * 1000 ≤ s.now ∧ s.flag F.pwrFldReq_PIN f.val = false ∧ lends s = false ∧ x.recallAt = none
     (¬may → exec (.lend f) s = .next s) ∧
     (may → s.baseQ ≤ kept → ∃ t, exec (.lend f) s = .next t ∧ lends t = false ∧ (t.pfld f.val).lent = x.lent ∧ (t.pfld f.val).borrowed = 0 ∧
       (settled → s.flag F.pwrCfg_BOOST = false → t.pwr.free = s.pwr.free + x.borrowed) ∧ keeps [.pwr, .regs, .ras, .sloe] s t) ∧
     (may → kept < s.baseQ → ∃ t, exec (.lend f) s = .next t ∧ lends t = true ∧ (t.pfld f.val).lent = s.baseQ - kept ∧
       (t.field f.val).woken = false ∧ frame t ∧ (t.pfld f.val).borrowed = 0 ∧ (settled → s.flag F.pwrCfg_BOOST = false →
         t.pwr.free = s.pwr.free + x.borrowed + (s.baseQ - kept)) ∧
       (s.flag F.hubCntCtrl_FREEZE = false → s.getF F.pwrCntLend_COUNT + 1 < 2 ^ 48 - 1 → t.getF F.pwrCntLend_COUNT = s.getF F.pwrCntLend_COUNT + 1))) ∧
    ((s.field f.val).woken = false ∨ lends s = false → exec (.recall f) s = .next s) ∧
    ((s.field f.val).woken = true → lends s = true → ∃ t, exec (.recall f) s = .next t ∧ lends t = false ∧ (t.pfld f.val).lent = x.lent ∧
      (t.pfld f.val).recallAt = some s.now ∧ (t.field f.val).woken = false ∧ (t.field f.val).quietSince = s.now ∧ frame t ∧
      (settled → x.lent ≤ s.pwr.free → s.flag F.pwrCfg_BOOST = false → t.pwr.free = s.pwr.free - x.lent ∧
        ∀ g, g ≠ f.val → (t.pfld g).borrowed = (s.pfld g).borrowed)) ∧
    (x.recallAt = none → exec (.recallComplete f) s = .next s) ∧
    (x.recallAt ≠ none → ∃ t, exec (.recallComplete f) s = .next t ∧ (t.pfld f.val).recallAt = none ∧
      (lends s = false → (t.pfld f.val).lent = 0) ∧ frame t ∧
      t.fields = s.fields) ∧
    (∀ src, maySource s src (.port (s.getF F.pwrCfg_ADMIN)) →
      (∀ v : DWord, v.toNat % 2 ^ 16 ≠ 0 → writes (.lendThresholdWrite src v) s fun u t =>
        t.getF F.pwrLendThreshold_US = v.toNat % 2 ^ 16 ∧ regOnly .pwrLendThreshold 0 0 [F.pwrLendThreshold_US] u t) ∧
      (∀ v : DWord, v.toNat % 2 ^ 16 = 0 → writes (.lendThresholdWrite src v) s fun _ t => t.getF F.pwrLendThreshold_US = 0 ∧
        (s.offline f.val = false → lends t = false) ∧ keeps (.bus :: parts) s t) ∧
      (∀ v : DWord, writes (.fieldReqWrite src f v) s fun _ t => let n := v.toNat
        t.getF F.pwrFldReq_CAP_OP f.val = n % 2 ^ 3 ∧ t.getF F.pwrFldReq_FLOOR_OP f.val = n / 2 ^ 4 % 2 ^ 3 ∧
        t.getF F.pwrFldReq_PIN f.val = n / 2 ^ 8 % 2 ∧ t.getF F.pwrFldReq_PIN_OP f.val = n / 2 ^ 9 % 2 ^ 3 ∧
        (n / 2 ^ 8 % 2 = 1 → lends t = false ∧ (t.pfld f.val).borrowed = 0) ∧ keeps (.bus :: parts) s t)) ∧
    (let borrowed (t : State) : Nat := (s.onlineFields.map fun g => (t.pfld g).borrowed).sum
     (s.released = false → exec .opReevaluation s = .next s) ∧
     (s.released = true → ∃ t, exec .opReevaluation s = .next t ∧
       (lentOk → t.pwr.free + borrowed t = s.pwr.free + borrowed s) ∧
       (s.offline f.val = false → lends s = true → (t.pfld f.val).lent = s.baseQ - opQ (s.heldOp f.val)) ∧
       (lentOk → s.flag F.pwrCfg_BOOST = false ∨ s.pwr.excess = true →
         ∀ g ∈ s.onlineFields, (t.pfld g).borrowed = min (s.pfld g).borrowed (s.needQ g)) ∧
       (s.offline f.val = false → t.getF F.pwrFldStat_CEIL f.val = s.ceil f.val % 2 ^ 3 ∧ t.flag F.pwrFldStat_QUIET f.val = s.quiet f.val ∧
         t.getF F.pwrFldStat_CREDIT_Q f.val = t.credit f.val % 2 ^ 16 ∧
         t.flag F.pwrFldStat_BORROWING f.val = decide (0 < (t.pfld f.val).borrowed)) ∧ lends t = lends s ∧
       t.getF F.pwrStat_FREE_Q = min t.pwr.free 0xFFFF ∧ keeps [.pwr, .regs, .ras, .sloe] s t)) ∧
    (let k := s.targetOp f.val
     (s.released = false ∨ s.offline f.val = true → exec (.opTransition f) s = .next s) ∧
     (s.released = true → s.offline f.val = false →
       let op := s.getF F.pwrFldStat_OP f.val
       let rail := s.getF F.pwrFldStat_RAIL f.val
       let clock (t : State) : Prop := t.getF F.pwrFldStat_OP f.val = k % 2 ^ 3 ∧ keeps [.regs, .fields] s t ∧
         regOnly .pwrFldStat f.val 0 [F.pwrFldStat_OP] { s with fields := t.fields } t ∧ (∀ g, g ≠ f.val → t.field g = s.field g) ∧
         (t.field f.val).dlCyc = (s.field f.val).dlCyc + (s.now - (s.field f.val).dlSince) * opMhz op ∧
         (t.field f.val).dlSince = s.now ∧ (t.field f.val).cyc = s.fieldCyc f.val ∧ (t.field f.val).cycAt = s.now
       (op < k → ∃ t, exec (.opTransition f) s = .next t ∧ clock t) ∧
       (k ≤ op → rail < opRail k → ∃ t, exec (.opTransition f) s = .next t ∧ t.getF F.pwrFldStat_RAIL f.val = opRail k ∧
         t.getF F.pwrFldStat_OP f.val = op ∧ (t.pfld f.val).railAt = s.now + (opRail k - rail) * 50 ∧
         regOnly .pwrFldStat f.val 0 [F.pwrFldStat_RAIL] { s with pwr := t.pwr } t ∧ keeps [.regs, .pwr] s t) ∧
       (k < op → opRail k ≤ rail → x.railAt ≤ s.now → ∃ t, exec (.opTransition f) s = .next t ∧ clock t) ∧
       (k < op → opRail k ≤ rail → s.now < x.railAt → exec (.opTransition f) s = .next s) ∧
       (k = op → opRail k ≤ rail → ∃ t, exec (.opTransition f) s = .next t ∧ t.getF F.pwrFldStat_RAIL f.val = opRail k ∧
         regOnly .pwrFldStat f.val 0 [F.pwrFldStat_RAIL] s t)) ∧
     (s.flag F.pwrFldReq_PIN f.val = false → let ok (j : Nat) : Prop := j < 8 ∧ s.ceil f.val ≤ j ∧ s.getF F.pwrFldReq_CAP_OP f.val ≤ j ∧
         (s.flag F.pwrCfg_BOOST = false → 3 ≤ j) ∧ opQ j ≤ s.credit f.val
       (∃ j, ok j) → ok k ∧ ∀ j, ok j → k ≤ j)) ∧
    (let therm (v : Nat) (t : State) : Prop := (t.pfld f.val).therm = v ∧ (t.pfld f.val).thermAt = s.now ∧
         (lends s = false → (t.pfld f.val).lent = x.lent)
     (∀ a b c d : Byte, let hot := max (max a.toNat b.toNat) (max c.toNat d.toNat)
       let v := if s.now < x.injUntil then 100 else hot
       let was := s.getF F.pwrFldStat_TEMP f.val
       ∃ t, exec (.junctionSense f a b c d) s = .next t ∧ t.getF F.pwrFldStat_TEMP f.val = v ∧ keeps [.pwr, .regs, .ras, .sloe] s t ∧
         (110 ≤ v → therm 7 t) ∧ (100 ≤ v → v < 110 → was < 100 → therm (min 7 (max x.therm fuse + 1)) t) ∧
         (v ≤ 95 → 95 < was → therm x.therm t) ∧ (95 < v → v < 100 → t.pwr = s.pwr)) ∧
     (let temp := s.getF F.pwrFldStat_TEMP f.val
      let hot : Prop := 100 ≤ temp ∧ x.thermAt + 1000000 ≤ s.now
      let cool : Prop := temp ≤ 95 ∧ fuse < x.therm ∧ x.thermAt + 10000000 ≤ s.now
      (¬hot → ¬cool → exec (.thermalCeilingStep f) s = .next s) ∧
      (hot → ∃ t, exec (.thermalCeilingStep f) s = .next t ∧ therm (min 7 (max x.therm fuse + 1)) t ∧ keeps [.pwr, .regs, .ras, .sloe] s t) ∧
      (cool → ∃ t, exec (.thermalCeilingStep f) s = .next t ∧ therm (x.therm - 1) t ∧ keeps [.pwr, .regs, .ras, .sloe] s t)) ∧
     (∀ (m : Stack) (temp : Byte), ∃ t, exec (.hbmThermalCeiling m temp) s = .next t ∧ t.getF F.hbmStat_TEMP m.val = temp.toNat ∧
       (m.val ∈ t.pwr.hbmHot ↔ 95 ≤ temp.toNat ∨ 90 ≤ temp.toNat ∧ m.val ∈ s.pwr.hbmHot) ∧
       (∀ k, k ≠ m.val → (k ∈ t.pwr.hbmHot ↔ k ∈ s.pwr.hbmHot)) ∧ keeps [.pwr, .regs, .ras, .sloe] s t) ∧
     (∀ amps : Nat,
       let power (t : State) : Prop := t.getF F.pwrFldStat_POWER_Q f.val = min 0xFFFF (amps * s.getF F.pwrFldStat_RAIL f.val / 50)
       let cur (v : Nat) : Prop := ∃ t, exec (.currentCeiling f amps) s = .next t ∧ (t.pfld f.val).cur = v ∧ power t ∧
         (t.pfld f.val).curAt = s.now ∧ keeps [.pwr, .regs, .ras, .sloe] s t
       (190 < amps → cur (min 7 (s.ceil f.val + 1))) ∧
       (amps ≤ 190 → x.cur = 0 ∨ s.now < x.curAt + 1000000 → ∃ t, exec (.currentCeiling f amps) s = .next t ∧ power t ∧
         regOnly .pwrFldStat f.val 0 [F.pwrFldStat_POWER_Q] s t) ∧
       (amps ≤ 190 → 0 < x.cur → x.curAt + 1000000 ≤ s.now → cur (if x.cur - 1 ≤ fuse then 0 else x.cur - 1)))) ∧
    (∀ w : Nat, let lim := s.envelope
      let e := s.pwr.energyRem + w
      let pin (g : Nat) : Bool := s.flag F.pwrFldReq_PIN g
      let anyB : Prop := ∃ g ∈ s.onlineFields, 0 < (s.pfld g).borrowed
      let slow (g : Nat) : Nat := min 7 (s.ceil g + 1)
      let fast (g : Nat) : Nat := if (s.pfld g).env ≤ s.fuseOp (s.pfield g) + 1 then 0 else (s.pfld g).env - 1
      let env (t : State) (pins frees : Nat → Nat) : Prop := ∀ g ∈ s.onlineFields, (t.pfld g).env = if pin g then pins g else frees g
      let old (g : Nat) : Nat := (s.pfld g).env
      ∃ t, exec (.envelopeCeiling w) s = .next t ∧ t.getF F.pwrStat_INPUT_W = min w 0xFFFF ∧ t.pwr.energyRem = e % 10 ∧
        keeps [.pwr, .regs, .ras, .sloe] s t ∧
        (s.flag F.hubCntCtrl_FREEZE = false → s.getF F.pwrEnergy_COUNT + e / 10 < 2 ^ 48 - 1 →
          t.getF F.pwrEnergy_COUNT = s.getF F.pwrEnergy_COUNT + e / 10) ∧
        (lim < w → anyB → env t old old ∧ ∀ g ∈ s.onlineFields, (t.pfld g).borrowed = 0) ∧
        (lim < w → ¬anyB → s.now < s.pwr.envAt + 100000 → env t old old) ∧
        (lim < w → ¬anyB → s.pwr.envAt + 100000 ≤ s.now → let some_ : Prop := ∃ g ∈ s.onlineFields, pin g = false ∧ s.targetOp g < 7
          (some_ → env t old slow) ∧ (¬some_ → env t slow old)) ∧
        (w ≤ lim → lim ≤ w + 200 → env t old old ∧ t.pwr.lowSince = none) ∧
        (w + 200 < lim → s.pwr.lowSince = none → env t old old ∧ t.pwr.lowSince = some s.now) ∧
        (∀ a, w + 200 < lim → s.pwr.lowSince = some a → a + 1000000 ≤ s.now → let some_ : Prop := ∃ g ∈ s.onlineFields, pin g = true ∧ 0 < old g
          (some_ → env t fast old) ∧ (¬some_ → env t old fast)))

/-- R300 to R302, R320, Tables 14.1, 14.8: OFF_REQ switches a link domain and is refused for every other; a domain that is ON and loses
power-good counts a fault and takes its part out; a ramped link domain trains its link; FREEZE and ZERO of the counters. -/
def Obligations.PowerDomains : Prop :=
  ∀ (d : Domain) (s : State), let n := d.val
    let k := n - 112
    let link : Prop := 112 ≤ n ∧ n < 128
    let st := s.getF F.pwrDom_STATE n
    (∀ src, maySource s src (.port (s.getF F.pwrCfg_ADMIN)) →
      (¬link → writes (.domainOffReq src d false) s (fun u t => t = u) ∧ writes (.domainOffReq src d true) s (fun u t =>
        t.flag F.pwrDom_REFUSED n = true ∧ regOnly .pwrDom n 0 [F.pwrDom_REFUSED] u t)) ∧
      (link → writes (.domainOffReq src d true) s (fun _ t => t.flag F.pwrDom_OFF_REQ n = true ∧ t.getF F.tchLinkStat_STATE k = 0 ∧
          t.getF F.pwrDom_STATE n = if st = 3 then 3 else 0) ∧
        writes (.domainOffReq src d false) s (fun u t => t.flag F.pwrDom_OFF_REQ n = false ∧
          t.getF F.pwrDom_STATE n = (if s.flag F.pwrDom_OFF_REQ n = true ∧ st = 0 then 1 else st) ∧
          regOnly .pwrDom n 0 [F.pwrDom_OFF_REQ, F.pwrDom_STATE] { u with pwr := t.pwr } t)) ∧
      (∀ on, writes (.freezeCounters src on) s (fun u t => t.flag F.hubCntCtrl_FREEZE = on ∧ regOnly .hubCntCtrl 0 0 [F.hubCntCtrl_FREEZE] u t)) ∧
      (let cnts : List Reg := [.seqCnt, .dnsCntPass, .dnsCntStream, .hubSpill, .hbmCntRd, .hbmCntWr, .tchLinkCnt, .pwrEnergy, .pwrCntLend]
       writes (.zeroCounters src) s fun u t => (∀ r ∈ cnts, ∀ i j, t.reg r i j 0 = 0) ∧ t.getF F.rasWitSamples_COUNT = 0 ∧
         t.getF F.rasWitSamples_OVF = 0 ∧ regsKept (.rasWitSamples :: cnts) u t ∧ keeps [.regs] u t)) ∧
    (st ≠ 2 → exec (.domainFault d) s = .next s) ∧
    (st = 2 → ∃ t, exec (.domainFault d) s = .next t ∧
      (n < 128 → t.getF F.pwrDom_STATE n = 3 ∧ counted F.pwrDom_FAULTS n s t) ∧
      (n < 96 → s.getF F.fldPmap_ROLE n = 0 → s.getF F.fldPmap_LFIELD n < 92 → s.getF F.fldPmap_LFIELD n ∈ t.ras.retire) ∧
      (n < 96 → s.getF F.fldPmap_ROLE n = 1 → t.getF F.fldPmap_ROLE n = 3) ∧
      (96 ≤ n → n < 112 → t.flag F.hbmStat_OFFLINE (n - 96) = true) ∧ (link → t.getF F.tchLinkStat_STATE k = 0) ∧
      (128 ≤ n → t.getF F.sloAlarm_PF_DOMAIN = n ∧ t.getF F.sloAlarm_PENDING / 2 ^ 4 % 2 = 1)) ∧
    (let done : Prop := link ∧ st = 1 ∧ Tab.get (fun _ => 0) s.pwr.rampAt n + 500000 ≤ s.now
     (¬done → exec (.domainRampDone d) s = .next s) ∧
     (done → ∃ t, exec (.domainRampDone d) s = .next t ∧ t.getF F.pwrDom_STATE n = 2 ∧
       (s.getF F.tchLinkStat_STATE k = 0 → s.flag F.tchLinkCtrl_EN k = true → s.unusedLink k = false → s.getF F.tchUnit_TOPO ≠ 0 →
         t.getF F.tchLinkStat_STATE k = 1)))

/-- R263 to R266, R270, R273, R274, R277, R278, Tables 12.1 to 12.3: EN, RETRAIN and CLEAR of a link; its states from DETECT to ACTIVE,
each by its own event and with its own limit; the width its lanes allow, this side's CTRL flit and the lanes' scrambler seeds (free
values); the checks of a partner's third CTRL flit and the credits it brings; the writes of `TCH_UNIT`, of apertures and export windows,
legal or refused; the injections. The model's own choices in it: assumption 136. -/
def Obligations.LinkTraining : Prop :=
  ∀ (k : LinkNo) (s : State), let l := s.link k.val
    let st (t : State) : Nat := t.getF F.tchLinkStat_STATE k.val
    let en := s.flag F.tchLinkCtrl_EN k.val
    let why (t : State) : Nat := t.getF F.tchLinkStat_REASON k.val
    let fails (r : Nat) (t : State) : Prop := st t = 7 ∧ why t = r ∧
      t.reg .rasLog ((t.getF F.rasLogTail_TAIL + 255) % 256) 0 0 % 2 ^ 8 = 0x0D
    let moves (n : Nat) (t : State) : Prop := st t = n ∧ (t.link k.val).since = s.now ∧ regsKept [.tchLinkStat] s t ∧ keeps [.regs, .links] s t
    let phase := if st s = 6 then l.phase else st s
    (∀ src, maySource s src (.port (s.getF F.tchUnit_ADMIN)) →
      (∀ x8 : Bool, let free : Prop := st s = 0 ∧ s.unusedLink k.val = false
        let dom := s.getF F.pwrDom_STATE (112 + k.val)
        writes (.linkEnable src k x8) s fun _ t => t.flag F.tchLinkCtrl_EN k.val = true ∧ t.flag F.tchLinkCtrl_ALLOW_X8 k.val = x8 ∧
          (en = true ∨ ¬free → st t = st s ∧ t.links = s.links) ∧
          (en = false → free → s.getF F.tchUnit_TOPO = 0 → fails 3 t) ∧
          (en = false → free → s.getF F.tchUnit_TOPO ≠ 0 → dom = 2 → st t = 1) ∧
          (en = false → free → s.getF F.tchUnit_TOPO ≠ 0 → dom = 0 → s.flag F.pwrDom_OFF_REQ (112 + k.val) = false → st t = 0 ∧
            t.getF F.pwrDom_STATE (112 + k.val) = 1)) ∧
      writes (.linkDisable src k) s (fun _ t => t.flag F.tchLinkCtrl_EN k.val = false ∧ st t = 0 ∧
        t.flag F.tchLinkCtrl_ALLOW_X8 k.val = s.flag F.tchLinkCtrl_ALLOW_X8 k.val ∧
        (st s ≠ 0 → (t.link k.val).out = [] ∧ (t.link k.val).lost = l.lost ++ l.out ∧ (t.link k.val).replay = [])) ∧
      (en = true → writes (.retrain src k) s fun u t => let recent := l.retrains.filter fun a => decide (s.now < a + 1000000000)
        (st s ≠ 5 → keeps [.regs] u t ∧ regsKept [] u t) ∧ (st s = 5 → recent.length < 2 → st t = 6 ∧ (t.link k.val).phase = 3) ∧
        (st s = 5 → 2 ≤ recent.length → fails 6 t)) ∧
      (en = true ∨ st s = 0 → writes (.linkErrClear src k) s fun u t => t.reg .tchLinkErr k.val 0 0 = 0 ∧ regsKept [.tchLinkErr] u t ∧ keeps [.regs] u t) ∧
      (let armed (y : Link) (u t : State) : Prop := t.link k.val = y ∧ (∀ j, j ≠ k.val → t.link j = s.link j) ∧ keeps [.links] u t
       let zeros : List Byte := List.replicate 248 0
       let cw := (codeword (flitBytes (idleHeader l.seq l.ack l.nak) zeros)).modifyHead (~~~ ·)
       (st s ≠ 5 → writes (.injSym src k) s (armed { l with sym := true })) ∧
       (st s = 5 → writes (.injSym src k) s fun u t =>
         armed { l with sym := false, idleIn := 0, wire := (t.link k.val).wire, scr := (t.link k.val).scr } u t ∧
         (t.link k.val).wire = (upTo 16).map fun j => (laneSymbols (Tab.get (fun _ => 0) l.scr j) ((cw.mapIdx fun i b => (i, b)).filterMap
           fun x => if laneOfByte l.width x.1 = j then some x.2 else none)).1) ∧
       (l.sym = false ∨ st s ≠ 5 → writes (.injUncorr src k) s (armed { l with uncorr := true }) ∧
         writes (.injCrc src k) s (armed { l with crc := true }) ∧ writes (.injLane src k) s (armed { l with quiet := true }))) ∧
      writes (.tchStatClear src) s (fun u t => t.getF F.tchStat_NOROUTE = 0 ∧ t.getF F.tchStat_EXP_DENY = 0 ∧
        regOnly .tchStat 0 0 [F.tchStat_NOROUTE, F.tchStat_EXP_DENY] u t) ∧
      (let refused (u t : State) : Prop := t.flag F.tchStat_REFUSED = true ∧ regsKept [.tchStat] u t ∧ keeps [.regs] u t
       let gib (b n : Nat) : Prop := n ≠ 0 ∧ b + n ≤ 576 ∧ ∀ i, i < n → (b + i) % 36 ≠ 35
       (∀ v : DWord, let n := v.toNat
         let old := s.reg .tchUnit 0 0 0
         let topo := n / 2 ^ 8 % 2 ^ 2
         let g := n / 2 ^ 18 % 2 ^ 5
         let legal : Prop := topo ≠ 3 ∧ (topo = 2 → g ∈ [2, 3, 5, 9, 17]) ∧
           (topo ≠ 0 → n % 2 ^ 8 < if topo = 1 then (n / 2 ^ 10 % 2 ^ 4 + 1) * (n / 2 ^ 14 % 2 ^ 4 + 1) else g) ∧
           ((∀ j, j < 16 → s.flag F.tchLinkCtrl_EN j = false) ∨ n % 2 ^ 23 = old % 2 ^ 23 ∧ n / 2 ^ 32 = old / 2 ^ 32)
         (¬legal → writes (.tchUnitWrite src v) s refused) ∧
         (legal → writes (.tchUnitWrite src v) s fun u t => t.reg .tchUnit 0 0 0 % 2 ^ 23 = n % 2 ^ 23 ∧ t.getF F.tchUnit_ADMIN = n / 2 ^ 24 % 4 ∧
           t.getF F.tchUnit_GROUP_ID = n / 2 ^ 32 ∧ regsKept [.tchUnit] u t ∧ keeps [.regs] u t)) ∧
       (∀ (j : Fin 16) (v : DWord), let n := v.toNat
         let b := n / 2 ^ 16 % 2 ^ 10
         let z := n / 2 ^ 26 % 2 ^ 10
         let legal : Prop := n % 2 = 0 ∨ (s.flag F.tchRap_EN j.val = false ∧ n / 2 ^ 8 % 2 ^ 8 ≠ s.getF F.tchUnit_UNIT ∧ gib b z ∧
           gib (n / 2 ^ 36 % 2 ^ 10) z ∧ ∀ i, i < 16 → i ≠ j.val → s.flag F.tchRap_EN i = true →
             s.getF F.tchRap_LBASE i + s.getF F.tchRap_SIZE i ≤ b ∨ b + z ≤ s.getF F.tchRap_LBASE i)
         (¬legal → writes (.apertureWrite src j v) s refused) ∧
         (legal → writes (.apertureWrite src j v) s fun u t => t.getF F.tchRap_EN j.val = n % 2 ∧ t.getF F.tchRap_UNIT j.val = n / 2 ^ 8 % 2 ^ 8 ∧
           t.getF F.tchRap_LBASE j.val = b ∧ t.getF F.tchRap_SIZE j.val = z ∧ t.getF F.tchRap_RBASE j.val = n / 2 ^ 36 % 2 ^ 10 ∧
           (∀ i, i < 16 → i ≠ j.val → t.reg .tchRap i 0 0 = s.reg .tchRap i 0 0) ∧ regsKept [.tchRap] u t ∧ keeps [.regs] u t) ∧
         (n % 2 = 1 → ¬gib b z → writes (.exportWindowWrite src j v) s refused) ∧
         (n % 2 = 0 ∨ gib b z → writes (.exportWindowWrite src j v) s fun u t => t.reg .tchExp j.val 0 0 % 2 ^ 5 = n % 2 ^ 5 ∧
           t.getF F.tchExp_SRC_UNIT j.val = n / 2 ^ 8 % 2 ^ 8 ∧ t.getF F.tchExp_BASE j.val = b ∧ t.getF F.tchExp_SIZE j.val = z ∧
           (∀ i, i < 16 → i ≠ j.val → t.reg .tchExp i 0 0 = s.reg .tchExp i 0 0) ∧ regsKept [.tchExp] u t ∧ keeps [.regs] u t)))) ∧
    (∀ lanes : BitVec 16, (st s = 1 → lanes ≠ 0 → ∃ t, exec (.detect k lanes) s = .next t ∧ moves 2 t) ∧
      (st s ≠ 1 ∨ lanes = 0 → exec (.detect k lanes) s = .next s) ∧
      (st s = 2 → ∃ t, exec (.equaliseDone k) s = .next t ∧ moves 3 t) ∧ (st s ≠ 2 → exec (.equaliseDone k) s = .next s) ∧
      (phase ≠ 3 → exec (.alignDone k lanes) s = .next s) ∧
      (phase = 3 → let n := if st s = 6 ∧ l.quiet = true then lanes.toNat / 2 * 2 else lanes.toNat
        let lo : Prop := n % 2 ^ 8 = 255
        let hi : Prop := n / 2 ^ 8 = 255
        let x8 := s.flag F.tchLinkCtrl_ALLOW_X8 k.val
        let locks (w : Nat) : Prop := ∃ t, exec (.alignDone k lanes) s = .next t ∧ t.getF F.tchLinkStat_WIDTH k.val = w ∧
          (t.link k.val).width = w ∧ (t.link k.val).ctrlOut = some (s.ownCtrl k w) ∧
          (∀ j, j < 16 → Tab.get (fun _ => 0) (t.link k.val).scr j = (Config.laneSeed k.val j).toNat) ∧ (st s = 3 → st t = 4) ∧ (st s = 6 → st t = 6 ∧ (t.link k.val).phase = 4) ∧
          regsKept [.tchLinkStat] s t ∧ keeps [.regs, .links] s t
        (lo → hi → locks 3) ∧ (lo → ¬hi → x8 = true → locks 1) ∧ (¬lo → hi → x8 = true → locks 2) ∧
        (¬lo → ¬hi → ∃ t, exec (.alignDone k lanes) s = .next t ∧ t.regs = s.regs ∧ keeps [.links] s t) ∧
        (¬(lo ↔ hi) → x8 = false → ∃ t, exec (.alignDone k lanes) s = .next t ∧ fails 4 t))) ∧
    (∀ c : CtrlFlit, let n := match l.cfg with
        | some (d, m) => if d = c then m + 1 else 1
        | none => 1
      let r := s.ctrlCheck k.val c
      (phase ≠ 4 → exec (.ctrlFlit k c) s = .next s) ∧
      (phase = 4 → n < 3 → ∃ t, exec (.ctrlFlit k c) s = .next t ∧ (t.link k.val).cfg = some (c, n) ∧ keeps [.links] s t) ∧
      (phase = 4 → 3 ≤ n → ∃ t, exec (.ctrlFlit k c) s = .next t ∧ t.getF F.tchLinkStat_PEER_UNIT k.val = c.unit.toNat ∧
        t.getF F.tchLinkStat_PEER_LINK k.val = c.link.val ∧ (r = 0 → st t = 5) ∧
        (r = 0 → st s = 4 → s.mesh.pkts = [] → (t.link k.val).seq = 0 ∧ (t.link k.val).ack = 2047 ∧ (t.link k.val).replay = [] ∧
          ∀ i, i < 8 → Tab.get (fun _ => 0) (t.link k.val).credits i = c.credits[i]?.getD 0) ∧
        (r ≠ 0 → fails (if st s = 6 ∧ r ≠ 4 then 6 else r) t)) ∧
      (r = 0 ↔ c.groupId.toNat = s.getF F.tchUnit_GROUP_ID ∧ c.topo.toNat = s.getF F.tchUnit_TOPO ∧
        (if s.getF F.tchUnit_TOPO = 1 then c.xm1.toNat = s.getF F.tchUnit_XM1 ∧ c.ym1.toNat = s.getF F.tchUnit_YM1
          else c.gsize.toNat = s.getF F.tchUnit_GSIZE) ∧ c.unit.toNat ≠ s.getF F.tchUnit_UNIT ∧
        (c.unit.toNat, c.link.val) = s.partner k.val ∧ c.width.toNat = l.width)) ∧
    (let lim := if st s = 2 then 40000000 else if st s = 3 then 5000000 else if st s = 4 then 1000000 else 10000000
     let late : Prop := st s ∈ [2, 3, 4, 6] ∧ l.since + lim ≤ s.now
     (¬late → exec (.trainingTimeout k) s = .next s) ∧
     (late → ∃ t, exec (.trainingTimeout k) s = .next t ∧ fails (if st s = 6 then 6 else 5) t))

/-- R262, R267 to R271, R274, R276: a flit that FEC, the CRC-24 over its header and body or its TYPE does not let pass, or that is out of
order, is discarded and counted; one that is accepted moves ACK on and brings back credits; NAKs and 4 µs without progress replay; a TIME
packet and a peer register read each take a flit and a credit, or wait for them; a remote request goes to its stack when an export window
grants it; lost requests are poisoned. RTT is the free value of assumption 19. The model's own choices in it: assumption 136. -/
def Obligations.LinkTraffic : Prop :=
  ∀ (k : LinkNo) (s : State), let l := s.link k.val
    let up : Prop := s.getF F.tchLinkStat_STATE k.val = 5
    let others (t : State) : Prop := ∀ j, j ≠ k.val → t.link j = s.link j
    let quiet : Prop := s.mesh.pkts = [] ∧ l.owed = [] ∧ l.wait = [] ∧ ∀ j, j < 16 → (s.link j).held = []
    let acked (a : BitVec 11) : List SentFlit :=
      if ∃ f ∈ l.replay, f.seq = a.toNat then (l.replay.dropWhile fun f => f.seq != a.toNat).drop 1 else l.replay
    (¬up → (∀ fl e, exec (.dataFlit k fl e) s = .next s) ∧ (∀ a n q e, exec (.idleFlit k a n q e) s = .next s) ∧ (∀ a, exec (.nak k a) s = .next s) ∧
      exec (.replayTimeout k) s = .next s ∧ (∀ v, exec (.timePacket k v) s = .next s ∧ exec (.peerRegisterRead k v) s = .next s) ∧
      ∀ r, exec (.remoteRequest k r) s = .next s) ∧
    (∀ e : LineErrors, up → let hits (c : Nat) : Nat := (e.bytes.filter fun i => decide ((i.val / 16 + i.val % 16) % 2 = c)).length
      let bad (hdr : Nat) (body : List Byte) : Prop := 4 < hits 0 ∨ 4 < hits 1 ∨ e.crc.toNat ≠ flitCrc hdr body
      let fixed : Prop := hits 0 + hits 1 ≠ 0
      let drops (c : Instr) : Prop := ∃ t, exec c s = .next t ∧ counted F.tchLinkErr_UNCORR k.val s t ∧ t.link k.val = { l with nak := true } ∧
        others t ∧ regsKept [.tchLinkErr] s t ∧ keeps [.regs, .links] s t
      let corr (t : State) : Prop := (fixed → counted F.tchLinkErr_CORR k.val s t) ∧
        (¬fixed → t.getF F.tchLinkErr_CORR k.val = s.getF F.tchLinkErr_CORR k.val)
      (∀ fl : DataFlit, let bad : Prop := bad (flitHeader fl) fl.body ∨ fl.typ = 3
        (bad → drops (.dataFlit k fl e)) ∧
        (¬bad → fl.seq.toNat ≠ (l.ack + 1) % 2048 → drops (.dataFlit k fl e) ∧ ∃ t, exec (.dataFlit k fl e) s = .next t ∧ corr t) ∧
        (¬bad → fl.seq.toNat = (l.ack + 1) % 2048 → fl.packets = [] → fl.nak = false → quiet →
          let c := fl.crVc.val * 2 + fl.crDl.val
          ∃ t, exec (.dataFlit k fl e) s = .next t ∧ corr t ∧ (t.link k.val).ack = fl.seq.toNat ∧ (t.link k.val).nak = false ∧
            (∀ i, Tab.get (fun _ => 0) (t.link k.val).credits i = Tab.get (fun _ => 0) l.credits i + if i = c then fl.crCount.val else 0) ∧
            (t.link k.val).replay = acked fl.ack ∧ (t.link k.val).seq = l.seq ∧ others t ∧ keeps [.regs, .links] s t)) ∧
      (∀ a q, let bad (n : Bool) : Prop := bad (idleHeader q.toNat a.toNat n) (List.replicate 248 0)
        (∀ n, bad n → drops (.idleFlit k a n q e)) ∧
        (¬bad false → quiet → ∃ t, exec (.idleFlit k a false q e) s = .next t ∧ corr t ∧ (t.link k.val).replay = acked a ∧ (t.link k.val).ack = l.ack ∧
          others t ∧ keeps [.regs, .links] s t))) ∧
    (let again (y : Link) (c : Instr) : Prop := ∃ t, exec c s = .next t ∧ counted F.tchLinkErr_REPLAY k.val s t ∧
       (l.replays + 1 < 8 → t.link k.val = { y with
           replays := l.replays + 1, progAt := s.now, sym := false, uncorr := false, crc := false, idleIn := (t.link k.val).idleIn,
           wire := (t.link k.val).wire, scr := (t.link k.val).scr } ∧ others t ∧ regsKept [.tchLinkErr] s t ∧
         keeps [.regs, .links] s t) ∧
       (8 ≤ l.replays + 1 → t.getF F.tchLinkStat_STATE k.val = 6 ∨ t.getF F.tchLinkStat_STATE k.val = 7)
     (∀ a : BitVec 11, up → (∀ f ∈ l.replay, f.seq ≠ a.toNat) →
       let again_ : Prop := ∃ t, l.nakAck = some (a.toNat, t) ∧ s.now < t + 2000
       (l.replay = [] ∨ again_ → exec (.nak k a) s = .next s) ∧
       (l.replay ≠ [] → ¬again_ → again { l with nakAck := some (a.toNat, s.now) } (.nak k a))) ∧
     (up → l.replay = [] ∨ s.now < l.progAt + 4000 → exec (.replayTimeout k) s = .next s) ∧
     (up → l.replay ≠ [] → l.progAt + 4000 ≤ s.now → again l (.replayTimeout k))) ∧
    (∀ v : DWord, up → l.wait = [] →
      let room (c : Nat) : Prop := s.settled k.val = true ∧ 1 + s.promised k.val c ≤ Tab.get (fun _ => 0) l.credits c ∧ l.replay.length < 1024
      let sends (c : Nat) (t : State) : Prop := (t.link k.val).seq = (l.seq + 1) % 2048 ∧ (t.link k.val).wait = [] ∧
        (t.link k.val).replay.length = l.replay.length + 1 ∧ others t ∧
        Tab.get (fun _ => 0) (t.link k.val).credits c + 1 = Tab.get (fun _ => 0) l.credits c ∧
        (s.flag F.hubCntCtrl_FREEZE = false → s.getF F.tchLinkCnt_COUNT k.val + 1 < 2 ^ 48 - 1 →
          t.getF F.tchLinkCnt_COUNT k.val = s.getF F.tchLinkCnt_COUNT k.val + 1)
      let waits (c kind : Nat) (t : State) : Prop := others t ∧ ∃ r : LinkPkt, r.kind.toNat = kind ∧ t.link k.val = { l with wait := [(c, r)] }
      (∃ t, exec (.timePacket k v) s = .next t ∧ (room 4 → sends 4 t) ∧ (¬room 4 → waits 4 1 t) ∧
        t.getF F.tchLinkStat_RTT k.val = (Config.freeValue s.freeCtr).toNat % 2 ^ 16 ∧ keeps [.links, .regs, .freeCtr, .ras, .sloe] s t) ∧
      (∃ t, exec (.peerRegisterRead k v) s = .next t ∧ (room 6 → sends 6 t) ∧ (¬room 6 → waits 6 2 t) ∧
        t.reg .tchLinkPeer k.val 0 0 = v.toNat ∧ keeps [.links, .regs, .ras, .sloe] s t)) ∧
    (∀ r : LinkPkt, up → let a := r.addr.toNat
      let n := if r.data.length = 0 then r.len else r.data.length
      let perm := match r.op with
        | .read => F.tchExp_R
        | .atomic _ => F.tchExp_A
        | _ => F.tchExp_W
      let granted : Prop := (∃ op, meshOp r.op = some op) ∧ gaSpace a = 0 ∧ a + n ≤ hbmSize ∧ s.exported r.srcUnit.toNat a n perm = true
      (granted → ∃ (t : State) (p : Packet), exec (.remoteRequest k r) s = .next t ∧ t.mesh.pkts = s.mesh.pkts ++ [p] ∧ some p.op = meshOp r.op ∧ p.ga = a ∧ p.len = n ∧
        p.data = r.data ∧ p.dst = .hbm (stackOf a) ∧ p.id = s.mesh.nextId ∧ t.hbm = s.hbm ∧ keeps [.mesh] s t) ∧
      (¬granted → ∃ t, exec (.remoteRequest k r) s = .next t ∧ counted F.tchStat_EXP_DENY 0 s t ∧ (∃ p ∈ t.mesh.pkts, p.err = .protection) ∧
        regsKept [.tchStat] s t ∧ keeps [.regs, .mesh] s t)) ∧
    (∃ t, exec (.linkLostPoison k) s = .next t ∧ (t.link k.val).lost = [] ∧ others t ∧
      t.getF F.tchLinkErr_LOST k.val = min 255 (s.getF F.tchLinkErr_LOST k.val + l.lost.length) ∧ t.hbm = s.hbm ∧
      keeps [.links, .regs, .mesh] s t) ∧
    (let idle : Prop := ∀ j ∈ s.bundleOf k.val, (s.link j).replay = []
     (¬idle → exec (.bundleReassign k) s = .next s) ∧
     (idle → ∃ t, exec (.bundleReassign k) s = .next t ∧ (∀ j ∈ s.bundleOf k.val, (t.link j).use = s.linkActive j) ∧
       ∀ j, j < 16 → t.getF F.tchLinkStat_STATE j = s.getF F.tchLinkStat_STATE j))

/-- R322 to R327, R333 to R338, R342, Tables 15.1, 15.2: a reset returns every register of the engine and all it holds to reset and
keeps what R323 names; each boot step runs after the one before it and leaves what its row says, or ends the boot in SAFE; a step
beyond its maximum does too. `SEC_NONCE` is the free value of a random draw. -/
def Obligations.ResetsAndBoot : Prop :=
  ∀ s : State,
    let begun (cause : Nat) (t : State) : Prop := t.sec.booting = true ∧ t.sec.released = false ∧ t.sec.bootStart = s.now ∧ t.sec.stepStart = s.now ∧
      t.getF F.secBootStat_STEP = 0 ∧ t.flag F.secBootStat_SAFE = false ∧ t.getF F.secBootStat_RESET_CAUSE = cause ∧
      t.getF F.secBootStat_RESETS = (if cause = 0 then 0 else min 65535 (s.getF F.secBootStat_RESETS + 1)) ∧
      t.reg .secNonce 0 0 0 = (Config.freeValue s.freeCtr).toNat ∧
      (∀ r i j k, r.idx < Reg.sloMode.idx → r ≠ .secBootStat → r ≠ .secNonce → t.reg r i j k = r.resetVal % 2 ^ 64) ∧
      t.tiles = [] ∧ t.fields = [] ∧ t.hbm = {} ∧ t.hub = {} ∧ t.ports = [] ∧ t.mesh = {} ∧ t.links = [] ∧ t.ras = {} ∧ t.pwr = {} ∧
      t.sec.otp = s.sec.otp ∧ t.sec.store = s.sec.store ∧ t.sloe.flash = s.sloe.flash ∧
      ((∀ v, s.sec.verify = some v → v.valid = false) → t.sec.images = s.sec.images) ∧ t.hostOut = s.hostOut ∧ t.hostAns = s.hostAns ∧
      t.hostGet = s.hostGet ∧ t.msix = s.msix ∧ t.now = s.now
    let off (c : Instr) : Prop := exec c s = .next s
    let done (n : Nat) (t : State) : Prop := t.getF F.secBootStat_STEP = n ∧ t.sec.stepStart = s.now ∧
      t.sloe.bootStat = BitVec.ofNat 64 (t.reg .secBootStat 0 0 0)
    let safe (c : Nat) (t : State) : Prop := t.flag F.secBootStat_SAFE = true ∧ t.getF F.secBootStat_SAFE_CODE = c ∧ t.sec.booting = false ∧
      t.sec.released = false ∧ ∀ d, d < 148 → t.getF F.pwrDom_STATE d =
        if s.getF F.pwrDom_STATE d = 3 ∨ (132 ≤ d ∧ d < 140) then s.getF F.pwrDom_STATE d else 0
    let ran (c : Instr) (P : State → Prop) : Prop := ∃ t, exec c s = .next t ∧ P t
    (let bars : Prop := s.sloe.stopped = true ∨ s.mode = 0 ∨ s.sloe.stage = true ∨ s.offCause = true
     (bars → off .powerOnReset) ∧ (¬bars → ran .powerOnReset fun t => begun 0 t ∧ t.sloe.stage = true)) ∧
    (∀ src key, maySource s src (.port (s.getF F.secCtrl_ADMIN)) →
      writes (.unitReset (.register src key false)) s (fun u t => t = u) ∧
      (key.toNat = 0xB007 → ran (.unitReset (.register src key true)) (begun 1)) ∧
      (key.toNat ≠ 0xB007 → writes (.unitReset (.register src key true)) s fun u t => t.flag F.secCtrl_REFUSED = true ∧
        regOnly .secCtrl 0 0 [F.secCtrl_REFUSED] u t)) ∧
    (s.sloe.stopped = true ∨ s.mode ≠ 0 → off (.unitReset .smbus)) ∧ (s.sloe.stopped = false → s.mode = 0 → ran (.unitReset .smbus) (begun 1)) ∧
    (s.sloe.stopped = true ∨ s.flag F.sloPin_UNLOCKED = false → off (.unitReset .menu)) ∧
    (s.sloe.stopped = false → s.flag F.sloPin_UNLOCKED = true → s.mode = 0 → ran (.unitReset .menu) (begun 1)) ∧
    (s.released = false → off .watchdogReset) ∧ (s.released = true → ran .watchdogReset (begun 2)) ∧
    (let up := s.sec.booting
     let st := s.getF F.secBootStat_STEP
     let n := if st = 0 ∧ s.getF F.secBootStat_RESET_CAUSE ≠ 0 then 2 else st + 1
     let max_ := ([2500, 50, 80, 20, 500, 10, 440, 1800, 12500, 3600, 500].getD (n - 1) 500) * 1000000
     let late : Prop := up = true ∧ n ≤ 11 ∧ s.sec.stepStart + max_ < s.now
     (¬late → off .bootStepTimeout) ∧ (late → ran .bootStepTimeout (safe (0x30 + n)))) ∧
    (s.stepIs 1 = true → ran .sloeAlive fun t => done 1 t ∧ t.flag F.secBootStat_SLOE_ROM = true) ∧ (s.stepIs 1 = false → off .sloeAlive) ∧
    (s.stepIs 2 = true → ran .powerUp fun t => done 2 t ∧ t.getF F.secBootStat_LC = s.lcWire ∧ t.flag F.secBootStat_DEBUG_DIS = s.debugDis ∧
      ∀ d, d < 148 → t.getF F.pwrDom_STATE d = if (112 ≤ d ∧ d < 128) ∨ (d < 96 ∧ s.fieldEn d = false) then s.getF F.pwrDom_STATE d else 2) ∧
    (s.stepIs 2 = false → off .powerUp) ∧
    (s.stepIs 3 = true → ran (.hubRom true) (done 3) ∧ ran (.hubRom false) (safe 1)) ∧ (∀ ok, s.stepIs 3 = false → off (.hubRom ok)) ∧
    (s.stepIs 4 = false → off .otpCheck) ∧
    (s.stepIs 4 = true → let fin (i : Nat) : Bool := s.otpFinal (otpRegions.getD i (0, 0))
      let good (i : Nat) : Bool := s.otpGood (otpRegions.getD i (0, 0))
      let fails (i : Nat) : Prop := (fin i = true ∧ good i = false) ∨ (fin i = false ∧ (i = 0 ∨ i = 3))
      (s.lcByte.bind lcCode = none → ran .otpCheck (safe 2)) ∧ (s.lcByte.bind lcCode = some 0 → ran .otpCheck (safe 9)) ∧
      (∀ c, s.lcByte.bind lcCode = some (c + 1) →
        ((∀ i, i < 5 → ¬fails i) → ran .otpCheck fun t => done 4 t ∧ t.getF F.otpStat_SVN_HUB = s.thermo 1) ∧
        (∀ i, i < 5 → fails i → (∀ j, j < i → ¬fails j) → ran .otpCheck (safe (3 + i))))) ∧
    (s.stepIs 5 = false → off .imageVerification) ∧
    (s.stepIs 5 = true → ran .imageVerification fun t =>
      (done 5 t ∧ t.flag F.secBootStat_SLOE_ROM = false ∧ t.reg .fshWp 0 0 0 = 2 ^ 64 - 1 ∧ t.reg .fshWp 1 0 0 % 2 ^ 50 = 2 ^ 50 - 1 ∧
        ∀ k, k < 3 → ∃ i, (i = 2 * k ∨ i = 2 * k + 1) ∧ t.flag F.secImg_BOOTED i = true ∧ t.getF F.secImg_CODE i = 1) ∨
      (∃ k, k < 3 ∧ safe (0x10 + k) t ∧ t.getF F.secImg_CODE (2 * k) ≠ 1 ∧ t.getF F.secImg_CODE (2 * k + 1) ≠ 1)) ∧
    (s.stepIs 6 = false → off .defectRecordVerify) ∧
    (s.stepIs 6 = true → let n := natLE (s.otpBytes 0x120 4)
      let good : Prop := n ≤ 49152 ∧ sha256 (Tab.readBytes zeroByte s.sec.store 0 n) = s.otpBytes 0x100 32
      (good → ran .defectRecordVerify fun t => done 6 t ∧ t.ras.badParts = s.sec.facParts ∧ ∀ x ∈ s.sec.facTiles, x ∈ t.ras.badTiles) ∧
      (¬good → ran .defectRecordVerify (safe 8))) ∧
    (s.stepIs 7 = false → off .bootMapBuild) ∧
    (s.stepIs 7 = true → let us := preference.filter s.usable
      ran .bootMapBuild fun t => done 7 t ∧ (∀ f, f < 92 → (us[f]? = none → t.offline f = true) ∧
        ∀ p, us[f]? = some p → t.offline f = false ∧ t.pfield f = p ∧ t.getF F.fldPmap_LFIELD p = f ∧ t.getF F.fldPmap_ROLE p = 0) ∧
        (∀ p ∈ us.drop 92, t.getF F.fldPmap_ROLE p = 1) ∧
        ∀ p, p < 96 → p ∉ us → t.getF F.fldPmap_ROLE p = if s.retired.contains p then 2 else 3) ∧
    (∀ p r last, (s.stepIs 8 = false → off (.quickSelfTest p r last)) ∧
      (s.stepIs 8 = true → r.tiles = [] → r.part = false → off (.quickSelfTest p r false) ∧ ran (.quickSelfTest p r true) (done 8)) ∧
      (s.stepIs 8 = true → s.usable p.val = true → ran (.quickSelfTest p r last) fun t => (∀ k ∈ r.tiles, k.val ∈ t.badOf p.val) ∧
        (r.part = true → p.val ∈ t.ras.badParts) ∧ (last = true → done 8 t))) ∧
    (∀ failed, (s.stepIs 9 = false → off (.hbmTraining failed)) ∧ (s.stepIs 9 = true → ran (.hbmTraining failed) fun t => done 9 t ∧ t.hbm = {} ∧
      ∀ m : Stack, (m ∈ failed → t.flag F.hbmStat_OFFLINE m.val = true) ∧ (m ∉ failed → t.flag F.hbmStat_TRAINED m.val = true))) ∧
    (s.stepIs 10 = false → off .fieldRelease) ∧
    (s.stepIs 10 = true → ran .fieldRelease fun t => done 10 t ∧ t.released = true ∧ t.tiles = [] ∧
      (t.sec.booting = true ↔ s.getF F.secBootStat_LC ≠ 3) ∧
      (∀ p, p < 96 → s.getF F.fldPmap_ROLE p ≠ 0 → s.getF F.pwrDom_STATE p ≠ 3 → t.getF F.pwrDom_STATE p = 0) ∧
      ∀ f, f < 92 → t.flag F.seqStat_HALTED f = false ∧ (t.field f).resident = none ∧ (t.seq f).wait = .none) ∧
    (∀ ps, let go : Prop := s.stepIs 11 = true ∧ s.getF F.secBootStat_LC ≠ 3
      (¬go → off (.hostLinkUp ps)) ∧ (go → ran (.hostLinkUp ps) fun t => done 11 t ∧ t.sec.booting = false ∧
        t.getF F.secBootStat_BOOT_MS = min 65535 ((s.now - s.sec.bootStart) / 1000000) ∧ ∀ x ∈ ps, linkTrains x = true → t.linkUp x.port.val = true))

/-- R332, R336 to R341, Tables 15.5 to 15.9: STAGE and RETURN read and check an image and start the signature engine, or end with a
code; the engine answers after 1.9 ms and the image is written into the slot that was not booted; SVN_COMMIT burns the thermometer; ARM
and GO by one source within 1 s burn SECURED, copy by copy. The model's own choices in it: assumption 85. -/
def Obligations.ImagesAndLifecycle : Prop :=
  ∀ s : State,
    let ends (c : Nat) (t : State) : Prop := t.flag F.secUpdStat_BUSY = false ∧ t.flag F.secUpdStat_DONE = true ∧
      t.getF F.secUpdStat_CODE = c ∧ t.sec.verify = none
    let refused (u t : State) : Prop := t.flag F.secUpdStat_REFUSED = true ∧ t.flag F.secCtrl_REFUSED = true ∧
      regsKept [.secUpdStat, .secCtrl] u t ∧ keeps [.regs] u t
    (∀ src, maySource s src (.port (s.getF F.secCtrl_ADMIN)) →
      let idle : Prop := s.sec.verify = none ∧ s.flag F.secUpdStat_BUSY = false
      let port := s.getF F.secCtrl_ADMIN
      let addr := 256 * s.getF F.secUpdAddr_ADDR
      let runs (op kind : Nat) (d : List Byte) (t : State) : Prop := t.flag F.secUpdStat_BUSY = true ∧
        (let n := hdr (d.take 256) 0xC 4
         t.hostGet = s.hostGet ++ ⟨port, addr, 256⟩ :: (if n = 0 then [] else [⟨port, addr + 256, n⟩])) ∧ ∃ v, t.sec.verify = some v ∧ v.op = op ∧
        v.kind = kind ∧ v.header = d.take 256 ∧ v.body = (d.drop 256).take (hdr (d.take 256) 0xC 4) ∧ v.start = s.now ∧ v.valid = false
      let short (d : List Byte) : Prop := (d.drop 256).length < hdr (d.take 256) 0xC 4
      (∀ (kind : BitVec 3) (r : HostRead), let k := kind.toNat
        let legal : Prop := 1 ≤ k ∧ k ≤ 3
        (s.sec.verify = none → ¬legal ∨ s.flag F.secUpdStat_BUSY = true → writes (.stage src kind r) s refused) ∧
        (idle → legal → r = .failed → writes (.stage src kind r) s fun _ t => ends 12 t) ∧
        (idle → legal → s.portIssues port = false → writes (.stage src kind r) s fun _ t => ends 12 t) ∧
        (∀ d, idle → legal → s.portIssues port = true → r = .data d → let c := s.publicChecks (d.take 256) k
          (c ≠ 0 → writes (.stage src kind r) s fun _ t => ends c t) ∧ (c = 0 → short d → writes (.stage src kind r) s fun _ t => ends 12 t) ∧
          (c = 0 → ¬short d → writes (.stage src kind r) s fun _ t => runs 1 k d t)) ∧
        (let b := s.bootedSlot k
         let n := s.getF F.secImg_SVN ((k - 1) * 2 + b)
         (¬legal ∨ s.flag F.secUpdStat_BUSY = true ∨ b = 2 → writes (.svnCommit src kind) s refused) ∧
         (legal → s.flag F.secUpdStat_BUSY = false → b ≠ 2 → writes (.svnCommit src kind) s fun u t => t.flag F.secUpdStat_DONE = true ∧
           (∀ i, i < 64 → (t.otpByte (8 * k + i / 8)).testBit (i % 8) = ((s.otpByte (8 * k + i / 8)).testBit (i % 8) || decide (i < n))) ∧
           (∀ a, a / 8 ≠ k → t.otpByte a = s.otpByte a) ∧ keeps [.regs, .sec] u t))) ∧
      (idle → writes (.returnAuth src .failed) s (fun _ t => ends 12 t ∧ t.reg .secNonce 0 0 0 = (Config.freeValue s.freeCtr).toNat)) ∧
      (∀ d, idle → s.portIssues port = true → let c := s.publicChecks (d.take 256) 4
        let mine : Prop := hdr (d.take 256) 0x10 4 = natLE (s.otpBytes 0x3C0 4) ∧ hdr (d.take 256) 0x18 8 = s.reg .secNonce 0 0 0
        (c ≠ 0 → writes (.returnAuth src (.data d)) s fun _ t => ends c t) ∧
        (c = 0 → ¬mine → writes (.returnAuth src (.data d)) s fun _ t => ∃ e, 2 ≤ e ∧ e ≤ 10 ∧ ends e t) ∧
        (c = 0 → mine → short d → writes (.returnAuth src (.data d)) s fun _ t => ends 12 t) ∧
        (c = 0 → mine → ¬short d → writes (.returnAuth src (.data d)) s fun _ t => runs 3 4 d t)) ∧
      (∀ target : BitVec 2, let legal : Prop := target.toNat = 2 ∧ s.sec.burn = none ∧ ∃ a, s.sec.arm = some (src.code, a) ∧ s.now ≤ a + 1000000000
        (legal → writes (.lcGo src target) s fun u t => t.sec = { u.sec with arm := none, burn := some { value := 3, start := s.now } } ∧ keeps [.sec] u t) ∧
        (¬legal → writes (.lcGo src target) s fun u t => t.flag F.secCtrl_REFUSED = true ∧ t.sec = { u.sec with arm := none } ∧
          regOnly .secCtrl 0 0 [F.secCtrl_REFUSED] { u with sec := t.sec } t))) ∧
    (let due (v : Verify) : Prop := s.sec.verify = some v ∧ v.header ≠ [] ∧ v.valid = false ∧ v.start + 1900000 ≤ s.now
     ((∀ v, ¬due v) → exec .signatureVerify s = .next s) ∧
     (∀ v, due v → let c := signature v.header v.body v.inj
       ∃ t, exec .signatureVerify s = .next t ∧ (v.op ≠ 3 → c ≠ 1 → ends (c % 2 ^ 4) t) ∧
         (v.op ≠ 3 → c = 1 → t.sec.verify = some { v with valid := true } ∧ t.getF F.secUpdStat_VERSION = hdr v.header 8 4 % 2 ^ 32 ∧
           regsKept [.secUpdStat] s t ∧ keeps [.regs, .sec] s t) ∧
         (v.op = 3 → ends (c % 2 ^ 4) t ∧ t.reg .secNonce 0 0 0 = (Config.freeValue s.freeCtr).toNat ∧
           (c = 1 → s.getF F.secBootStat_LC = 2 → s.sec.burn = none → t.sec.burn = some { value := 7, start := s.now }) ∧
           (c ≠ 1 ∨ s.getF F.secBootStat_LC ≠ 2 → t.sec.burn = s.sec.burn)))) ∧
    ((∀ v, s.sec.verify = some v → v.valid = false) → ∀ ok, exec (.stageComplete ok) s = .next s) ∧
    (∀ v ok, s.sec.verify = some v → v.valid = true → let slot := if s.bootedSlot v.kind = 0 then 1 else 0
      ∃ t, exec (.stageComplete ok) s = .next t ∧ ends (if ok then 1 else 11) t ∧ t.getF F.secUpdStat_SLOT = slot ∧
        (1 ≤ v.kind → v.kind ≤ 3 → v.header.length = 256 → v.body.length ≤ maxBody v.kind →
          t.slotHeader v.kind slot = v.header ∧ t.slotBody v.kind slot v.body.length = v.body ∧
          t.slotHeader v.kind (1 - slot) = s.slotHeader v.kind (1 - slot))) ∧
    ((∀ a, s.sec.arm = some a → s.now ≤ a.2 + 1000000000) → exec .armExpiry s = .next s) ∧
    (∀ a, s.sec.arm = some a → a.2 + 1000000000 < s.now → exec .armExpiry s = .next { s with sec := { s.sec with arm := none } }) ∧
    ((∀ b, s.sec.burn = some b → s.now < b.start + (b.done + 1) * 1000000) → exec .lifecycleBurn s = .next s) ∧
    (∀ b, s.sec.burn = some b → b.start + (b.done + 1) * 1000000 ≤ s.now → ∃ t, exec .lifecycleBurn s = .next t ∧
      t.otpByte b.done = s.otpByte b.done ||| b.value % 256 ∧ (∀ a, a ≠ b.done → t.otpByte a = s.otpByte a) ∧
      t.getF F.secBootStat_LC = t.lcWire ∧ t.sec.burn = (if b.done = 2 then none else some { b with done := b.done + 1 }) ∧
      keeps [.regs, .sec, .sloe] s t)

/-- R344 to R347, R357, R358, R364, R367, R379, R386, Tables 16.1 to 16.6: the modes of the Sloe follow its supplies; power on and off
by register, SMBus or menu; a stop leaves the flash alone; the core starts at the ROM; the alarms and what each does; an
acknowledgement clears the pending bits it names. While the Sloe is stopped none of these acts but its start. The model's own choices
in it: assumption 94. -/
def Obligations.SloePower : Prop :=
  ∀ s : State,
    let same (c : Instr) : Prop := exec c s = .next s
    let ran (c : Instr) (P : State → Prop) : Prop := ∃ t, exec c s = .next t ∧ P t
    let ring : State → Prop := keeps [.sloe, .regs] s
    let loses (t : State) : Prop := t.mode = (if s.flag F.sloMode_STBY_OK then 1 else 2) ∧ t.flag F.sloMode_MAIN_OK = false ∧
      t.sloe.stage = false ∧ t.sec.released = false ∧ t.tiles = [] ∧ t.hbm = {} ∧ t.hub = {} ∧ t.sec.otp = s.sec.otp ∧ t.sec.store = s.sec.store
    let powers (t : State) : Prop := t.sloe.stage = true ∧ t.sec.booting = true ∧ t.getF F.secBootStat_RESET_CAUSE = 0 ∧ t.sec.bootStart = s.now
    let pend (k : Nat) (t : State) : Prop := (t.getF F.sloAlarm_PENDING).testBit (k - 1) = true
    let core (t : State) : Prop := t.sloe.core = { sram := s.sloe.core.sram, pc := 0x4000 } ∧ t.flag F.sloFbank_ROM = true ∧
      t.flag F.fshStat_UNLOCKED = false ∧ t.reg .fshWp 0 0 0 = 0 ∧ t.reg .fshWp 1 0 0 = 0
    (s.sloe.stopped = true → ∀ c, c ∈ ([.mainPowerGoodRise, .mainPowerGoodDrop, .standbyRailFall, .standbyRailStable, .cellStop, .autoOn,
        .sloeWatchdogRestart, .leakShut, .lidOpen, .acknowledgeAllAlarms] : List Instr) → same c) ∧
    (s.sloe.stopped = true → ∀ b w k m a, same (.powerOn b) ∧ same (.powerOff b) ∧ same (.leakSample w) ∧ same (.outletTempSample k) ∧
      same (.cellMeasure m) ∧ same (.alarmAck a)) ∧
    ran .sloeStart (fun t => t.sloe.stopped = false ∧ core t ∧ t.getF F.fshStat_PW_FAILS = 0 ∧ t.flag F.fshStat_CAL_BAD = !s.calGood ∧
      t.sloe.flash = s.sloe.flash) ∧
    (s.sloe.stopped = false →
      (s.sloe.stage = true → ran .mainPowerGoodRise fun t => t.mode = 0 ∧ t.flag F.sloMode_MAIN_OK = true ∧ ring t) ∧
      (s.sloe.stage = false → same .mainPowerGoodRise) ∧
      (s.mode = 0 → ran .mainPowerGoodDrop loses) ∧ (s.mode ≠ 0 → same .mainPowerGoodDrop) ∧
      ran .standbyRailFall (fun t => t.flag F.sloMode_STBY_OK = false ∧ t.mode = (if s.mode = 1 then 2 else s.mode) ∧
        (s.mode = 1 → t.flag F.sloPin_UNLOCKED = false ∧ t.sloe.fop = none) ∧ keeps [.sloe, .regs, .freeCtr] s t) ∧
      ran .standbyRailStable (fun t => t.flag F.sloMode_STBY_OK = true ∧ t.mode = (if s.mode = 2 then 1 else s.mode) ∧
        (s.mode = 2 → t.sloe.stbyAt = some s.now) ∧ ring t) ∧
      (s.mode = 2 → ran .cellStop fun t => t.sloe.stopped = true ∧ t.sloe.ring = [] ∧ t.sloe.ringHave = 0 ∧
        (s.sloe.fop = none → s.sloe.held = none → t.sloe.flash = s.sloe.flash) ∧
        (∀ r i j k, Reg.sloMode.idx ≤ r.idx → t.reg r i j k = r.resetVal % 2 ^ 64) ∧ keeps [.sloe, .regs, .freeCtr] s t) ∧
      (s.mode ≠ 2 → same .cellStop) ∧
      (let due : Prop := s.mode = 1 ∧ s.flag F.sloPwrCfg_AUTO_ON = true ∧ s.sloe.stage = false ∧ s.getF F.sloAlarm_NOW = 0 ∧
         (s.getF F.sloAlarm_PENDING).testBit 4 = false ∧ ∃ a, s.sloe.stbyAt = some a ∧ a + 1000000000 ≤ s.now
       (due → ran .autoOn powers) ∧ (¬due → same .autoOn)) ∧
      (let may : Prop := s.mode = 1 ∧ s.sloe.stage = false ∧ (s.alarmNow 1 = false ∨ s.getF F.sloAlarmCfg_LEAK_SHUT = 0) ∧ s.alarmNow 2 = false ∧ s.alarmNow 5 = false ∧
         (s.getF F.sloAlarm_PENDING).testBit 4 = false
       let on : Prop := s.sloe.stage = true ∨ s.mode = 0
       (∀ b, b ≠ .menu → (may → ran (.powerOn b) powers) ∧ (¬may → same (.powerOn b))) ∧
       (on → ran (.powerOff .register) fun t => t.sloe.stage = false ∧ t.mode ≠ 0 ∧ t.sec.released = false ∧ t.tiles = []) ∧
       (¬on → same (.powerOff .register)) ∧ (s.mode = 2 → same (.powerOff .smbus)) ∧
       (s.mode ≠ 2 → exec (.powerOff .smbus) s = exec (.powerOff .register) s) ∧
       (s.flag F.sloPin_UNLOCKED = false → same (.powerOn .menu) ∧ same (.powerOff .menu)) ∧
       (s.flag F.sloPin_UNLOCKED = true → exec (.powerOn .menu) s = exec (.powerOn .register) (s.ringPut 3 0x64 0) ∧
         exec (.powerOff .menu) s = exec (.powerOff .register) (s.ringPut 3 0x65 0))) ∧
      (s.sloe.core.fault = true → ran .sloeWatchdogRestart core) ∧ (s.sloe.core.fault = false → same .sloeWatchdogRestart) ∧
      (∀ wet, let inj : Prop := ∃ i ∈ s.ras.inj, i.point = 0x31
        (wet = true ∨ inj → ran (.leakSample wet) fun t => t.sloe.wet = min 2 (s.sloe.wet + 1) ∧
          (t.alarmNow 1 = (s.alarmNow 1 || decide (1 ≤ s.sloe.wet))) ∧
          (1 ≤ s.sloe.wet → s.alarmNow 1 = false → pend 1 t ∧ t.sloe.leakAt = s.now) ∧ keeps [.sloe, .regs, .ras] s t) ∧
        (wet = false → ¬inj → ran (.leakSample wet) fun t => t.sloe.wet = 0 ∧ t.alarmNow 1 = false ∧ ring t)) ∧
      (let d := s.getF F.sloAlarmCfg_LEAK_SHUT
       let shut : Prop := s.mode = 0 ∧ s.alarmNow 1 = true ∧ d ≠ 0 ∧ s.sloe.leakAt + d * 1000000000 ≤ s.now
       (shut → ran .leakShut loses) ∧ (¬shut → same .leakShut)) ∧
      (∀ temp : BitVec 8, let inj : Prop := ∃ i ∈ s.ras.inj, i.point = 0x32
        let lim : Int := s.getF F.sloAlarmCfg_OT_LIMIT
        let hot : Prop := inj ∨ lim < temp.toInt
        ran (.outletTempSample temp) fun t => t.getF F.sloMode_OUTLET_T = temp.toNat ∧
          (hot → t.alarmNow 2 = true ∧ (s.alarmNow 2 = false → pend 2 t ∧ (s.mode = 0 → loses t))) ∧
          (¬hot → temp.toInt ≤ lim - 5 → t.alarmNow 2 = false) ∧ (¬hot → lim - 5 < temp.toInt → t.alarmNow 2 = s.alarmNow 2) ∧
          (¬hot ∨ s.alarmNow 2 = true → keeps [.sloe, .regs, .ras] s t)) ∧
      (s.alarmNow 3 = true → same .lidOpen) ∧ (s.alarmNow 3 = false → ran .lidOpen fun t => t.alarmNow 3 = true ∧ pend 3 t ∧ ring t) ∧
      (∀ mv, ran (.cellMeasure mv) fun t => t.getF F.sloMode_CELL_MV = mv % 2 ^ 12 ∧ t.flag F.sloMode_CELL_LOW = decide (mv < 2600) ∧
        t.alarmNow 4 = decide (mv < 2600) ∧ (mv < 2600 → s.alarmNow 4 = false → pend 4 t) ∧ ring t) ∧
      (∀ a : AckBy, let m := match a with
          | .smbus m => m.toNat % 32
          | .page k => 2 ^ k.val
          | .register m => m.toNat
        let served : Prop := (∃ m, a = .smbus m) → s.mode ≠ 2
        (¬served → same (.alarmAck a)) ∧
        (served → ran (.alarmAck a) fun t => (∀ i, i < 5 → (t.getF F.sloAlarm_PENDING).testBit i =
            ((s.getF F.sloAlarm_PENDING).testBit i && !m.testBit i)) ∧
          (t.alarmNow 3 = (s.alarmNow 3 && !m.testBit 2)) ∧ (∀ k, k ∈ [1, 2, 4, 5] → t.alarmNow k = s.alarmNow k) ∧ ring t)) ∧
      (s.flag F.sloPin_UNLOCKED = false → same .acknowledgeAllAlarms) ∧
      (s.flag F.sloPin_UNLOCKED = true → ran .acknowledgeAllAlarms fun t => t.getF F.sloAlarm_PENDING = 0 ∧ ring t))

/-- R348 to R356, R359, R360, R364, R365, R388, R389: a key whose samples agree long enough is recognised and goes to the FIFO or to
the wake chord; the display commits, checks and drives; the PIN and its lockout; the menus; the copies and the clearing of the ring.
While the Sloe is stopped none of these acts. -/
def Obligations.SloePanel : Prop :=
  ∀ s : State,
    let same (c : Instr) : Prop := exec c s = .next s
    let ran (c : Instr) (P : State → Prop) : Prop := ∃ t, exec c s = .next t ∧ P t
    let ring : State → Prop := keeps [.sloe, .regs] s
    let open_ := s.flag F.sloPin_UNLOCKED
    (s.sloe.stopped = true → (∀ c, c ∈ ([.keyPop, .keypadLock, .chordTimeout, .frameStart, .ringCopy, .ringCopyNow, .ringClear,
        .pinSessionTimeout, .pinLockoutEnd] : List Instr) → same c) ∧
      ∀ k c v mv m d, same (.keyScan k) ∧ same (.displayCommit c) ∧ same (.vlcdUpdate v mv) ∧ same (.menu m) ∧ same (.pinEntry d) ∧
        same (.pinChange d)) ∧
    (s.sloe.stopped = false →
      (∀ closed : BitVec 30, let old (c : Nat) : Bool × Nat := Tab.get (fun _ => (false, 0)) s.sloe.keys c
        let run (c : Nat) : Nat := if closed.getLsbD c = (old c).1 then min 3 ((old c).2 + 1) else 1
        let seen (c : Nat) : Bool := decide ((if s.mode = 2 then 2 else 3) ≤ run c) && (closed.getLsbD c != s.keyDown c)
        ran (.keyScan closed) fun t => (∀ c, c < 30 → t.keyDown c = (if seen c then closed.getLsbD c else s.keyDown c) ∧
            Tab.get (fun _ => (false, 0)) t.sloe.keys c = (closed.getLsbD c, run c)) ∧
          (s.flag F.sloChord_LOCKED = false → s.sloe.fifo.length ≤ 16 → t.flag F.sloChord_LOCKED = false ∧
            t.sloe.fifo = (s.sloe.fifo ++ ((List.range 30).filter seen).map fun c => (c, !closed.getLsbD c)).take 16 ∧
            (16 < s.sloe.fifo.length + ((List.range 30).filter seen).length → t.flag F.sloKey_OVF = true)) ∧
          (s.flag F.sloChord_LOCKED = true → (∀ c, c ≠ 0 → c ≠ 5 → seen c = false) → seen 0 = true → seen 5 = false →
            t.sloe.fifo = s.sloe.fifo ∧ t.flag F.sloChord_LOCKED = true ∧ (closed.getLsbD 0 = true → t.sloe.fnAt = some s.now)) ∧
          (∀ a, s.flag F.sloChord_LOCKED = true → s.sloe.fnAt = some a → s.now ≤ a + 2000000000 → s.keyDown 0 = true → (∀ c, c ≠ 5 → seen c = false) →
            seen 5 = true → closed.getLsbD 5 = true → t.flag F.sloChord_LOCKED = false ∧ t.flag F.sloChord_WAKE = true) ∧ ring t) ∧
      (s.flag F.sloKey_EMPTY = true → same .keyPop) ∧
      (s.flag F.sloKey_EMPTY = false → ran .keyPop fun t => t.sloe.fifo = s.sloe.fifo.drop 1 ∧
        (t.flag F.sloKey_EMPTY = (s.sloe.fifo.drop 1).isEmpty) ∧ regsKept [.sloKey] s t ∧ ring t) ∧
      (let d := s.getF F.sloChord_IDLE_S
       let idle : Prop := d ≠ 0 ∧ s.flag F.sloChord_LOCKED = false ∧ s.sloe.lastPress + d * 1000000000 ≤ s.now
       (idle → ran .keypadLock fun t => t.flag F.sloChord_LOCKED = true ∧ t.sloe.page = (0, 0) ∧ regsKept [.sloChord] s t ∧ ring t) ∧
       (¬idle → same .keypadLock)) ∧
      (let late : Prop := ∃ a, s.sloe.fnAt = some a ∧ a + 2000000000 ≤ s.now
       (late → ran .chordTimeout fun t => t.sloe.fnAt = none ∧ t.flag F.sloChord_ARMED = false ∧ t.getF F.sloChord_ELAPSED = 2000 ∧
         t.flag F.sloChord_LOCKED = s.flag F.sloChord_LOCKED ∧ regsKept [.sloChord] s t ∧ ring t) ∧ (¬late → same .chordTimeout)) ∧
      (let p := s.flag F.sloDispCrc_PENDING
       let was := s.flag F.sloDispCrc_ROM_SHOWN
       ran .frameStart fun t => t.flag F.sloDispCrc_PENDING = false ∧ (t.flag F.sloLcd_LADDER = decide (s.mode = 2)) ∧
         (let target := s.getF F.sloLcd_TARGET_MV
          t.getF F.sloLcd_VLCD_MV = (if s.flag F.sloLcd_LADDER = decide (s.mode = 2) then s.getF F.sloLcd_VLCD_MV
            else if s.mode = 2 then min target (s.getF F.sloMode_CELL_MV - 50) else target)) ∧
         (p = false → t.sloe.active = s.sloe.active ∧ t.sloe.ref = s.sloe.ref) ∧
         (p = true → Tab.readBytes zeroByte t.sloe.active 0 32 = (List.range 4).flatMap (fun w => bytesLE 8 (s.reg .sloDispFrame w 0 0)) ∧
           t.sloe.ref = s.getF F.sloDispCrc_CRC) ∧
         (s.flag F.sloDispBlink_EN = true → let c := crc16 (Tab.readBytes zeroByte t.sloe.active 0 32)
           t.getF F.sloDispCrc_LAST_CALC = c % 2 ^ 16 ∧ (c = t.sloe.ref → t.flag F.sloDispCrc_ROM_SHOWN = false) ∧
           (c ≠ t.sloe.ref → t.flag F.sloDispCrc_ROM_SHOWN = true ∧ (was = false → t.flag F.sloDispCrc_MISMATCH = true ∧
             counted F.sloDispCrc_MISMATCHES 0 s t))) ∧ ring t) ∧
      (∀ c, ran (.displayCommit c) fun t => t.getF F.sloDispCrc_CRC = c.toNat ∧ t.flag F.sloDispCrc_PENDING = true ∧
        regOnly .sloDispCrc 0 0 [F.sloDispCrc_CRC, F.sloDispCrc_PENDING] s t) ∧
      (∀ (v : BitVec 8) (mv : Nat), let want : Int := max 2600 (min 3400 (3000 - 10 * (v.toInt - 25)))
        let cell := s.flag F.sloLcd_LADDER
        ran (.vlcdUpdate v mv) fun t => (t.getF F.sloLcd_TARGET_MV : Int) = want ∧ t.getF F.sloLcd_TEMP = v.toNat ∧
          (t.getF F.sloLcd_VLCD_MV : Int) = (if cell then min want (mv - 50 : Nat) else want) ∧
          (t.flag F.sloLcd_SHORT = (cell && decide (((mv - 50 : Nat) : Int) < want))) ∧
          regOnly .sloLcd 0 0 [F.sloLcd_TARGET_MV, F.sloLcd_TEMP, F.sloLcd_VLCD_MV, F.sloLcd_SHORT] s t) ∧
      (s.mode = 2 ∨ s.getF F.sloRing_PEND = 0 → same .ringCopy) ∧
      (s.mode ≠ 2 → ran .ringCopy fun t => t.sloe.ring = s.sloe.ring ∧ t.getF F.sloRing_PEND ≤ s.getF F.sloRing_PEND ∧ ring t ∧
        (let n := s.sloe.logNext
         let p := s.fpage (1824 + n / 16)
         let at_ := 0x72000 + n * 16
         s.getF F.sloRing_PEND = 1 → s.sectorOpen (114 + n / 256) = true → n < 2048 → n % 256 ≠ 0 → p.st ≠ 2 → p.progs < 16 →
           (∀ i, i < 16 → Tab.get erasedByte s.sloe.flash (at_ + i) = 0xFF) →
           Tab.readBytes erasedByte t.sloe.flash at_ 16 = Tab.readBytes zeroByte s.sloe.ring ((s.sloe.ringNo + 2 ^ 32 - 1) % 2 ^ 32 % 64 * 16) 16 ∧
           t.getF F.sloRing_PEND = 0 ∧ t.sloe.logNext = (n + 1) % 2048)) ∧
      (open_ = false → same .ringCopyNow ∧ same .ringClear) ∧
      (open_ = true → exec .ringCopyNow s = exec .ringCopy (s.ringPut 3 0x67 0)) ∧
      (open_ = true → ran .ringClear fun t => t.sloe.ringHave = 1 ∧ t.getF F.sloRing_PEND = 1 ∧ t.getF F.sloRing_OVF = 0 ∧
        t.sloe.ringNo = (s.sloe.ringNo + 1) % 2 ^ 32 ∧ ring t) ∧
      (∀ d : List (Fin 10), let may : Prop := d.length = 6 ∧ s.lockLeft = 0
        let n := min 5 (s.getF F.sloPin_FAILS + 1)
        (¬may → same (.pinEntry d)) ∧
        (may → d.map (·.val) = s.pinNow → ran (.pinEntry d) fun t => t.flag F.sloPin_UNLOCKED = true ∧ t.getF F.sloPin_FAILS = 0 ∧
          t.sloe.lockAt = none ∧ regsKept [.sloPin] s t ∧ ring t) ∧
        (may → d.map (·.val) ≠ s.pinNow → ran (.pinEntry d) fun t => t.flag F.sloPin_UNLOCKED = open_ ∧ t.getF F.sloPin_FAILS = n ∧
          t.sloe.lockAt = (if n = 5 then some s.now else none) ∧ regsKept [.sloPin] s t ∧ ring t)) ∧
      (s.now < s.sloe.lastPress + 300000000000 → same .pinSessionTimeout) ∧
      (s.sloe.lastPress + 300000000000 ≤ s.now → ran .pinSessionTimeout fun t => t.flag F.sloPin_UNLOCKED = false ∧
        regOnly .sloPin 0 0 [F.sloPin_UNLOCKED] s t) ∧
      (s.lockLeft ≠ 0 → same .pinLockoutEnd) ∧
      (s.lockLeft = 0 → ran .pinLockoutEnd fun t => t.sloe.lockAt = none ∧ t.regs = s.regs ∧ keeps [.sloe] s t) ∧
      (∀ d : List (Fin 10), (d.length ≠ 6 ∨ open_ = false → same (.pinChange d)) ∧
        (d.length = 6 → open_ = true → ran (.pinChange d) fun t => ring t ∧
          ∀ sec sq, (s.pinLast = none → sec = 122 ∧ sq = 0) → (∀ r, s.pinLast = some r → sec = 122 + r.1 / 256 ∧ sq = (r.2.1 + 1) % 2 ^ 32) →
            (s.sectorOpen sec = false → t.sloe.flash = s.sloe.flash) ∧
            (∀ p, s.sectorOpen sec = true → s.freePage sec = some p → let a := p * 256 + (s.fpage p).progs * 16
              (∀ i, i < 16 → Tab.get erasedByte s.sloe.flash (a + i) = 0xFF) →
              Tab.readBytes erasedByte t.sloe.flash a 16 = pinRecord sq (d.map (·.val)) ∧ (t.fpage p).progs = (s.fpage p).progs + 1 ∧
              ∀ b, b < a ∨ a + 16 ≤ b → Tab.get erasedByte t.sloe.flash b = Tab.get erasedByte s.sloe.flash b))) ∧
      (let m := s.sloe.page.1
       let i := s.sloe.page.2
       let goes (k : MenuKey) (p : Nat × Nat) : Prop := ran (.menu k) fun t => t.sloe.page = p ∧ keeps [.sloe] s t
       (s.flag F.sloChord_LOCKED = true → ∀ k, same (.menu k)) ∧
       (s.flag F.sloChord_LOCKED = false →
         (m = 0 → goes .menu (1, 0) ∧ same (.menu .up) ∧ same (.menu .down) ∧ same (.menu .ok)) ∧
         (m ≠ 0 → same (.menu .menu) ∧ (i = 0 → goes .up (max 1 (m - 1), 0) ∧ goes .down (min 6 (m + 1), 0) ∧ goes .ok (m, 1)) ∧
           (i ≠ 0 → m = 6 → goes .up (6, max 1 (i - 1)) ∧ goes .down (6, min 10 (i + 1)))) ∧
         (m = 6 → i ∈ [1, 2, 6] → s.relayUp = true → open_ = true → ran (.menu .ok) fun t => t.sloe.page = (m, i) ∧
           t.sloe.ringNo = (s.sloe.ringNo + 1) % 2 ^ 32 ∧ ring t) ∧
         ran (.menu .esc) fun t => t.sloe.page = (if i = 0 then (0, 0) else (m, 0)) ∧
           t.flag F.sloPin_UNLOCKED = (decide (m ≠ 6) && open_) ∧ regsKept [.sloPin] s t ∧ ring t)))

/-- R361: a result of the calculator is the exact result rounded to 15 significant digits, half-even; beyond an exponent of 99 it is an
error, below −99 it is 0; a division by 0 and the root of a negative number are errors. R361, R362: the keys of the calculator: entry,
the pending operation and its completion from left to right, =, %, the functions of one number, C and AC, the memory; after an error
all but C and AC are without effect. What % leaves for = and what ← does with a point are the choices of assumption 25. -/
def Obligations.Calculator : Prop :=
  (
  ∀ s : State, let c := s.sloe.calculator
    let val (x : CVal) : ℝ := (if x.neg then -1 else 1) * x.m * (10 : ℝ) ^ (x.e - 14)
    let legal (x : CVal) : Prop := x = {} ∨ (10 ^ 14 ≤ x.m ∧ x.m < 10 ^ 15 ∧ -99 ≤ x.e ∧ x.e ≤ 99)
    let gives (q : ℝ) (o : Option CVal) : Prop := (q = 0 → o = some {}) ∧
      ∀ (e : ℤ) (k : ℕ), q ≠ 0 → (10 : ℝ) ^ e ≤ |q| → |q| < (10 : ℝ) ^ (e + 1) → 2 * abs (|q| * (10 : ℝ) ^ (14 - e) - k) ≤ 1 →
        (2 * abs (|q| * (10 : ℝ) ^ (14 - e) - k) = 1 → k % 2 = 0) →
        let k' := if k = 10 ^ 15 then 10 ^ 14 else k
        let e' := if k = 10 ^ 15 then e + 1 else e
        (e' < -99 → o = some {}) ∧ (99 < e' → o = none) ∧
        (-99 ≤ e' → e' ≤ 99 → ∃ v, o = some v ∧ v.m = k' ∧ v.e = e' ∧ (v.neg = true ↔ q < 0))
    let shows (i : Instr) (q : ℝ) : Prop := ∃ t, exec i s = .next t ∧
      gives q (if t.sloe.calculator.err then none else some t.sloe.calculator.x) ∧ t.sloe.calculator.mem = c.mem ∧ keeps [.sloe] s t
    let errs (i : Instr) : Prop := ∃ t, exec i s = .next t ∧ t.sloe.calculator.err = true ∧ t.sloe.calculator.mem = c.mem ∧ keeps [.sloe] s t
    s.sloe.stopped = false → c.err = false → legal c.x →
      (∀ a op, c.pend = some (a, op) → legal a →
        (op = .add → shows .calcEquals (val a + val c.x)) ∧ (op = .sub → shows .calcEquals (val a - val c.x)) ∧
        (op = .mul → shows .calcEquals (val a * val c.x)) ∧
        (op = .div → c.x.m ≠ 0 → shows .calcEquals (val a / val c.x)) ∧ (op = .div → c.x.m = 0 → errs .calcEquals)) ∧
      (0 ≤ val c.x → shows .calcSqrt (Real.sqrt (val c.x))) ∧ (val c.x < 0 → errs .calcSqrt) ∧ shows .calcSquare (val c.x * val c.x) ∧
      (c.x.m ≠ 0 → shows .calcReciprocal (1 / val c.x)) ∧ (c.x.m = 0 → errs .calcReciprocal) ∧
      (c.pend = none → shows .calcPercent (val c.x / 100)) ∧
      (legal c.mem → ∃ t, exec .calcMPlus s = .next t ∧
        gives (val c.mem + val c.x) (if t.sloe.calculator.err then none else some t.sloe.calculator.mem)) ∧
      (legal c.mem → ∃ t, exec .calcMMinus s = .next t ∧
        gives (val c.mem - val c.x) (if t.sloe.calculator.err then none else some t.sloe.calculator.mem))
  ) ∧ (
  ∀ s : State, let c := s.sloe.calculator
    let same (i : Instr) : Prop := exec i s = .next s
    let ran (i : Instr) (P : Calc → Prop) : Prop := ∃ t, exec i s = .next t ∧ P t.sloe.calculator ∧
      t.sloe = { s.sloe with calculator := t.sloe.calculator } ∧ keeps [.sloe] s t
    let keys : List Instr := [.calcPoint, .calcAdd, .calcSubtract, .calcMultiply, .calcDivide, .calcEquals, .calcPercent, .calcSqrt,
      .calcSquare, .calcReciprocal, .calcSign, .calcDelete, .calcMc, .calcMr, .calcMPlus, .calcMMinus]
    let num (ds : List Nat) : Nat := ds.foldl (fun a d => 10 * a + d) 0
    let entry (e : List Nat × Option Nat × Bool) (d : Calc) : Prop := d.entry = some e ∧ d.have_ = true ∧ d.pend = c.pend ∧ d.mem = c.mem ∧
      d.last = c.last ∧ d.err = false ∧ calcRound e.2.2 (num e.1) (10 ^ e.2.1.getD 0) = some d.x
    let result (o : Option CVal) (d : Calc) : Prop := d.entry = none ∧ d.mem = c.mem ∧ (∀ v, o = some v → d.x = v ∧ d.err = false) ∧
      (o = none → d.err = true)
    (s.sloe.stopped = true ∨ c.err = true → ∀ i ∈ keys, ∀ d, same i ∧ same (.calcDigit d)) ∧
    (s.sloe.stopped = true → same .calcC ∧ same .calcAc) ∧
    (s.sloe.stopped = false →
      ran .calcC (fun d => d = { c with x := {}, entry := none, have_ := true, err := false }) ∧
      ran .calcAc (fun d => d.pend = none ∧ d.x = {} ∧ d.entry = none ∧ d.err = false ∧ d.mem = c.mem)) ∧
    (s.sloe.stopped = false → c.err = false →
      (∀ k : Fin 10, (c.entry = none → ran (.calcDigit k) (entry ([k.val], none, false))) ∧
        (∀ ds p n, c.entry = some (ds, p, n) → (∀ d ∈ ds, d < 10) →
          (ds = [0] → p = none → ran (.calcDigit k) (entry ([k.val], none, n))) ∧
          (12 ≤ ds.length → same (.calcDigit k)) ∧
          (ds.length < 12 → ¬(ds = [0] ∧ p = none) → (∀ j, p = some j → j ≤ ds.length) → ran (.calcDigit k) (entry (ds ++ [k.val], p.map (· + 1), n))))) ∧
      (c.entry = none → ran .calcPoint (entry ([0], some 0, false))) ∧
      (∀ ds n, c.entry = some (ds, none, n) → ds.length ≤ 12 → (∀ d ∈ ds, d < 10) → ran .calcPoint (entry (ds, some 0, n))) ∧
      (∀ ds j n, c.entry = some (ds, some j, n) → same .calcPoint) ∧
      (∀ ds p n, c.entry = some (ds, p, n) → ds.length ≤ 12 → (∀ d ∈ ds, d < 10) → (∀ j, p = some j → j ≤ 12) →
        ran .calcSign (entry (ds, p, !n)) ∧
        ran .calcDelete (entry (if ds.length ≤ 1 then [0] else ds.dropLast, (match p with | some (j + 1) => some j | _ => none), n))) ∧
      (c.entry = none → same .calcDelete ∧ ran .calcSign fun d => d.x = c.x.negate ∧ d.entry = none) ∧
      (∀ i op, (i, op) ∈ ([(.calcAdd, .add), (.calcSubtract, .sub), (.calcMultiply, .mul), (.calcDivide, .div)] : List (Instr × COp)) →
        (c.have_ = false ∨ c.pend = none → ran i fun d => d.pend = some (c.x, op) ∧ d.x = c.x ∧ d.have_ = false ∧ d.err = false) ∧
        (∀ a p, c.have_ = true → c.pend = some (a, p) → ran i fun d => result (calcOp p a c.x) d ∧
          (d.err = false → d.pend = some (d.x, op) ∧ d.have_ = false))) ∧
      (∀ a p, c.pend = some (a, p) → ran .calcEquals (fun d => result (calcOp p a c.x) d ∧ d.pend = none ∧ d.last = some (p, c.x)) ∧
        ran .calcPercent fun d => d.pend = none ∧ d.last = none ∧ result (
          let part := (calcOp .mul a c.x).bind fun t => calcOp .div t hundred
          match p with
          | .add => part.bind fun t => calcOp .add a t
          | .sub => part.bind fun t => calcOp .sub a t
          | .mul => part
          | .div => (calcOp .div a c.x).bind fun t => calcOp .mul t hundred) d) ∧
      (∀ p b, c.pend = none → c.last = some (p, b) → ran .calcEquals fun d => result (calcOp p c.x b) d ∧ d.last = c.last) ∧
      (c.pend = none → c.last = none → ran .calcEquals fun d => d = { c with entry := none }) ∧
      (c.pend = none → ran .calcPercent fun d => result (calcOp .div c.x hundred) d ∧ d.last = c.last) ∧
      ran .calcSqrt (fun d => result (calcRoot c.x) d ∧ d.pend = c.pend) ∧ ran .calcSquare (fun d => result (calcOp .mul c.x c.x) d ∧ d.pend = c.pend) ∧
      ran .calcReciprocal (fun d => result (calcOp .div ⟨false, 10 ^ 14, 0⟩ c.x) d ∧ d.pend = c.pend) ∧
      ran .calcMc (fun d => d = { c with mem := {} }) ∧ ran .calcMr (fun d => d = { c with x := c.mem, entry := none, have_ := true }) ∧
      (∀ i op, (i, op) ∈ ([(.calcMPlus, .add), (.calcMMinus, .sub)] : List (Instr × COp)) → ran i fun d => d.x = c.x ∧ d.entry = none ∧
        d.pend = c.pend ∧ (∀ v, calcOp op c.mem c.x = some v → d.mem = v ∧ d.err = false) ∧
        (calcOp op c.mem c.x = none → d.err = true ∧ d.mem = c.mem)))
  )

/-- R366 to R368, Table 16.9: an SMBus transfer to a powered Sloe answers, or is refused: for a PEC that is required and missing, and,
of a write, for a wrong one, which is counted; what each code returns and does; the delivery of an image; the relay to the Hub. -/
def Obligations.SmbusAndRelay : Prop :=
  ∀ s : State,
    let up : Prop := s.sloe.stopped = false ∧ s.mode ≠ 2
    let same (c : Instr) : Prop := exec c s = .next s
    let said (l : List Byte) (n : Bool) (t : State) : Prop := t.sloe.smbOut = l ∧ t.sloe.smbNack = n
    let nack (c : Instr) : Prop := ∃ t, exec c s = .next t ∧ said [] true t ∧ t.regs = s.regs ∧ keeps [.sloe] s t
    let gives (c : Instr) (l : List Byte) : Prop := exec c s = .next { s with sloe := { s.sloe with smbOut := l, smbNack := false } }
    let reach : Prop := s.mode = 0 ∧ 2 ≤ s.getF F.secBootStat_STEP
    let writesSloe (r s' : State) (off : Nat) (v : DWord) : Prop := exec (.registerWrite [⟨.sloe, BitVec.ofNat 26 off, .w64, v⟩]) r = .next s'
    (∀ p : Pec, let reads : List Instr := [.smbStatus p, .smbBootStat p, .smbRtcRead p, .smbRegRead p, .smbRegResult p, .smbRingRead p, .smbImgStat p]
      let sets (a : Word) (v : DWord) (n : Byte) (d : List Byte) : List Instr :=
        [.rtcWrite true p a, .smbRegAddr p a, .smbRegWrite p v, .smbRingSel p n, .smbImgData p a d, .smbImgEnd p]
      (¬up → (∀ c ∈ reads, same c) ∧ ∀ a v n d, ∀ c ∈ sets a v n d, same c) ∧
      (up → s.flag F.sloSmb_PEC_REQ = true → p.present = false → (∀ c ∈ reads, nack c) ∧ ∀ a v n d, ∀ c ∈ sets a v n d, nack c) ∧
      (up → p.present = true → p.good = false → ∀ a v n d, ∀ c ∈ sets a v n d, ∃ t, exec c s = .next t ∧ said [] true t ∧
        counted F.sloSmb_PEC_ERR 0 s t ∧ regsKept [.sloSmb] s t ∧ keeps [.sloe, .regs] s t) ∧
      (up → s.flag F.sloSmb_PEC_REQ = false ∨ p.present = true →
        gives (.smbBootStat p) (bytesLE 8 s.sloe.bootStat.toNat) ∧ gives (.smbRtcRead p) (bytesLE 4 s.rtc) ∧
        gives (.smbRegResult p) (bytesLE 1 s.sloe.regRes) ∧
        gives (.smbRingRead p) (if s.sloe.ringSel < s.sloe.ringHave then
          Tab.readBytes zeroByte s.sloe.ring ((s.sloe.ringNo + 2 ^ 32 - 1 - s.sloe.ringSel) % 64 * 16) 16 else List.replicate 16 0) ∧
        (∃ l, gives (.smbStatus p) l ∧ l.length = 8 ∧ (l.getD 0 0).toNat % 4 = s.mode ∧ l.getD 1 0 = BitVec.ofNat 8 (s.getF F.sloAlarm_NOW) ∧
          l.getD 2 0 = BitVec.ofNat 8 (s.getF F.sloAlarm_PENDING) ∧ l.getD 3 0 = BitVec.ofNat 8 (s.getF F.sloRing_PEND)) ∧
        gives (.smbImgStat p) (bytesLE 4 (2 * s.sloe.imgCode + 32 * ((s.sloe.img.map (·.next)).getD 0 / 128))) ∧
        (reach → s.sloe.relay = none → let r := s.busRead .sloe s.sloe.regAddr .w64
          ∃ t, exec (.smbRegRead p) s = .next t ∧ said (bytesLE 1 0 ++ bytesLE 8 r.1) false t ∧ t.regs = r.2.regs) ∧
        (¬reach ∨ s.sloe.relay ≠ none → ∃ t l, exec (.smbRegRead p) s = .next t ∧ t.regs = s.regs ∧ l.length = 8 ∧
          said (bytesLE 1 (if ¬reach then 1 else 3) ++ l) false t)) ∧
      (up → p.present = true ∧ p.good = true ∨ p.present = false ∧ s.flag F.sloSmb_PEC_REQ = false →
        (∀ a : Word, (∃ t, exec (.rtcWrite true p a) s = .next t ∧ said [] false t ∧ t.rtc = a.toNat ∧ t.flag F.sloRtc_VALID = true ∧
            regsKept [.sloRtc] s t ∧ keeps [.sloe, .regs] s t) ∧
          (a.toNat < 2 ^ 26 → ∃ t, exec (.smbRegAddr p a) s = .next t ∧ said [] false t ∧ t.sloe.regAddr = a.toNat ∧ keeps [.sloe] s t) ∧
          (2 ^ 26 ≤ a.toNat → nack (.smbRegAddr p a))) ∧
        (∀ v, (reach → s.sloe.relay = none → ∃ t r, exec (.smbRegWrite p v) s = .next t ∧ said [] false t ∧
            writesSloe { s with sloe := { s.sloe with regRes := 0 } } r s.sloe.regAddr v ∧ t.regs = r.regs ∧ t.hub = r.hub) ∧
          (¬reach ∨ s.sloe.relay ≠ none → ∃ t, exec (.smbRegWrite p v) s = .next t ∧ said [] false t ∧
            t.sloe.regRes = (if ¬reach then 1 else 3) ∧ keeps [.sloe] s t)) ∧
        (∀ n : Byte, (64 ≤ n.toNat → nack (.smbRingSel p n)) ∧
          (n.toNat < 64 → ∃ t, exec (.smbRingSel p n) s = .next t ∧ said [] false t ∧ t.sloe.ringSel = n.toNat ∧ keeps [.sloe] s t)) ∧
        (let open_ : Prop := s.flag F.secBootStat_SAFE = true ∧ 0x10 ≤ s.getF F.secBootStat_SAFE_CODE ∧ s.getF F.secBootStat_SAFE_CODE ≤ 0x12
         let old := s.sloe.img.getD ⟨0, [], 2⟩
         (∀ (a : Word) (d : List Byte), (¬open_ ∨ a.toNat ≠ old.next ∨ d.length ≠ 128 → nack (.smbImgData p a d)) ∧
           (open_ → a.toNat = old.next → d.length = 128 → ∃ t i, exec (.smbImgData p a d) s = .next t ∧ said [] false t ∧ t.sloe.img = some i ∧
             i.next = old.next + 128 ∧ i.bytes = old.bytes ++ d)) ∧
         (¬open_ → nack (.smbImgEnd p)) ∧
         (open_ → ∃ t, exec (.smbImgEnd p) s = .next t ∧ said [] false t ∧ t.sloe.img = none ∧
           (s.sloe.img = none ∨ (∃ i, s.sloe.img = some i ∧ i.bytes.length < 256) → t.sloe.imgCode = 9) ∧
           (∀ i, s.sloe.img = some i → 256 ≤ i.bytes.length → i.slot = 2 → t.sloe.imgCode = s.sloe.imgCode) ∧
           (∀ i, s.sloe.img = some i → i.slot ≠ 2 → let h := i.bytes.take 256
             let n := hdr h 0xC 4
             256 + n ≤ i.bytes.length → 256 ≤ i.bytes.length →
             t.sloe.imgCode = (s.verifyImage h ((i.bytes.drop 256).take n) (hdr h 4 1)).1))))) ∧
    (∀ p a, s.sloe.stopped = false → ∃ t, exec (.rtcWrite false p a) s = .next t ∧ t.rtc = a.toNat ∧ t.flag F.sloRtc_VALID = true ∧
      regsKept [.sloRtc] s t ∧ keeps [.sloe, .regs] s t) ∧
    (¬up → same .alertResponse) ∧ (up → s.flag F.sloSmb_ALERT = false → nack .alertResponse) ∧
    (up → s.flag F.sloSmb_ALERT = true → ∃ t, exec .alertResponse s = .next t ∧ said (bytesLE 1 (2 * smbAddr)) false t ∧
      t.flag F.sloSmb_ALERT = decide (s.getF F.sloAlarm_PENDING ≠ 0) ∧ regsKept [.sloSmb] s t ∧ keeps [.sloe, .regs] s t) ∧
    (s.sloe.stopped = true → same .relayRead ∧ same .relayWrite ∧ same .relayComplete) ∧
    (s.sloe.stopped = false → (∀ b : Bool, let c : Instr := if b then .relayWrite else .relayRead
        (reach → s.sloe.relay ≠ none → ∃ t, exec c s = .next t ∧ t.getF F.sloHubStat_RESULT = 3 ∧ t.sloe = s.sloe ∧ keeps [.regs] s t) ∧
        (¬reach → ∃ t, exec c s = .next t ∧ t.getF F.sloHubStat_RESULT = 1 ∧ t.sloe = s.sloe ∧ keeps [.regs] s t) ∧
        (s.sloe.relay = none → reach → ∃ t, exec c s = .next t ∧ t.flag F.sloHubStat_BUSY = true ∧
          t.sloe.relay = some (b, s.getF F.sloHubAddr_OFFSET, s.getF F.sloHubData_DATA) ∧ regsKept [.sloHubStat] s t ∧ keeps [.sloe, .regs] s t)) ∧
      (s.sloe.relay = none → same .relayComplete) ∧
      (∀ b off v, s.sloe.relay = some (b, off, v) → ∃ t, exec .relayComplete s = .next t ∧ t.sloe.relay = none ∧ t.flag F.sloHubStat_BUSY = false ∧
        t.getF F.sloHubStat_RESULT = (if reach then 0 else 2) ∧
        (reach → b = false → t.getF F.sloHubData_DATA = (s.busRead .sloe off .w64).1 % 2 ^ 64) ∧
        (reach → b = true → ∃ r, writesSloe s r off (BitVec.ofNat 64 v) ∧ t.fields = r.fields ∧ t.hub = r.hub)))

/-- R372 to R386, Tables 17.2, 17.8: a flash command is refused with the first code of Table 17.2 that applies and changes nothing
else, or starts; a program clears the bits its data has 0, an erase leaves 0xFF; SUSPEND and RESUME; the password lock; a window read
that meets an operation suspends it under AUTO_SUSP; write protection falls only to the ROM. -/
def Obligations.SloeFlash : Prop :=
  ∀ s : State,
    let same (c : Instr) : Prop := exec c s = .next s
    let ran (c : Instr) (P : State → Prop) : Prop := ∃ t, exec c s = .next t ∧ P t
    let sl := s.sloe
    let refused (r : Nat) (t : State) : Prop := t.flag F.fshStat_ERR = true ∧ t.getF F.fshStat_ERR_CODE = r ∧
      regOnly .fshStat 0 0 [F.fshStat_ERR, F.fshStat_ERR_CODE] s t
    let addr := s.getF F.fshAddr_ADDR
    let starts (n page sec : Nat) (prog : Bool) (t : State) : Prop := ∃ o, t.sloe.fop = some o ∧ o.cmd = n ∧
      o.addr = (if n ≤ 2 then addr else addr % 64) ∧ o.since = s.now ∧ o.pulses = 0 ∧ o.suspended = false ∧ t.sloe.held = sl.fop ∧
      (prog = true → o.data = Tab.readBytes zeroByte sl.core.sram (s.getF F.fshSrc_SRC) (s.getF F.fshSrc_LEN) ∧
        (t.fpage page).progs = (s.fpage page).progs + 1 ∧ (t.fpage page).st = 2) ∧
      (prog = false → t.fsector sec = 2) ∧ t.flag F.fshStat_BUSY = true ∧ t.getF F.fshStat_OP = n ∧
      (n ≤ 2 → addr / 4096 ≤ 113 → t.sloe.monitor = true ∧ t.flag F.secBootStat_SLOE_ROM = true) ∧
      t.sloe.flash = sl.flash ∧ t.sloe.opt = sl.opt ∧ keeps [.sloe, .regs] s t
    (sl.stopped = true → ∀ c, c ∈ ([.flUnlock, .flLock, .flOptLoad, .flSuspend, .flResume, .flashPulseComplete, .flashOperationComplete] : List Instr) →
      same c) ∧
    (sl.stopped = true → ∀ k a h v r, same (.flProgram k) ∧ same (.flErase k) ∧ same (.flOptProgram k) ∧ same (.flOptErase k) ∧
      same (.flashWindowReadStall a) ∧ same (.wpClear h v r)) ∧
    (sl.stopped = false →
      (∀ k : Half, let chk (n : Nat) : Nat := s.flashCheck n k.toNat
        (chk 1 ≠ 0 → ran (.flProgram k) (refused (chk 1))) ∧ (chk 1 = 0 → ran (.flProgram k) (starts 1 (addr / 256) (addr / 4096) true)) ∧
        (chk 2 ≠ 0 → ran (.flErase k) (refused (chk 2))) ∧ (chk 2 = 0 → ran (.flErase k) (starts 2 2048 (addr / 4096) false)) ∧
        (chk 3 ≠ 0 → ran (.flOptProgram k) (refused (chk 3))) ∧ (chk 3 = 0 → ran (.flOptProgram k) (starts 3 2048 128 true)) ∧
        (chk 4 ≠ 0 → ran (.flOptErase k) (refused (chk 4))) ∧ (chk 4 = 0 → ran (.flOptErase k) (starts 4 2048 128 false)) ∧
        (∀ n, n ∈ [1, 2, 3, 4] → (s.mode = 2 → chk n = 1) ∧
          (s.mode ≠ 2 → (∃ o, sl.fop = some o ∧ o.suspended = false) → chk n = 2) ∧
          (s.mode ≠ 2 → sl.fop = none → k.toNat ≠ 0xF1A5 → chk n = 3)) ∧
        (s.mode ≠ 2 → sl.fop = none → k.toNat = 0xF1A5 → let sec := addr / 4096
          (chk 2 = if (s.getF F.fshWp_WP (sec / 64)).testBit (sec % 64) then 7 else if s.nvLocked sec then 8 else 0) ∧
          (chk 4 = if sl.lc = 2 ∧ s.flag F.fshStat_UNLOCKED = false then 8 else 0))) ∧
      (let n := s.getF F.fshStat_PW_FAILS
       let right : Prop := n < 8 ∧ s.getF F.fshPassword_VALUE = sl.password.toNat
       (sl.fop ≠ none → ran .flUnlock (refused 2) ∧ ran .flLock (refused 2) ∧ ran .flOptLoad (refused 2)) ∧
       (sl.fop = none →
         (right → ran .flUnlock fun t => t.flag F.fshStat_UNLOCKED = true ∧ t.getF F.fshStat_PW_FAILS = 0 ∧
           regOnly .fshStat 0 0 [F.fshStat_UNLOCKED, F.fshStat_PW_FAILS] s t) ∧
         (¬right → ran .flUnlock fun t => t.flag F.fshStat_ERR = true ∧ t.getF F.fshStat_ERR_CODE = 9 ∧
           t.getF F.fshStat_PW_FAILS = (if n < 8 then n + 1 else n) ∧ t.flag F.fshStat_UNLOCKED = s.flag F.fshStat_UNLOCKED ∧
           regsKept [.fshStat] s t ∧ keeps [.regs] s t) ∧
         ran .flLock (fun t => t.flag F.fshStat_UNLOCKED = false ∧ regOnly .fshStat 0 0 [F.fshStat_UNLOCKED] s t) ∧
         ran .flOptLoad fun t => t.flag F.fshStat_UNLOCKED = false ∧ (s.fsector 128 = 0 →
           t.getF F.fshNvlock_LOCK 0 = Tab.readLE erasedByte sl.opt 0 8 ∧ t.getF F.fshNvlock_LOCK 1 = Tab.readLE erasedByte sl.opt 8 8 ∧
           t.sloe.password = BitVec.ofNat 64 (Tab.readLE erasedByte sl.opt 16 8) ∧
           (t.flag F.fshStat_OPT_TORN = decide ((s.fpage 2048).st = 2)) ∧ keeps [.sloe, .regs] s t))) ∧
      ((sl.fop = none ∨ (∃ o, sl.fop = some o ∧ o.suspended = true) ∨ sl.held ≠ none → same .flSuspend) ∧
       (∀ o, sl.fop = some o → o.suspended = false → sl.held = none → ran .flSuspend fun t =>
         t.sloe = { sl with fop := some { o with suspended := true, susp := o.susp + 1 } } ∧ t.flag F.fshStat_SUSPENDED = true ∧
         t.flag F.fshStat_BUSY = false ∧ regsKept [.fshStat] s t ∧ keeps [.sloe, .regs] s t) ∧
       (sl.held ≠ none → ran .flResume (refused 2)) ∧
       (sl.held = none → sl.fop = none ∨ (∃ o, sl.fop = some o ∧ o.suspended = false) → same .flResume) ∧
       (∀ o, sl.held = none → sl.fop = some o → o.suspended = true → ran .flResume fun t =>
         t.sloe = { sl with fop := some { o with suspended := false, since := s.now } } ∧ t.flag F.fshStat_BUSY = true ∧
         t.flag F.fshStat_SUSPENDED = false ∧ regsKept [.fshStat] s t ∧ keeps [.sloe, .regs] s t)) ∧
      (sl.fop = none → same .flashPulseComplete ∧ same .flashOperationComplete) ∧
      (∀ o, sl.fop = some o → let prog : Prop := o.cmd = 1 ∨ o.cmd = 3
        let due (a b : Nat) : Prop := o.suspended = false ∧ ((prog → o.since + a ≤ s.now) ∧ (¬prog → o.since + b ≤ s.now))
        let more : Prop := due 400000 1000000 ∧ (prog → o.pulses < 3) ∧ (¬prog → o.pulses < 40)
        let done : Prop := due 0 500000 ∧ o.pulses ≠ 0
        (¬more → same .flashPulseComplete) ∧
        (more → ran .flashPulseComplete fun t => t.sloe = { sl with fop := some { o with pulses := o.pulses + 1, since := s.now } } ∧
          t.getF F.fshStat_PULSES = (o.pulses + 1) % 2 ^ 6 ∧ regsKept [.fshStat] s t ∧ keeps [.sloe, .regs] s t) ∧
        (¬done → same .flashOperationComplete) ∧
        (done → ran .flashOperationComplete fun t => t.sloe.fop = sl.held ∧ t.sloe.held = none ∧ t.flag F.fshStat_DONE = true ∧
          regsKept [.fshStat] s t ∧ keeps [.sloe, .regs] s t ∧
          (let get (m : Tab Byte) (a : Nat) : Byte := Tab.get erasedByte m a
           let put (m n : Tab Byte) : Prop := ∀ a, get n a = if o.addr ≤ a ∧ a < o.addr + o.data.length then get m a &&& o.data.getD (a - o.addr) 0
             else get m a
           (o.cmd = 1 → put sl.flash t.sloe.flash ∧ t.sloe.opt = sl.opt ∧ (t.fpage (o.addr / 256)).st = 1) ∧
           (o.cmd = 3 → put sl.opt t.sloe.opt ∧ t.sloe.flash = sl.flash ∧ (t.fpage 2048).st = 1) ∧
           (o.cmd = 2 → let sec := o.addr / 4096
             (∀ a, get t.sloe.flash a = if a / 4096 = sec then 0xFF else get sl.flash a) ∧ t.fsector sec = 0 ∧
             (∀ i, i < 16 → t.fpage (sec * 16 + i) = {}) ∧ t.sloe.opt = sl.opt) ∧
           (o.cmd = 4 → (∀ a, get t.sloe.opt a = 0xFF) ∧ t.sloe.flash = sl.flash ∧ t.fsector 128 = 0 ∧ t.fpage 2048 = {})))) ∧
      (∀ a : BitVec 16, let window : Prop := 0x4000 ≤ a.toNat ∧ a.toNat < 0xC000 ∧ ¬(s.flag F.sloFbank_ROM = true ∧ a.toNat < 0x6000)
        let stalls : Prop := window ∧ (∃ o, sl.fop = some o ∧ o.suspended = false) ∧ s.flag F.fshCtrl_AUTO_SUSP = true
        (stalls → exec (.flashWindowReadStall a) s = exec .flSuspend s) ∧ (¬stalls → same (.flashWindowReadStall a))) ∧
      (∀ (hi : Bool) (v : DWord), same (.wpClear hi v false) ∧ ran (.wpClear hi v true) fun t => let k := if hi then 1 else 0
        (∀ i, i < 64 → (t.reg .fshWp k 0 0).testBit i = ((s.reg .fshWp k 0 0).testBit i && !v.getLsbD i)) ∧
        t.reg .fshWp (1 - k) 0 0 = s.reg .fshWp (1 - k) 0 0 ∧ regsKept [.fshWp] s t ∧ keeps [.regs] s t))

/-- R411, Table 15.4: the scan chain runs through the Hub and then E0 to E7; IDCODE[27:12] reads the part, IDCODE[31:28] the stepping
digit that the OTP holds; with DEBUG_DIS the four instructions of Table 15.4 remain, and without it all. That bit 0 reads 1 and that the
bits leave the device nearest TDO first are assumption 141. -/
def Obligations.TestPort : Prop :=
  ∀ (s : State) (d : TapDevice), let id := (s.idcode d).toNat
    scanChain = .hub :: (List.finRange 8).map TapDevice.edge ∧ d ∈ scanChain ∧
    id / 2 ^ 12 % 2 ^ 16 = (match d with | .hub => 0x4B10 | .edge e => 0x4B11 + e.val) ∧ id / 2 ^ 28 = s.otpByte 0x3C5 % 2 ^ 4 ∧
    id / 2 % 2 ^ 11 = Config.jedecCode.toNat ∧ id % 2 = 1 ∧
    (∀ i, s.tapOffers i = true ↔ s.debugDis = false ∨ i ∈ [.bypass, .idcode, .samplePreload, .extest]) ∧
    s.idcodeScan.length = 9 * 32 ∧ (∀ k, k < 32 → s.idcodeScan[k]? = some ((s.idcode (.edge 7)).getLsbD k) ∧
      s.idcodeScan[8 * 32 + k]? = some ((s.idcode .hub).getLsbD k))
end

