-- ==== Sys2Proof/Laws/Bits.lean ====
section
/-! SUPPORT. Bit fields of numbers: a field just put reads as what was put, and a field beside it reads as before. -/

namespace Sys2Proof.Machine

theorem bitsOf_lt (v lo w : Nat) : bitsOf v lo w < 2 ^ w := Nat.mod_lt _ (Nat.two_pow_pos w)

/-- A number around one of its fields. -/
theorem bitsOf_split (v lo w : Nat) : v = v / 2 ^ (lo + w) * 2 ^ (lo + w) + bitsOf v lo w * 2 ^ lo + v % 2 ^ lo := by
  have h1 := Nat.div_add_mod v (2 ^ lo)
  have h2 := Nat.div_add_mod (v / 2 ^ lo) (2 ^ w)
  rw [Nat.div_div_eq_div_mul, ← Nat.pow_add] at h2
  unfold bitsOf
  have h3 : v / 2 ^ (lo + w) * 2 ^ (lo + w) + v / 2 ^ lo % 2 ^ w * 2 ^ lo
      = 2 ^ lo * (2 ^ w * (v / 2 ^ (lo + w)) + v / 2 ^ lo % 2 ^ w) := by
    rw [Nat.pow_add]; ring
  rw [h3, h2, h1]

/-- The same number with the field replaced. -/
theorem putBits_split (v lo w x : Nat) :
    putBits v lo w x = v / 2 ^ (lo + w) * 2 ^ (lo + w) + x % 2 ^ w * 2 ^ lo + v % 2 ^ lo := by
  have h := bitsOf_split v lo w
  unfold putBits
  omega

theorem putBits_mod_lo (v lo w x : Nat) : putBits v lo w x % 2 ^ lo = v % 2 ^ lo := by
  rw [putBits_split]
  have : v / 2 ^ (lo + w) * 2 ^ (lo + w) + x % 2 ^ w * 2 ^ lo + v % 2 ^ lo
      = (v / 2 ^ (lo + w) * 2 ^ w + x % 2 ^ w) * 2 ^ lo + v % 2 ^ lo := by rw [Nat.pow_add]; ring
  rw [this, Nat.mul_add_mod', Nat.mod_mod]

theorem putBits_div_lo (v lo w x : Nat) : putBits v lo w x / 2 ^ lo = v / 2 ^ (lo + w) * 2 ^ w + x % 2 ^ w := by
  rw [putBits_split]
  have : v / 2 ^ (lo + w) * 2 ^ (lo + w) + x % 2 ^ w * 2 ^ lo + v % 2 ^ lo
      = 2 ^ lo * (v / 2 ^ (lo + w) * 2 ^ w + x % 2 ^ w) + v % 2 ^ lo := by rw [Nat.pow_add]; ring
  rw [this, Nat.mul_add_div (Nat.two_pow_pos lo), Nat.div_eq_of_lt (Nat.mod_lt _ (Nat.two_pow_pos lo)), Nat.add_zero]

theorem putBits_div_hi (v lo w x : Nat) : putBits v lo w x / 2 ^ (lo + w) = v / 2 ^ (lo + w) := by
  rw [Nat.pow_add, ← Nat.div_div_eq_div_mul, putBits_div_lo, Nat.mul_comm,
    Nat.mul_add_div (Nat.two_pow_pos w), Nat.div_eq_of_lt (Nat.mod_lt _ (Nat.two_pow_pos w)), Nat.add_zero, Nat.pow_add]

/-- The field just put. -/
theorem bitsOf_putBits_same (v lo w x : Nat) : bitsOf (putBits v lo w x) lo w = x % 2 ^ w := by
  rw [bitsOf, putBits_div_lo, Nat.mul_add_mod', Nat.mod_mod]

/-- A field above the one put. -/
theorem bitsOf_putBits_above (v lo w x l k : Nat) (h : lo + w ≤ l) : bitsOf (putBits v lo w x) l k = bitsOf v l k := by
  obtain ⟨d, rfl⟩ := Nat.exists_eq_add_of_le h
  rw [bitsOf, bitsOf, Nat.pow_add 2 (lo + w) d, ← Nat.div_div_eq_div_mul, putBits_div_hi, Nat.div_div_eq_div_mul]

/-- A field below the one put. -/
theorem bitsOf_putBits_below (v lo w x l k : Nat) (h : l + k ≤ lo) : bitsOf (putBits v lo w x) l k = bitsOf v l k := by
  have e (u : Nat) : bitsOf u l k = u % 2 ^ lo / 2 ^ l % 2 ^ k := by
    obtain ⟨d, rfl⟩ := Nat.exists_eq_add_of_le (show l ≤ lo by omega)
    have hk : k ≤ d := by omega
    rw [bitsOf, Nat.pow_add, Nat.mod_mul_right_div_self, Nat.mod_mod_of_dvd _ (Nat.pow_dvd_pow 2 hk)]
  rw [e, e, putBits_mod_lo]

/-- A field put into a word of `n` bits leaves a word of `n` bits. -/
theorem putBits_lt (v lo w x n : Nat) (hv : v < 2 ^ n) (h : lo + w ≤ n) : putBits v lo w x < 2 ^ n := by
  obtain ⟨d, rfl⟩ := Nat.exists_eq_add_of_le h
  have h1 : putBits v lo w x / 2 ^ (lo + w) = v / 2 ^ (lo + w) := putBits_div_hi v lo w x
  have h2 : v / 2 ^ (lo + w) < 2 ^ d := by
    rw [Nat.div_lt_iff_lt_mul (Nat.two_pow_pos _), ← Nat.pow_add, Nat.add_comm d]; exact hv
  rw [← h1, Nat.div_lt_iff_lt_mul (Nat.two_pow_pos _), ← Nat.pow_add, Nat.add_comm d] at h2
  exact h2

end Sys2Proof.Machine
end

