-- ==== Sys2Proof/Laws/Exec.lean ====
section
/-! SUPPORT. What `exec` is on each command: one call of its meaning. -/

namespace Sys2Proof.Machine

open Sys2Proof

@[simp] theorem exec_registerWrite (ws : List BusWrite) (s : State) : exec (.registerWrite ws) s = execRegisterWrite ws s := rfl
@[simp] theorem exec_rsvdWriteClear (src : Source) (s : State) : exec (.rsvdWriteClear src) s = execRsvdWriteClear src s := rfl
@[simp] theorem exec_lastWriterClear (src : Source) (s : State) : exec (.lastWriterClear src) s = execLastWriterClear src s := rfl
@[simp] theorem exec_counterLatchRead (src : Source) (off : BitVec 26) (s : State) : exec (.counterLatchRead src off) s = execCounterLatchRead src off s := rfl
@[simp] theorem exec_doorbell (p : Port) (t : Tenant) (off : BitVec 12) (w : AccW) (v : DWord) (s : State) : exec (.doorbell p t off w v) s = execDoorbell p t off w v s := rfl
@[simp] theorem exec_descriptorFetch (p : Port) (t : Tenant) (n : Fin 17) (r : HostRead) (s : State) : exec (.descriptorFetch p t n r) s = execDescriptorFetch p t n r s := rfl
@[simp] theorem exec_dispatch (fields : List FieldNo) (s : State) : exec (.dispatch fields) s = execDispatch fields s := rfl
@[simp] theorem exec_descriptorDelivery (f : FieldNo) (s : State) : exec (.descriptorDelivery f) s = execDescriptorDelivery f s := rfl
@[simp] theorem exec_projectionExchange (f : FieldNo) (s : State) : exec (.projectionExchange f) s = execProjectionExchange f s := rfl
@[simp] theorem exec_rejectWord (p : Port) (t : Tenant) (s : State) : exec (.rejectWord p t) s = execRejectWord p t s := rfl
@[simp] theorem exec_candidateFetch (slot : BitVec 24) (cands : HostRead) (ctx : HostRead) (s : State) : exec (.candidateFetch slot cands ctx) s = execCandidateFetch slot cands ctx s := rfl
@[simp] theorem exec_resultPage (p : Port) (t : Tenant) (s : State) : exec (.resultPage p t) s = execResultPage p t s := rfl
@[simp] theorem exec_postedCreditReturn (p : Port) (n : Nat) (s : State) : exec (.postedCreditReturn p n) s = execPostedCreditReturn p n s := rfl
@[simp] theorem exec_rsHeadWrite (p : Port) (t : Tenant) (w : AccW) (v : DWord) (s : State) : exec (.rsHeadWrite p t w v) s = execRsHeadWrite p t w v s := rfl
@[simp] theorem exec_ringEnable (src : Source) (p : Port) (t : Tenant) (v : DWord) (s : State) : exec (.ringEnable src p t v) s = execRingEnable src p t v s := rfl
@[simp] theorem exec_flush (src : Source) (p : Port) (t : Tenant) (s : State) : exec (.flush src p t) s = execFlush src p t s := rfl
@[simp] theorem exec_ringConfigWrite (src : Source) (p : Port) (t : Tenant) (rs : Bool) (v : DWord) (s : State) : exec (.ringConfigWrite src p t rs v) s = execRingConfigWrite src p t rs v s := rfl
@[simp] theorem exec_farSegmentWrite (src : Source) (p : Port) (v : DWord) (s : State) : exec (.farSegmentWrite src p v) s = execFarSegmentWrite src p v s := rfl
@[simp] theorem exec_prtErrClear (src : Source) (p : Port) (s : State) : exec (.prtErrClear src p) s = execPrtErrClear src p s := rfl
@[simp] theorem exec_portStall (p : Port) (t : Tenant) (s : State) : exec (.portStall p t) s = execPortStall p t s := rfl
@[simp] theorem exec_ringInterrupt (p : Port) (t : Tenant) (s : State) : exec (.ringInterrupt p t) s = execRingInterrupt p t s := rfl
@[simp] theorem exec_hostMemoryRead (p : Port) (path : HostPath) (addr : BitVec 40) (len : Nat) (s : State) : exec (.hostMemoryRead p path addr len) s = execHostMemoryRead p path addr len s := rfl
@[simp] theorem exec_hostMemoryWrite (p : Port) (path : HostPath) (addr : BitVec 40) (data : List Byte) (s : State) : exec (.hostMemoryWrite p path addr data) s = execHostMemoryWrite p path addr data s := rfl
@[simp] theorem exec_portReset (p : Port) (kind : PortResetKind) (s : State) : exec (.portReset p kind) s = execPortReset p kind s := rfl
@[simp] theorem exec_linkDown (p : Port) (s : State) : exec (.linkDown p) s = execLinkDown p s := rfl
@[simp] theorem exec_farTierAccess (p : Port) (r : HostRead) (s : State) : exec (.farTierAccess p r) s = execFarTierAccess p r s := rfl
@[simp] theorem exec_claim (src : Source) (t : Tenant) (arg : BitVec 3) (s : State) : exec (.claim src t arg) s = execClaim src t arg s := rfl
@[simp] theorem exec_activate (src : Source) (t : Tenant) (s : State) : exec (.activate src t) s = execActivate src t s := rfl
@[simp] theorem exec_stop (src : Source) (t : Tenant) (s : State) : exec (.stop src t) s = execStop src t s := rfl
@[simp] theorem exec_tenantStopComplete (t : Tenant) (s : State) : exec (.tenantStopComplete t) s = execTenantStopComplete t s := rfl
@[simp] theorem exec_reassign (src : Source) (t : Tenant) (arg : BitVec 3) (s : State) : exec (.reassign src t arg) s = execReassign src t arg s := rfl
@[simp] theorem exec_tenantConfigWrite (src : Source) (t : Tenant) (r : TenCfgReg) (v : DWord) (s : State) : exec (.tenantConfigWrite src t r v) s = execTenantConfigWrite src t r v s := rfl
@[simp] theorem exec_sliceExpiry (f : FieldNo) (s : State) : exec (.sliceExpiry f) s = execSliceExpiry f s := rfl
@[simp] theorem exec_contextSwitch (f : FieldNo) (s : State) : exec (.contextSwitch f) s = execContextSwitch f s := rfl
@[simp] theorem exec_residencyChange (f : FieldNo) (s : State) : exec (.residencyChange f) s = execResidencyChange f s := rfl
@[simp] theorem exec_windowCommit (src : Source) (v : DWord) (s : State) : exec (.windowCommit src v) s = execWindowCommit src v s := rfl
@[simp] theorem exec_windowInstall (t : Tenant) (w : Fin 32) (s : State) : exec (.windowInstall t w) s = execWindowInstall t w s := rfl
@[simp] theorem exec_windowDrain (t : Tenant) (s : State) : exec (.windowDrain t) s = execWindowDrain t s := rfl
@[simp] theorem exec_tableRegister (src : Source) (s : State) : exec (.tableRegister src) s = execTableRegister src s := rfl
@[simp] theorem exec_tableRetire (src : Source) (s : State) : exec (.tableRetire src) s = execTableRetire src s := rfl
@[simp] theorem exec_ready (src : Source) (bk : Bank) (s : State) : exec (.ready src bk) s = execReady src bk s := rfl
@[simp] theorem exec_readyTakeEffect (t : Tenant) (n : Byte) (bk : Bank) (s : State) : exec (.readyTakeEffect t n bk) s = execReadyTakeEffect t n bk s := rfl
@[simp] theorem exec_unready (src : Source) (bk : Bank) (s : State) : exec (.unready src bk) s = execUnready src bk s := rfl
@[simp] theorem exec_tableConfigWrite (src : Source) (r : TblCfgReg) (v : DWord) (s : State) : exec (.tableConfigWrite src r v) s = execTableConfigWrite src r v s := rfl
@[simp] theorem exec_epochFlip (src : Source) (t : Tenant) (s : State) : exec (.epochFlip src t) s = execEpochFlip src t s := rfl
@[simp] theorem exec_epochPauseEnd (t : Tenant) (s : State) : exec (.epochPauseEnd t) s = execEpochPauseEnd t s := rfl
@[simp] theorem exec_bankDrained (t : Tenant) (n : Byte) (s : State) : exec (.bankDrained t n) s = execBankDrained t n s := rfl
@[simp] theorem exec_copyForward (t : Tenant) (s : State) : exec (.copyForward t) s = execCopyForward t s := rfl
@[simp] theorem exec_hbmAccess (m : Stack) (s : State) : exec (.hbmAccess m) s = execHbmAccess m s := rfl
@[simp] theorem exec_patrolScrub (m : Stack) (s : State) : exec (.patrolScrub m) s = execPatrolScrub m s := rfl
@[simp] theorem exec_hbmRefresh (m : Stack) (bank : Nat) (s : State) : exec (.hbmRefresh m bank) s = execHbmRefresh m bank s := rfl
@[simp] theorem exec_hbmErrClear (src : Source) (m : Stack) (s : State) : exec (.hbmErrClear src m) s = execHbmErrClear src m s := rfl
@[simp] theorem exec_packetHop (id : Nat) (s : State) : exec (.packetHop id) s = execPacketHop id s := rfl
@[simp] theorem exec_routerCreditReturn (id : Nat) (s : State) : exec (.routerCreditReturn id) s = execRouterCreditReturn id s := rfl
@[simp] theorem exec_accessTimeout (id : Nat) (s : State) : exec (.accessTimeout id) s = execAccessTimeout id s := rfl
@[simp] theorem exec_fldBrErrClear (src : Source) (f : FieldNo) (s : State) : exec (.fldBrErrClear src f) s = execFldBrErrClear src f s := rfl
@[simp] theorem exec_hubBrTrunkClear (src : Source) (p : PField) (s : State) : exec (.hubBrTrunkClear src p) s = execHubBrTrunkClear src p s := rfl
@[simp] theorem exec_kernelFire (f : FieldNo) (t : TileNo) (s : State) : exec (.kernelFire f t) s = execKernelFire f t s := rfl
@[simp] theorem exec_queueEntryArrival (f : FieldNo) (t : TileNo) (d : Dir) (s : State) : exec (.queueEntryArrival f t d) s = execQueueEntryArrival f t d s := rfl
@[simp] theorem exec_qstallResume (f : FieldNo) (t : TileNo) (s : State) : exec (.qstallResume f t) s = execQstallResume f t s := rfl
@[simp] theorem exec_contextSwitchEvent (f : FieldNo) (t : TileNo) (s : State) : exec (.contextSwitchEvent f t) s = execContextSwitchEvent f t s := rfl
@[simp] theorem exec_freeze (f : FieldNo) (t : TileNo) (s : State) : exec (.freeze f t) s = execFreeze f t s := rfl
@[simp] theorem exec_debugHalt (f : FieldNo) (t : TileNo) (s : State) : exec (.debugHalt f t) s = execDebugHalt f t s := rfl
@[simp] theorem exec_faultClear (src : Source) (f : FieldNo) (t : TileNo) (s : State) : exec (.faultClear src f t) s = execFaultClear src f t s := rfl
@[simp] theorem exec_tileOutsideWrite (f : FieldNo) (t : TileNo) (off : BitVec 12) (v : DWord) (seq : Bool) (s : State) : exec (.tileOutsideWrite f t off v seq) s = execTileOutsideWrite f t off v seq s := rfl
@[simp] theorem exec_tileWindowRead (src : Source) (f : FieldNo) (off : BitVec 12) (w : AccW) (s : State) : exec (.tileWindowRead src f off w) s = execTileWindowRead src f off w s := rfl
@[simp] theorem exec_tileWindowWrite (src : Source) (f : FieldNo) (off : BitVec 12) (w : AccW) (v : DWord) (s : State) : exec (.tileWindowWrite src f off w v) s = execTileWindowWrite src f off w v s := rfl
@[simp] theorem exec_remoteSramAccess (f : FieldNo) (t : TileNo) (s : State) : exec (.remoteSramAccess f t) s = execRemoteSramAccess f t s := rfl
@[simp] theorem exec_postedStoreAck (f : FieldNo) (t : TileNo) (s : State) : exec (.postedStoreAck f t) s = execPostedStoreAck f t s := rfl
@[simp] theorem exec_globalResponse (f : FieldNo) (t : TileNo) (s : State) : exec (.globalResponse f t) s = execGlobalResponse f t s := rfl
@[simp] theorem exec_gatherElementReturn (f : FieldNo) (t : TileNo) (s : State) : exec (.gatherElementReturn f t) s = execGatherElementReturn f t s := rfl
@[simp] theorem exec_tMov (x : Site) (o : Form2) (s : State) : exec (.tMov x o) s = execTMov x o s := rfl
@[simp] theorem exec_tAdd (x : Site) (o : Form3) (s : State) : exec (.tAdd x o) s = execTAdd x o s := rfl
@[simp] theorem exec_tSub (x : Site) (o : Form3) (s : State) : exec (.tSub x o) s = execTSub x o s := rfl
@[simp] theorem exec_tAnd (x : Site) (o : Form3) (s : State) : exec (.tAnd x o) s = execTAnd x o s := rfl
@[simp] theorem exec_tOr (x : Site) (o : Form3) (s : State) : exec (.tOr x o) s = execTOr x o s := rfl
@[simp] theorem exec_tXor (x : Site) (o : Form3) (s : State) : exec (.tXor x o) s = execTXor x o s := rfl
@[simp] theorem exec_tCmp (x : Site) (o : Form2) (s : State) : exec (.tCmp x o) s = execTCmp x o s := rfl
@[simp] theorem exec_tTst (x : Site) (o : Form2) (s : State) : exec (.tTst x o) s = execTTst x o s := rfl
@[simp] theorem exec_tMac8 (x : Site) (acc : Bool) (d a : BitVec 5) (s : State) : exec (.tMac8 x acc d a) s = execTMac8 x acc d a s := rfl
@[simp] theorem exec_tMacq (x : Site) (acc : Bool) (d a : BitVec 5) (s : State) : exec (.tMacq x acc d a) s = execTMacq x acc d a s := rfl
@[simp] theorem exec_tLi (x : Site) (k : Fin 8) (imm : Byte) (s : State) : exec (.tLi x k imm) s = execTLi x k imm s := rfl
@[simp] theorem exec_tLsh (x : Site) (k : Fin 8) (imm : Byte) (s : State) : exec (.tLsh x k imm) s = execTLsh x k imm s := rfl
@[simp] theorem exec_tAddi (x : Site) (k : Fin 8) (imm : Byte) (s : State) : exec (.tAddi x k imm) s = execTAddi x k imm s := rfl
@[simp] theorem exec_tCmpi (x : Site) (k : Fin 8) (imm : Byte) (s : State) : exec (.tCmpi x k imm) s = execTCmpi x k imm s := rfl
@[simp] theorem exec_tShli (x : Site) (k : Fin 8) (imm : Byte) (s : State) : exec (.tShli x k imm) s = execTShli x k imm s := rfl
@[simp] theorem exec_tShri (x : Site) (k : Fin 8) (imm : Byte) (s : State) : exec (.tShri x k imm) s = execTShri x k imm s := rfl
@[simp] theorem exec_tRr (x : Site) (k : Fin 8) (imm : Byte) (s : State) : exec (.tRr x k imm) s = execTRr x k imm s := rfl
@[simp] theorem exec_tLdb (x : Site) (k : Fin 8) (slot : BitVec 7) (s : State) : exec (.tLdb x k slot) s = execTLdb x k slot s := rfl
@[simp] theorem exec_tStb (x : Site) (k : Fin 8) (slot : BitVec 7) (s : State) : exec (.tStb x k slot) s = execTStb x k slot s := rfl
@[simp] theorem exec_tNop (x : Site) (imm : Byte) (s : State) : exec (.tNop x imm) s = execTNop x imm s := rfl
@[simp] theorem exec_tDone (x : Site) (imm : Byte) (s : State) : exec (.tDone x imm) s = execTDone x imm s := rfl
@[simp] theorem exec_tSset (x : Site) (imm : Byte) (s : State) : exec (.tSset x imm) s = execTSset x imm s := rfl
@[simp] theorem exec_tSclr (x : Site) (imm : Byte) (s : State) : exec (.tSclr x imm) s = execTSclr x imm s := rfl
@[simp] theorem exec_tSwait (x : Site) (imm : Byte) (s : State) : exec (.tSwait x imm) s = execTSwait x imm s := rfl
@[simp] theorem exec_signalWake (f : FieldNo) (t : TileNo) (s : State) : exec (.signalWake f t) s = execSignalWake f t s := rfl
@[simp] theorem exec_tBarf (x : Site) (imm : Byte) (s : State) : exec (.tBarf x imm) s = execTBarf x imm s := rfl
@[simp] theorem exec_tBarw (x : Site) (imm : Byte) (s : State) : exec (.tBarw x imm) s = execTBarw x imm s := rfl
@[simp] theorem exec_tAclr (x : Site) (imm : Byte) (s : State) : exec (.tAclr x imm) s = execTAclr x imm s := rfl
@[simp] theorem exec_tArm (x : Site) (imm : Byte) (s : State) : exec (.tArm x imm) s = execTArm x imm s := rfl
@[simp] theorem exec_tDisarm (x : Site) (imm : Byte) (s : State) : exec (.tDisarm x imm) s = execTDisarm x imm s := rfl
@[simp] theorem exec_tJr (x : Site) (imm : Byte) (s : State) : exec (.tJr x imm) s = execTJr x imm s := rfl
@[simp] theorem exec_tSetrnd (x : Site) (imm : Byte) (s : State) : exec (.tSetrnd x imm) s = execTSetrnd x imm s := rfl
@[simp] theorem exec_tSetsat (x : Site) (imm : Byte) (s : State) : exec (.tSetsat x imm) s = execTSetsat x imm s := rfl
@[simp] theorem exec_tJ16 (x : Site) (cond : BitVec 4) (off : BitVec 9) (s : State) : exec (.tJ16 x cond off) s = execTJ16 x cond off s := rfl
@[simp] theorem exec_tMul (x : Site) (w : BitVec 2) (a b d : Byte) (s : State) : exec (.tMul x w a b d) s = execTMul x w a b d s := rfl
@[simp] theorem exec_tNeg (x : Site) (o : T2Form) (s : State) : exec (.tNeg x o) s = execTNeg x o s := rfl
@[simp] theorem exec_tNot (x : Site) (o : T2Form) (s : State) : exec (.tNot x o) s = execTNot x o s := rfl
@[simp] theorem exec_tAbs (x : Site) (o : T2Form) (s : State) : exec (.tAbs x o) s = execTAbs x o s := rfl
@[simp] theorem exec_tMin (x : Site) (o : T2Form) (s : State) : exec (.tMin x o) s = execTMin x o s := rfl
@[simp] theorem exec_tMax (x : Site) (o : T2Form) (s : State) : exec (.tMax x o) s = execTMax x o s := rfl
@[simp] theorem exec_tMinu (x : Site) (o : T2Form) (s : State) : exec (.tMinu x o) s = execTMinu x o s := rfl
@[simp] theorem exec_tMaxu (x : Site) (o : T2Form) (s : State) : exec (.tMaxu x o) s = execTMaxu x o s := rfl
@[simp] theorem exec_tShl (x : Site) (o : T2Form) (s : State) : exec (.tShl x o) s = execTShl x o s := rfl
@[simp] theorem exec_tShr (x : Site) (o : T2Form) (s : State) : exec (.tShr x o) s = execTShr x o s := rfl
@[simp] theorem exec_tSar (x : Site) (o : T2Form) (s : State) : exec (.tSar x o) s = execTSar x o s := rfl
@[simp] theorem exec_tPopc (x : Site) (o : T2Form) (s : State) : exec (.tPopc x o) s = execTPopc x o s := rfl
@[simp] theorem exec_tClz (x : Site) (o : T2Form) (s : State) : exec (.tClz x o) s = execTClz x o s := rfl
@[simp] theorem exec_tMulq (x : Site) (o : TQForm) (s : State) : exec (.tMulq x o) s = execTMulq x o s := rfl
@[simp] theorem exec_tNarrow (x : Site) (o : TQForm) (s : State) : exec (.tNarrow x o) s = execTNarrow x o s := rfl
@[simp] theorem exec_tWiden (x : Site) (o : TQForm) (s : State) : exec (.tWiden x o) s = execTWiden x o s := rfl
@[simp] theorem exec_tRdacc (x : Site) (acc : Bool) (o : TQForm) (s : State) : exec (.tRdacc x acc o) s = execTRdacc x acc o s := rfl
@[simp] theorem exec_tWracc (x : Site) (acc : Bool) (o : TQForm) (s : State) : exec (.tWracc x acc o) s = execTWracc x acc o s := rfl
@[simp] theorem exec_tMac (x : Site) (acc fmt clr : Bool) (zero : BitVec 5) (a b : Byte) (s : State) : exec (.tMac x acc fmt clr zero a b) s = execTMac x acc fmt clr zero a b s := rfl
@[simp] theorem exec_tRepMove (x : Site) (o : RepForm) (s : State) : exec (.tRepMove x o) s = execTRepMove x o s := rfl
@[simp] theorem exec_tRepFill (x : Site) (o : RepForm) (s : State) : exec (.tRepFill x o) s = execTRepFill x o s := rfl
@[simp] theorem exec_tRepCmp (x : Site) (o : RepForm) (s : State) : exec (.tRepCmp x o) s = execTRepCmp x o s := rfl
@[simp] theorem exec_tRepScan (x : Site) (o : RepForm) (s : State) : exec (.tRepScan x o) s = execTRepScan x o s := rfl
@[simp] theorem exec_tRgath (x : Site) (o : RepForm) (s : State) : exec (.tRgath x o) s = execTRgath x o s := rfl
@[simp] theorem exec_repeatElement (x : Site) (rop : BitVec 3) (o : RepForm) (s : State) : exec (.repeatElement x rop o) s = execRepeatElement x rop o s := rfl
@[simp] theorem exec_tBr (x : Site) (cond : BitVec 4) (l : Bool) (k : Fin 8) (off : Half) (s : State) : exec (.tBr x cond l k off) s = execTBr x cond l k off s := rfl
@[simp] theorem exec_tFire (x : Site) (o : SYForm) (s : State) : exec (.tFire x o) s = execTFire x o s := rfl
@[simp] theorem exec_tCset (x : Site) (o : SYForm) (s : State) : exec (.tCset x o) s = execTCset x o s := rfl
@[simp] theorem exec_tCclr (x : Site) (o : SYForm) (s : State) : exec (.tCclr x o) s = execTCclr x o s := rfl
@[simp] theorem exec_tCwait (x : Site) (o : SYForm) (s : State) : exec (.tCwait x o) s = execTCwait x o s := rfl
@[simp] theorem exec_tCtst (x : Site) (o : SYForm) (s : State) : exec (.tCtst x o) s = execTCtst x o s := rfl
@[simp] theorem exec_tGld (x : Site) (o : GLForm) (s : State) : exec (.tGld x o) s = execTGld x o s := rfl
@[simp] theorem exec_tGst (x : Site) (o : GLForm) (s : State) : exec (.tGst x o) s = execTGst x o s := rfl
@[simp] theorem exec_tTas (x : Site) (o : GLForm) (s : State) : exec (.tTas x o) s = execTTas x o s := rfl
@[simp] theorem exec_tLr (x : Site) (o : GLForm) (s : State) : exec (.tLr x o) s = execTLr x o s := rfl
@[simp] theorem exec_tSc (x : Site) (o : GLForm) (s : State) : exec (.tSc x o) s = execTSc x o s := rfl
@[simp] theorem exec_priorityHoldEnd (granule : BitVec 42) (s : State) : exec (.priorityHoldEnd granule) s = execPriorityHoldEnd granule s := rfl
@[simp] theorem exec_tMovx (x : Site) (xa xd : BitVec 4) (a d : Byte) (s : State) : exec (.tMovx x xa xd a d) s = execTMovx x xa xd a d s := rfl
@[simp] theorem exec_tDadd (x : Site) (o : DXForm) (s : State) : exec (.tDadd x o) s = execTDadd x o s := rfl
@[simp] theorem exec_tDsub (x : Site) (o : DXForm) (s : State) : exec (.tDsub x o) s = execTDsub x o s := rfl
@[simp] theorem exec_tDmul (x : Site) (o : DXForm) (s : State) : exec (.tDmul x o) s = execTDmul x o s := rfl
@[simp] theorem exec_tDcmp (x : Site) (o : DXForm) (s : State) : exec (.tDcmp x o) s = execTDcmp x o s := rfl
@[simp] theorem exec_tDrsc (x : Site) (o : DXForm) (s : State) : exec (.tDrsc x o) s = execTDrsc x o s := rfl
@[simp] theorem exec_tDcin (x : Site) (o : DXForm) (s : State) : exec (.tDcin x o) s = execTDcin x o s := rfl
@[simp] theorem exec_tDcout (x : Site) (o : DXForm) (s : State) : exec (.tDcout x o) s = execTDcout x o s := rfl
@[simp] theorem exec_seqNop (f : FieldNo) (i : SeqInstr) (s : State) : exec (.seqNop f i) s = execSeqNop f i s := rfl
@[simp] theorem exec_seqMov (f : FieldNo) (i : SeqInstr) (s : State) : exec (.seqMov f i) s = execSeqMov f i s := rfl
@[simp] theorem exec_seqAdd (f : FieldNo) (i : SeqInstr) (s : State) : exec (.seqAdd f i) s = execSeqAdd f i s := rfl
@[simp] theorem exec_seqSub (f : FieldNo) (i : SeqInstr) (s : State) : exec (.seqSub f i) s = execSeqSub f i s := rfl
@[simp] theorem exec_seqAnd (f : FieldNo) (i : SeqInstr) (s : State) : exec (.seqAnd f i) s = execSeqAnd f i s := rfl
@[simp] theorem exec_seqOr (f : FieldNo) (i : SeqInstr) (s : State) : exec (.seqOr f i) s = execSeqOr f i s := rfl
@[simp] theorem exec_seqXor (f : FieldNo) (i : SeqInstr) (s : State) : exec (.seqXor f i) s = execSeqXor f i s := rfl
@[simp] theorem exec_seqShl (f : FieldNo) (i : SeqInstr) (s : State) : exec (.seqShl f i) s = execSeqShl f i s := rfl
@[simp] theorem exec_seqShr (f : FieldNo) (i : SeqInstr) (s : State) : exec (.seqShr f i) s = execSeqShr f i s := rfl
@[simp] theorem exec_seqSar (f : FieldNo) (i : SeqInstr) (s : State) : exec (.seqSar f i) s = execSeqSar f i s := rfl
@[simp] theorem exec_seqMul (f : FieldNo) (i : SeqInstr) (s : State) : exec (.seqMul f i) s = execSeqMul f i s := rfl
@[simp] theorem exec_seqMin (f : FieldNo) (i : SeqInstr) (s : State) : exec (.seqMin f i) s = execSeqMin f i s := rfl
@[simp] theorem exec_seqMax (f : FieldNo) (i : SeqInstr) (s : State) : exec (.seqMax f i) s = execSeqMax f i s := rfl
@[simp] theorem exec_seqMinu (f : FieldNo) (i : SeqInstr) (s : State) : exec (.seqMinu f i) s = execSeqMinu f i s := rfl
@[simp] theorem exec_seqMaxu (f : FieldNo) (i : SeqInstr) (s : State) : exec (.seqMaxu f i) s = execSeqMaxu f i s := rfl
@[simp] theorem exec_seqCmp (f : FieldNo) (i : SeqInstr) (s : State) : exec (.seqCmp f i) s = execSeqCmp f i s := rfl
@[simp] theorem exec_seqTst (f : FieldNo) (i : SeqInstr) (s : State) : exec (.seqTst f i) s = execSeqTst f i s := rfl
@[simp] theorem exec_seqXchg (f : FieldNo) (i : SeqInstr) (s : State) : exec (.seqXchg f i) s = execSeqXchg f i s := rfl
@[simp] theorem exec_seqCas (f : FieldNo) (i : SeqInstr) (s : State) : exec (.seqCas f i) s = execSeqCas f i s := rfl
@[simp] theorem exec_seqDivu (f : FieldNo) (i : SeqInstr) (s : State) : exec (.seqDivu f i) s = execSeqDivu f i s := rfl
@[simp] theorem exec_seqRemu (f : FieldNo) (i : SeqInstr) (s : State) : exec (.seqRemu f i) s = execSeqRemu f i s := rfl
@[simp] theorem exec_seqDadd (f : FieldNo) (i : SeqInstr) (s : State) : exec (.seqDadd f i) s = execSeqDadd f i s := rfl
@[simp] theorem exec_seqDsub (f : FieldNo) (i : SeqInstr) (s : State) : exec (.seqDsub f i) s = execSeqDsub f i s := rfl
@[simp] theorem exec_seqDmul (f : FieldNo) (i : SeqInstr) (s : State) : exec (.seqDmul f i) s = execSeqDmul f i s := rfl
@[simp] theorem exec_seqDdiv (f : FieldNo) (i : SeqInstr) (s : State) : exec (.seqDdiv f i) s = execSeqDdiv f i s := rfl
@[simp] theorem exec_seqDcmp (f : FieldNo) (i : SeqInstr) (s : State) : exec (.seqDcmp f i) s = execSeqDcmp f i s := rfl
@[simp] theorem exec_seqDrsc (f : FieldNo) (i : SeqInstr) (s : State) : exec (.seqDrsc f i) s = execSeqDrsc f i s := rfl
@[simp] theorem exec_seqBr (f : FieldNo) (cond : BitVec 4) (i : SeqInstr) (s : State) : exec (.seqBr f cond i) s = execSeqBr f cond i s := rfl
@[simp] theorem exec_seqCall (f : FieldNo) (i : SeqInstr) (s : State) : exec (.seqCall f i) s = execSeqCall f i s := rfl
@[simp] theorem exec_seqJmp (f : FieldNo) (i : SeqInstr) (s : State) : exec (.seqJmp f i) s = execSeqJmp f i s := rfl
@[simp] theorem exec_seqRet (f : FieldNo) (i : SeqInstr) (s : State) : exec (.seqRet f i) s = execSeqRet f i s := rfl
@[simp] theorem exec_seqTret (f : FieldNo) (i : SeqInstr) (s : State) : exec (.seqTret f i) s = execSeqTret f i s := rfl
@[simp] theorem exec_seqScset (f : FieldNo) (i : SeqInstr) (s : State) : exec (.seqScset f i) s = execSeqScset f i s := rfl
@[simp] theorem exec_seqScclr (f : FieldNo) (i : SeqInstr) (s : State) : exec (.seqScclr f i) s = execSeqScclr f i s := rfl
@[simp] theorem exec_seqScwait (f : FieldNo) (i : SeqInstr) (s : State) : exec (.seqScwait f i) s = execSeqScwait f i s := rfl
@[simp] theorem exec_seqBarf (f : FieldNo) (i : SeqInstr) (s : State) : exec (.seqBarf f i) s = execSeqBarf f i s := rfl
@[simp] theorem exec_seqBarw (f : FieldNo) (i : SeqInstr) (s : State) : exec (.seqBarw f i) s = execSeqBarw f i s := rfl
@[simp] theorem exec_seqGstage (f : FieldNo) (i : SeqInstr) (s : State) : exec (.seqGstage f i) s = execSeqGstage f i s := rfl
@[simp] theorem exec_gstageDone (f : FieldNo) (s : State) : exec (.gstageDone f) s = execGstageDone f s := rfl
@[simp] theorem exec_gstageFault (f : FieldNo) (s : State) : exec (.gstageFault f) s = execGstageFault f s := rfl
@[simp] theorem exec_seqWload (f : FieldNo) (i : SeqInstr) (s : State) : exec (.seqWload f i) s = execSeqWload f i s := rfl
@[simp] theorem exec_wloadComplete (f : FieldNo) (s : State) : exec (.wloadComplete f) s = execWloadComplete f s := rfl
@[simp] theorem exec_seqDpass (f : FieldNo) (i : SeqInstr) (s : State) : exec (.seqDpass f i) s = execSeqDpass f i s := rfl
@[simp] theorem exec_seqDwait (f : FieldNo) (i : SeqInstr) (s : State) : exec (.seqDwait f i) s = execSeqDwait f i s := rfl
@[simp] theorem exec_seqEvwait (f : FieldNo) (i : SeqInstr) (s : State) : exec (.seqEvwait f i) s = execSeqEvwait f i s := rfl
@[simp] theorem exec_seqRqtake (f : FieldNo) (i : SeqInstr) (s : State) : exec (.seqRqtake f i) s = execSeqRqtake f i s := rfl
@[simp] theorem exec_seqProj (f : FieldNo) (i : SeqInstr) (s : State) : exec (.seqProj f i) s = execSeqProj f i s := rfl
@[simp] theorem exec_seqAdmit (f : FieldNo) (i : SeqInstr) (s : State) : exec (.seqAdmit f i) s = execSeqAdmit f i s := rfl
@[simp] theorem exec_seqRqend (f : FieldNo) (i : SeqInstr) (s : State) : exec (.seqRqend f i) s = execSeqRqend f i s := rfl
@[simp] theorem exec_seqCallt (f : FieldNo) (i : SeqInstr) (s : State) : exec (.seqCallt f i) s = execSeqCallt f i s := rfl
@[simp] theorem exec_seqTrst (f : FieldNo) (i : SeqInstr) (s : State) : exec (.seqTrst f i) s = execSeqTrst f i s := rfl
@[simp] theorem exec_seqCtxsave (f : FieldNo) (i : SeqInstr) (s : State) : exec (.seqCtxsave f i) s = execSeqCtxsave f i s := rfl
@[simp] theorem exec_seqCtxload (f : FieldNo) (i : SeqInstr) (s : State) : exec (.seqCtxload f i) s = execSeqCtxload f i s := rfl
@[simp] theorem exec_seqRepElement (f : FieldNo) (op : Byte) (i : SeqInstr) (s : State) : exec (.seqRepElement f op i) s = execSeqRepElement f op i s := rfl
@[simp] theorem exec_seqPreempt (f : FieldNo) (s : State) : exec (.seqPreempt f) s = execSeqPreempt f s := rfl
@[simp] theorem exec_microcodeReload (f : FieldNo) (s : State) : exec (.microcodeReload f) s = execMicrocodeReload f s := rfl
@[simp] theorem exec_feedEntryArrival (f : FieldNo) (lane : Fin 70) (s : State) : exec (.feedEntryArrival f lane) s = execFeedEntryArrival f lane s := rfl
@[simp] theorem exec_drainEntryArrival (f : FieldNo) (lane : Fin 70) (s : State) : exec (.drainEntryArrival f lane) s = execDrainEntryArrival f lane s := rfl
@[simp] theorem exec_planeLoadDone (f : FieldNo) (s : State) : exec (.planeLoadDone f) s = execPlaneLoadDone f s := rfl
@[simp] theorem exec_passStreamStart (f : FieldNo) (s : State) : exec (.passStreamStart f) s = execPassStreamStart f s := rfl
@[simp] theorem exec_vectorEntry (f : FieldNo) (s : State) : exec (.vectorEntry f) s = execVectorEntry f s := rfl
@[simp] theorem exec_vectorConvert (f : FieldNo) (s : State) : exec (.vectorConvert f) s = execVectorConvert f s := rfl
@[simp] theorem exec_conversionDone (f : FieldNo) (s : State) : exec (.conversionDone f) s = execConversionDone f s := rfl
@[simp] theorem exec_dnsErrClear (src : Source) (f : FieldNo) (s : State) : exec (.dnsErrClear src f) s = execDnsErrClear src f s := rfl
@[simp] theorem exec_cellOperation (f : FieldNo) (s : State) : exec (.cellOperation f) s = execCellOperation f s := rfl
@[simp] theorem exec_cellAck (f : FieldNo) (w : Waiter) (s : State) : exec (.cellAck f w) s = execCellAck f w s := rfl
@[simp] theorem exec_cellWake (f : FieldNo) (w : Waiter) (s : State) : exec (.cellWake f w) s = execCellWake f w s := rfl
@[simp] theorem exec_barrierArrival (g : BarGroup) (s : State) : exec (.barrierArrival g) s = execBarrierArrival g s := rfl
@[simp] theorem exec_barrierRelease (g : BarGroup) (s : State) : exec (.barrierRelease g) s = execBarrierRelease g s := rfl
@[simp] theorem exec_deadlockDetectorFire (f : FieldNo) (s : State) : exec (.deadlockDetectorFire f) s = execDeadlockDetectorFire f s := rfl
@[simp] theorem exec_thaw (src : Source) (f : FieldNo) (s : State) : exec (.thaw src f) s = execThaw src f s := rfl
@[simp] theorem exec_deadlockReset (src : Source) (f : FieldNo) (s : State) : exec (.deadlockReset src f) s = execDeadlockReset src f s := rfl
@[simp] theorem exec_dlFire (src : Source) (f : FieldNo) (s : State) : exec (.dlFire src f) s = execDlFire src f s := rfl
@[simp] theorem exec_cellCorrInject (src : Source) (f : FieldNo) (s : State) : exec (.cellCorrInject src f) s = execCellCorrInject src f s := rfl
@[simp] theorem exec_cellUncorrInject (src : Source) (f : FieldNo) (s : State) : exec (.cellUncorrInject src f) s = execCellUncorrInject src f s := rfl
@[simp] theorem exec_treeParityInject (src : Source) (f : FieldNo) (s : State) : exec (.treeParityInject src f) s = execTreeParityInject src f s := rfl
@[simp] theorem exec_waferTreeInject (src : Source) (s : State) : exec (.waferTreeInject src) s = execWaferTreeInject src s := rfl
@[simp] theorem exec_syncErrClear (src : Source) (f : FieldNo) (s : State) : exec (.syncErrClear src f) s = execSyncErrClear src f s := rfl
@[simp] theorem exec_wbarErrClear (src : Source) (s : State) : exec (.wbarErrClear src) s = execWbarErrClear src s := rfl
@[simp] theorem exec_lend (f : FieldNo) (s : State) : exec (.lend f) s = execLend f s := rfl
@[simp] theorem exec_recall (f : FieldNo) (s : State) : exec (.recall f) s = execRecall f s := rfl
@[simp] theorem exec_recallComplete (f : FieldNo) (s : State) : exec (.recallComplete f) s = execRecallComplete f s := rfl
@[simp] theorem exec_lendThresholdWrite (src : Source) (v : DWord) (s : State) : exec (.lendThresholdWrite src v) s = execLendThresholdWrite src v s := rfl
@[simp] theorem exec_witnessRecordSend (f : FieldNo) (s : State) : exec (.witnessRecordSend f) s = execWitnessRecordSend f s := rfl
@[simp] theorem exec_witnessReplay (f : FieldNo) (t : TileNo) (r : Replay) (s : State) : exec (.witnessReplay f t r) s = execWitnessReplay f t r s := rfl
@[simp] theorem exec_witnessRecordTimeout (f : FieldNo) (s : State) : exec (.witnessRecordTimeout f) s = execWitnessRecordTimeout f s := rfl
@[simp] theorem exec_refereeReplay (f : FieldNo) (t : TileNo) (r : Replay) (s : State) : exec (.refereeReplay f t r) s = execRefereeReplay f t r s := rfl
@[simp] theorem exec_suspectExpiry (i : Fin 128) (s : State) : exec (.suspectExpiry i) s = execSuspectExpiry i s := rfl
@[simp] theorem exec_tileSelfTest (f : FieldNo) (t : TileNo) (pass : Bool) (s : State) : exec (.tileSelfTest f t pass) s = execTileSelfTest f t pass s := rfl
@[simp] theorem exec_fence (src : Source) (f : FieldNo) (t : BitVec 13) (hold : Half) (s : State) : exec (.fence src f t hold) s = execFence src f t hold s := rfl
@[simp] theorem exec_unfence (src : Source) (f : FieldNo) (t : BitVec 13) (s : State) : exec (.unfence src f t) s = execUnfence src f t s := rfl
@[simp] theorem exec_retire (src : Source) (f : FieldNo) (s : State) : exec (.retire src f) s = execRetire src f s := rfl
@[simp] theorem exec_fenceQuiesce (f : FieldNo) (r : TestResult) (s : State) : exec (.fenceQuiesce f r) s = execFenceQuiesce f r s := rfl
@[simp] theorem exec_fenceResume (f : FieldNo) (s : State) : exec (.fenceResume f) s = execFenceResume f s := rfl
@[simp] theorem exec_retirementQuiesce (f : FieldNo) (spareFails : List PField) (s : State) : exec (.retirementQuiesce f spareFails) s = execRetirementQuiesce f spareFails s := rfl
@[simp] theorem exec_retirementResume (f : FieldNo) (s : State) : exec (.retirementResume f) s = execRetirementResume f s := rfl
@[simp] theorem exec_commandedSelfTest (src : Source) (kind : BitVec 2) (num : BitVec 7) (s : State) : exec (.commandedSelfTest src kind num) s = execCommandedSelfTest src kind num s := rfl
@[simp] theorem exec_stDone (r : TestResult) (s : State) : exec (.stDone r) s = execStDone r s := rfl
@[simp] theorem exec_rasInject (src : Source) (v : DWord) (s : State) : exec (.rasInject src v) s = execRasInject src v s := rfl
@[simp] theorem exec_hardenedScrub (off : BitVec 26) (s : State) : exec (.hardenedScrub off) s = execHardenedScrub off s := rfl
@[simp] theorem exec_rasHardClear (src : Source) (s : State) : exec (.rasHardClear src) s = execRasHardClear src s := rfl
@[simp] theorem exec_rasNotify (p : Port) (s : State) : exec (.rasNotify p) s = execRasNotify p s := rfl
@[simp] theorem exec_linkEnable (src : Source) (k : LinkNo) (allowX8 : Bool) (s : State) : exec (.linkEnable src k allowX8) s = execLinkEnable src k allowX8 s := rfl
@[simp] theorem exec_linkDisable (src : Source) (k : LinkNo) (s : State) : exec (.linkDisable src k) s = execLinkDisable src k s := rfl
@[simp] theorem exec_retrain (src : Source) (k : LinkNo) (s : State) : exec (.retrain src k) s = execRetrain src k s := rfl
@[simp] theorem exec_detect (k : LinkNo) (lanes : BitVec 16) (s : State) : exec (.detect k lanes) s = execDetect k lanes s := rfl
@[simp] theorem exec_equaliseDone (k : LinkNo) (s : State) : exec (.equaliseDone k) s = execEqualiseDone k s := rfl
@[simp] theorem exec_alignDone (k : LinkNo) (lanes : BitVec 16) (s : State) : exec (.alignDone k lanes) s = execAlignDone k lanes s := rfl
@[simp] theorem exec_ctrlFlit (k : LinkNo) (c : CtrlFlit) (s : State) : exec (.ctrlFlit k c) s = execCtrlFlit k c s := rfl
@[simp] theorem exec_trainingTimeout (k : LinkNo) (s : State) : exec (.trainingTimeout k) s = execTrainingTimeout k s := rfl
@[simp] theorem exec_dataFlit (k : LinkNo) (fl : DataFlit) (err : LineErrors) (s : State) : exec (.dataFlit k fl err) s = execDataFlit k fl err s := rfl
@[simp] theorem exec_idleFlit (k : LinkNo) (ack : BitVec 11) (nak : Bool) (seq : BitVec 11) (err : LineErrors) (s : State) : exec (.idleFlit k ack nak seq err) s = execIdleFlit k ack nak seq err s := rfl
@[simp] theorem exec_nak (k : LinkNo) (ack : BitVec 11) (s : State) : exec (.nak k ack) s = execNak k ack s := rfl
@[simp] theorem exec_replayTimeout (k : LinkNo) (s : State) : exec (.replayTimeout k) s = execReplayTimeout k s := rfl
@[simp] theorem exec_timePacket (k : LinkNo) (stamp : DWord) (s : State) : exec (.timePacket k stamp) s = execTimePacket k stamp s := rfl
@[simp] theorem exec_peerRegisterRead (k : LinkNo) (v : DWord) (s : State) : exec (.peerRegisterRead k v) s = execPeerRegisterRead k v s := rfl
@[simp] theorem exec_remoteRequest (k : LinkNo) (r : LinkPkt) (s : State) : exec (.remoteRequest k r) s = execRemoteRequest k r s := rfl
@[simp] theorem exec_linkLostPoison (k : LinkNo) (s : State) : exec (.linkLostPoison k) s = execLinkLostPoison k s := rfl
@[simp] theorem exec_bundleReassign (k : LinkNo) (s : State) : exec (.bundleReassign k) s = execBundleReassign k s := rfl
@[simp] theorem exec_tchUnitWrite (src : Source) (v : DWord) (s : State) : exec (.tchUnitWrite src v) s = execTchUnitWrite src v s := rfl
@[simp] theorem exec_apertureWrite (src : Source) (j : Fin 16) (v : DWord) (s : State) : exec (.apertureWrite src j v) s = execApertureWrite src j v s := rfl
@[simp] theorem exec_exportWindowWrite (src : Source) (j : Fin 16) (v : DWord) (s : State) : exec (.exportWindowWrite src j v) s = execExportWindowWrite src j v s := rfl
@[simp] theorem exec_tchStatClear (src : Source) (s : State) : exec (.tchStatClear src) s = execTchStatClear src s := rfl
@[simp] theorem exec_linkErrClear (src : Source) (k : LinkNo) (s : State) : exec (.linkErrClear src k) s = execLinkErrClear src k s := rfl
@[simp] theorem exec_injSym (src : Source) (k : LinkNo) (s : State) : exec (.injSym src k) s = execInjSym src k s := rfl
@[simp] theorem exec_injUncorr (src : Source) (k : LinkNo) (s : State) : exec (.injUncorr src k) s = execInjUncorr src k s := rfl
@[simp] theorem exec_injCrc (src : Source) (k : LinkNo) (s : State) : exec (.injCrc src k) s = execInjCrc src k s := rfl
@[simp] theorem exec_injLane (src : Source) (k : LinkNo) (s : State) : exec (.injLane src k) s = execInjLane src k s := rfl
@[simp] theorem exec_domainOffReq (src : Source) (d : Domain) (off : Bool) (s : State) : exec (.domainOffReq src d off) s = execDomainOffReq src d off s := rfl
@[simp] theorem exec_domainFault (d : Domain) (s : State) : exec (.domainFault d) s = execDomainFault d s := rfl
@[simp] theorem exec_opReevaluation (s : State) : exec .opReevaluation s = execOpReevaluation s := rfl
@[simp] theorem exec_opTransition (f : FieldNo) (s : State) : exec (.opTransition f) s = execOpTransition f s := rfl
@[simp] theorem exec_junctionSense (f : FieldNo) (s0 s1 s2 s3 : Byte) (s : State) : exec (.junctionSense f s0 s1 s2 s3) s = execJunctionSense f s0 s1 s2 s3 s := rfl
@[simp] theorem exec_thermalCeilingStep (f : FieldNo) (s : State) : exec (.thermalCeilingStep f) s = execThermalCeilingStep f s := rfl
@[simp] theorem exec_hbmThermalCeiling (m : Stack) (temp : Byte) (s : State) : exec (.hbmThermalCeiling m temp) s = execHbmThermalCeiling m temp s := rfl
@[simp] theorem exec_currentCeiling (f : FieldNo) (amps : Nat) (s : State) : exec (.currentCeiling f amps) s = execCurrentCeiling f amps s := rfl
@[simp] theorem exec_envelopeCeiling (watts : Nat) (s : State) : exec (.envelopeCeiling watts) s = execEnvelopeCeiling watts s := rfl
@[simp] theorem exec_fieldReqWrite (src : Source) (f : FieldNo) (v : DWord) (s : State) : exec (.fieldReqWrite src f v) s = execFieldReqWrite src f v s := rfl
@[simp] theorem exec_freezeCounters (src : Source) (on : Bool) (s : State) : exec (.freezeCounters src on) s = execFreezeCounters src on s := rfl
@[simp] theorem exec_zeroCounters (src : Source) (s : State) : exec (.zeroCounters src) s = execZeroCounters src s := rfl
@[simp] theorem exec_powerOnReset (s : State) : exec .powerOnReset s = execPowerOnReset s := rfl
@[simp] theorem exec_unitReset (by_ : ResetBy) (s : State) : exec (.unitReset by_) s = execUnitReset by_ s := rfl
@[simp] theorem exec_watchdogReset (s : State) : exec .watchdogReset s = execWatchdogReset s := rfl
@[simp] theorem exec_sloeAlive (s : State) : exec .sloeAlive s = execSloeAlive s := rfl
@[simp] theorem exec_powerUp (s : State) : exec .powerUp s = execPowerUp s := rfl
@[simp] theorem exec_hubRom (ok : Bool) (s : State) : exec (.hubRom ok) s = execHubRom ok s := rfl
@[simp] theorem exec_otpCheck (s : State) : exec .otpCheck s = execOtpCheck s := rfl
@[simp] theorem exec_imageVerification (s : State) : exec .imageVerification s = execImageVerification s := rfl
@[simp] theorem exec_defectRecordVerify (s : State) : exec .defectRecordVerify s = execDefectRecordVerify s := rfl
@[simp] theorem exec_bootMapBuild (s : State) : exec .bootMapBuild s = execBootMapBuild s := rfl
@[simp] theorem exec_quickSelfTest (p : PField) (r : TestResult) (last : Bool) (s : State) : exec (.quickSelfTest p r last) s = execQuickSelfTest p r last s := rfl
@[simp] theorem exec_hbmTraining (failed : List Stack) (s : State) : exec (.hbmTraining failed) s = execHbmTraining failed s := rfl
@[simp] theorem exec_fieldRelease (s : State) : exec .fieldRelease s = execFieldRelease s := rfl
@[simp] theorem exec_hostLinkUp (partners : List LinkPartner) (s : State) : exec (.hostLinkUp partners) s = execHostLinkUp partners s := rfl
@[simp] theorem exec_bootStepTimeout (s : State) : exec .bootStepTimeout s = execBootStepTimeout s := rfl
@[simp] theorem exec_stage (src : Source) (kind : BitVec 3) (r : HostRead) (s : State) : exec (.stage src kind r) s = execStage src kind r s := rfl
@[simp] theorem exec_stageComplete (readbackOk : Bool) (s : State) : exec (.stageComplete readbackOk) s = execStageComplete readbackOk s := rfl
@[simp] theorem exec_svnCommit (src : Source) (kind : BitVec 3) (s : State) : exec (.svnCommit src kind) s = execSvnCommit src kind s := rfl
@[simp] theorem exec_returnAuth (src : Source) (r : HostRead) (s : State) : exec (.returnAuth src r) s = execReturnAuth src r s := rfl
@[simp] theorem exec_signatureVerify (s : State) : exec .signatureVerify s = execSignatureVerify s := rfl
@[simp] theorem exec_lcGo (src : Source) (target : BitVec 2) (s : State) : exec (.lcGo src target) s = execLcGo src target s := rfl
@[simp] theorem exec_armExpiry (s : State) : exec .armExpiry s = execArmExpiry s := rfl
@[simp] theorem exec_lifecycleBurn (s : State) : exec .lifecycleBurn s = execLifecycleBurn s := rfl
@[simp] theorem exec_mainPowerGoodRise (s : State) : exec .mainPowerGoodRise s = execMainPowerGoodRise s := rfl
@[simp] theorem exec_mainPowerGoodDrop (s : State) : exec .mainPowerGoodDrop s = execMainPowerGoodDrop s := rfl
@[simp] theorem exec_standbyRailFall (s : State) : exec .standbyRailFall s = execStandbyRailFall s := rfl
@[simp] theorem exec_standbyRailStable (s : State) : exec .standbyRailStable s = execStandbyRailStable s := rfl
@[simp] theorem exec_cellStop (s : State) : exec .cellStop s = execCellStop s := rfl
@[simp] theorem exec_autoOn (s : State) : exec .autoOn s = execAutoOn s := rfl
@[simp] theorem exec_powerOn (by_ : PowerBy) (s : State) : exec (.powerOn by_) s = execPowerOn by_ s := rfl
@[simp] theorem exec_powerOff (by_ : PowerBy) (s : State) : exec (.powerOff by_) s = execPowerOff by_ s := rfl
@[simp] theorem exec_sloeWatchdogRestart (s : State) : exec .sloeWatchdogRestart s = execSloeWatchdogRestart s := rfl
@[simp] theorem exec_keyScan (closed : BitVec 30) (s : State) : exec (.keyScan closed) s = execKeyScan closed s := rfl
@[simp] theorem exec_keyPop (s : State) : exec .keyPop s = execKeyPop s := rfl
@[simp] theorem exec_keypadLock (s : State) : exec .keypadLock s = execKeypadLock s := rfl
@[simp] theorem exec_chordTimeout (s : State) : exec .chordTimeout s = execChordTimeout s := rfl
@[simp] theorem exec_frameStart (s : State) : exec .frameStart s = execFrameStart s := rfl
@[simp] theorem exec_displayCommit (crc : Half) (s : State) : exec (.displayCommit crc) s = execDisplayCommit crc s := rfl
@[simp] theorem exec_vlcdUpdate (temp : BitVec 8) (cellMv : Nat) (s : State) : exec (.vlcdUpdate temp cellMv) s = execVlcdUpdate temp cellMv s := rfl
@[simp] theorem exec_leakSample (wet : Bool) (s : State) : exec (.leakSample wet) s = execLeakSample wet s := rfl
@[simp] theorem exec_leakShut (s : State) : exec .leakShut s = execLeakShut s := rfl
@[simp] theorem exec_outletTempSample (temp : BitVec 8) (s : State) : exec (.outletTempSample temp) s = execOutletTempSample temp s := rfl
@[simp] theorem exec_lidOpen (s : State) : exec .lidOpen s = execLidOpen s := rfl
@[simp] theorem exec_cellMeasure (mv : Nat) (s : State) : exec (.cellMeasure mv) s = execCellMeasure mv s := rfl
@[simp] theorem exec_alarmAck (by_ : AckBy) (s : State) : exec (.alarmAck by_) s = execAlarmAck by_ s := rfl
@[simp] theorem exec_ringCopy (s : State) : exec .ringCopy s = execRingCopy s := rfl
@[simp] theorem exec_ringClear (s : State) : exec .ringClear s = execRingClear s := rfl
@[simp] theorem exec_calcDigit (d : Fin 10) (s : State) : exec (.calcDigit d) s = execCalcDigit d s := rfl
@[simp] theorem exec_calcPoint (s : State) : exec .calcPoint s = execCalcPoint s := rfl
@[simp] theorem exec_calcAdd (s : State) : exec .calcAdd s = execCalcAdd s := rfl
@[simp] theorem exec_calcSubtract (s : State) : exec .calcSubtract s = execCalcSubtract s := rfl
@[simp] theorem exec_calcMultiply (s : State) : exec .calcMultiply s = execCalcMultiply s := rfl
@[simp] theorem exec_calcDivide (s : State) : exec .calcDivide s = execCalcDivide s := rfl
@[simp] theorem exec_calcEquals (s : State) : exec .calcEquals s = execCalcEquals s := rfl
@[simp] theorem exec_calcPercent (s : State) : exec .calcPercent s = execCalcPercent s := rfl
@[simp] theorem exec_calcSqrt (s : State) : exec .calcSqrt s = execCalcSqrt s := rfl
@[simp] theorem exec_calcSquare (s : State) : exec .calcSquare s = execCalcSquare s := rfl
@[simp] theorem exec_calcReciprocal (s : State) : exec .calcReciprocal s = execCalcReciprocal s := rfl
@[simp] theorem exec_calcSign (s : State) : exec .calcSign s = execCalcSign s := rfl
@[simp] theorem exec_calcDelete (s : State) : exec .calcDelete s = execCalcDelete s := rfl
@[simp] theorem exec_calcC (s : State) : exec .calcC s = execCalcC s := rfl
@[simp] theorem exec_calcAc (s : State) : exec .calcAc s = execCalcAc s := rfl
@[simp] theorem exec_calcMc (s : State) : exec .calcMc s = execCalcMc s := rfl
@[simp] theorem exec_calcMr (s : State) : exec .calcMr s = execCalcMr s := rfl
@[simp] theorem exec_calcMPlus (s : State) : exec .calcMPlus s = execCalcMPlus s := rfl
@[simp] theorem exec_calcMMinus (s : State) : exec .calcMMinus s = execCalcMMinus s := rfl
@[simp] theorem exec_menu (k : MenuKey) (s : State) : exec (.menu k) s = execMenu k s := rfl
@[simp] theorem exec_pinEntry (digits : List (Fin 10)) (s : State) : exec (.pinEntry digits) s = execPinEntry digits s := rfl
@[simp] theorem exec_pinSessionTimeout (s : State) : exec .pinSessionTimeout s = execPinSessionTimeout s := rfl
@[simp] theorem exec_pinLockoutEnd (s : State) : exec .pinLockoutEnd s = execPinLockoutEnd s := rfl
@[simp] theorem exec_pinChange (digits : List (Fin 10)) (s : State) : exec (.pinChange digits) s = execPinChange digits s := rfl
@[simp] theorem exec_acknowledgeAllAlarms (s : State) : exec .acknowledgeAllAlarms s = execAcknowledgeAllAlarms s := rfl
@[simp] theorem exec_ringCopyNow (s : State) : exec .ringCopyNow s = execRingCopyNow s := rfl
@[simp] theorem exec_smbStatus (pec : Pec) (s : State) : exec (.smbStatus pec) s = execSmbStatus pec s := rfl
@[simp] theorem exec_smbBootStat (pec : Pec) (s : State) : exec (.smbBootStat pec) s = execSmbBootStat pec s := rfl
@[simp] theorem exec_smbRtcRead (pec : Pec) (s : State) : exec (.smbRtcRead pec) s = execSmbRtcRead pec s := rfl
@[simp] theorem exec_rtcWrite (smbus : Bool) (pec : Pec) (secs : Word) (s : State) : exec (.rtcWrite smbus pec secs) s = execRtcWrite smbus pec secs s := rfl
@[simp] theorem exec_smbRegAddr (pec : Pec) (a : Word) (s : State) : exec (.smbRegAddr pec a) s = execSmbRegAddr pec a s := rfl
@[simp] theorem exec_smbRegRead (pec : Pec) (s : State) : exec (.smbRegRead pec) s = execSmbRegRead pec s := rfl
@[simp] theorem exec_smbRegWrite (pec : Pec) (v : DWord) (s : State) : exec (.smbRegWrite pec v) s = execSmbRegWrite pec v s := rfl
@[simp] theorem exec_smbRegResult (pec : Pec) (s : State) : exec (.smbRegResult pec) s = execSmbRegResult pec s := rfl
@[simp] theorem exec_smbRingSel (pec : Pec) (n : Byte) (s : State) : exec (.smbRingSel pec n) s = execSmbRingSel pec n s := rfl
@[simp] theorem exec_smbRingRead (pec : Pec) (s : State) : exec (.smbRingRead pec) s = execSmbRingRead pec s := rfl
@[simp] theorem exec_smbImgData (pec : Pec) (off : Word) (data : List Byte) (s : State) : exec (.smbImgData pec off data) s = execSmbImgData pec off data s := rfl
@[simp] theorem exec_smbImgEnd (pec : Pec) (s : State) : exec (.smbImgEnd pec) s = execSmbImgEnd pec s := rfl
@[simp] theorem exec_smbImgStat (pec : Pec) (s : State) : exec (.smbImgStat pec) s = execSmbImgStat pec s := rfl
@[simp] theorem exec_alertResponse (s : State) : exec .alertResponse s = execAlertResponse s := rfl
@[simp] theorem exec_relayRead (s : State) : exec .relayRead s = execRelayRead s := rfl
@[simp] theorem exec_relayWrite (s : State) : exec .relayWrite s = execRelayWrite s := rfl
@[simp] theorem exec_relayComplete (s : State) : exec .relayComplete s = execRelayComplete s := rfl
@[simp] theorem exec_flProgram (key : Half) (s : State) : exec (.flProgram key) s = execFlProgram key s := rfl
@[simp] theorem exec_flErase (key : Half) (s : State) : exec (.flErase key) s = execFlErase key s := rfl
@[simp] theorem exec_flOptProgram (key : Half) (s : State) : exec (.flOptProgram key) s = execFlOptProgram key s := rfl
@[simp] theorem exec_flOptErase (key : Half) (s : State) : exec (.flOptErase key) s = execFlOptErase key s := rfl
@[simp] theorem exec_flUnlock (s : State) : exec .flUnlock s = execFlUnlock s := rfl
@[simp] theorem exec_flLock (s : State) : exec .flLock s = execFlLock s := rfl
@[simp] theorem exec_flOptLoad (s : State) : exec .flOptLoad s = execFlOptLoad s := rfl
@[simp] theorem exec_flSuspend (s : State) : exec .flSuspend s = execFlSuspend s := rfl
@[simp] theorem exec_flResume (s : State) : exec .flResume s = execFlResume s := rfl
@[simp] theorem exec_flashPulseComplete (s : State) : exec .flashPulseComplete s = execFlashPulseComplete s := rfl
@[simp] theorem exec_flashOperationComplete (s : State) : exec .flashOperationComplete s = execFlashOperationComplete s := rfl
@[simp] theorem exec_flashWindowReadStall (addr : BitVec 16) (s : State) : exec (.flashWindowReadStall addr) s = execFlashWindowReadStall addr s := rfl
@[simp] theorem exec_wpClear (hi : Bool) (v : DWord) (fromRom : Bool) (s : State) : exec (.wpClear hi v fromRom) s = execWpClear hi v fromRom s := rfl
@[simp] theorem exec_sloeStart (s : State) : exec .sloeStart s = execSloeStart s := rfl
@[simp] theorem exec_linkUp (p : Port) (flit cxl : Bool) (rate : BitVec 3) (width : BitVec 5) (s : State) : exec (.linkUp p flit cxl rate width) s = execLinkUp p flit cxl rate width s := rfl
@[simp] theorem exec_busMasterEnable (p : Port) (on : Bool) (s : State) : exec (.busMasterEnable p on) s = execBusMasterEnable p on s := rfl
@[simp] theorem exec_hdmDecoderCommit (p : Port) (s : State) : exec (.hdmDecoderCommit p) s = execHdmDecoderCommit p s := rfl
@[simp] theorem exec_passEnd (f : FieldNo) (s : State) : exec (.passEnd f) s = execPassEnd f s := rfl
@[simp] theorem exec_domainRampDone (d : Domain) (s : State) : exec (.domainRampDone d) s = execDomainRampDone d s := rfl

end Sys2Proof.Machine
end

