-- ==== Sys2Proof/Laws/Tab.lean ====
section
/-! SUPPORT. What a sparse table reads as after an update, and that every update keeps the canonical form. -/

namespace Sys2Proof.Machine

variable {α : Type}

theorem Tab.get_insert_same (d : Nat → α) (m : Tab α) (k : Nat) (v : α) : Tab.get d (Tab.insert m k v) k = v := by
  induction m with
  | nil => simp [Tab.insert, Tab.get]
  | cons x m ih =>
    obtain ⟨k', v'⟩ := x
    simp only [Tab.insert]
    split
    · have : ¬k' = k := by omega
      simp [Tab.get, this, ih]
    · split <;> simp [Tab.get]

theorem Tab.get_insert_ne (d : Nat → α) (m : Tab α) {k j : Nat} (v : α) (h : j ≠ k) :
    Tab.get d (Tab.insert m k v) j = Tab.get d m j := by
  induction m with
  | nil => simp [Tab.insert, Tab.get, Ne.symm h]
  | cons x m ih =>
    obtain ⟨k', v'⟩ := x
    simp only [Tab.insert]
    split
    · simp [Tab.get, ih]
    · split
      · rename_i h1 h2
        subst h2
        simp [Tab.get, Ne.symm h]
      · simp [Tab.get, Ne.symm h]

theorem Tab.get_erase_same (d : Nat → α) (m : Tab α) (k : Nat) : Tab.get d (Tab.erase m k) k = d k := by
  induction m with
  | nil => rfl
  | cons x m ih =>
    obtain ⟨k', v'⟩ := x
    simp only [Tab.erase]
    split
    · exact ih
    · rename_i h
      simp [Tab.get, h, ih]

theorem Tab.get_erase_ne (d : Nat → α) (m : Tab α) {k j : Nat} (h : j ≠ k) :
    Tab.get d (Tab.erase m k) j = Tab.get d m j := by
  induction m with
  | nil => rfl
  | cons x m ih =>
    obtain ⟨k', v'⟩ := x
    simp only [Tab.erase]
    split
    · rename_i h2
      subst h2
      simp [Tab.get, Ne.symm h, ih]
    · simp [Tab.get, ih]

/-- A read of the key just set gives the value set. -/
@[simp] theorem Tab.get_set_same [DecidableEq α] (d : Nat → α) (m : Tab α) (k : Nat) (v : α) :
    Tab.get d (Tab.set d m k v) k = v := by
  unfold Tab.set
  split
  · rename_i h
    rw [Tab.get_erase_same, h]
  · exact Tab.get_insert_same d m k v

/-- A read of another key gives what it gave. -/
theorem Tab.get_set_ne [DecidableEq α] (d : Nat → α) (m : Tab α) {k j : Nat} (v : α) (h : j ≠ k) :
    Tab.get d (Tab.set d m k v) j = Tab.get d m j := by
  unfold Tab.set
  split
  · exact Tab.get_erase_ne d m h
  · exact Tab.get_insert_ne d m v h

/-- A read after an update. -/
theorem Tab.get_set [DecidableEq α] (d : Nat → α) (m : Tab α) (k j : Nat) (v : α) :
    Tab.get d (Tab.set d m k v) j = if j = k then v else Tab.get d m j := by
  by_cases h : j = k
  · subst h; simp
  · simp [h, Tab.get_set_ne]

/-! ### The canonical form -/

theorem Tab.above_mono {b c : Nat} (m : Tab α) (h : c ≤ b) (hm : Tab.above b m = true) : Tab.above c m = true := by
  cases m with
  | nil => rfl
  | cons x m => simp only [Tab.above, decide_eq_true_eq] at *; omega

theorem Tab.above_insert {b : Nat} (m : Tab α) (k : Nat) (v : α) (hb : b < k) (hm : Tab.above b m = true) :
    Tab.above b (Tab.insert m k v) = true := by
  cases m with
  | nil => simpa [Tab.insert, Tab.above] using hb
  | cons x m =>
    obtain ⟨k', v'⟩ := x
    simp only [Tab.insert]
    split
    · exact hm
    · split <;> simpa [Tab.above] using hb

theorem Tab.wf_insert [DecidableEq α] (d : Nat → α) (m : Tab α) (k : Nat) (v : α) (hv : v ≠ d k) (hm : Tab.wf d m = true) :
    Tab.wf d (Tab.insert m k v) = true := by
  induction m with
  | nil => simp [Tab.insert, Tab.wf, Tab.above, hv]
  | cons x m ih =>
    obtain ⟨k', v'⟩ := x
    simp only [Tab.wf, Bool.and_eq_true, decide_eq_true_eq] at hm
    simp only [Tab.insert]
    split
    · rename_i h
      simp only [Tab.wf, Bool.and_eq_true, decide_eq_true_eq]
      exact ⟨⟨hm.1.1, Tab.above_insert m k v h hm.1.2⟩, ih hm.2⟩
    · split
      · rename_i h
        subst h
        simp only [Tab.wf, Bool.and_eq_true, decide_eq_true_eq]
        exact ⟨⟨hv, hm.1.2⟩, hm.2⟩
      · simp only [Tab.wf, Tab.above, Bool.and_eq_true, decide_eq_true_eq]
        refine ⟨⟨hv, ?_⟩, hm⟩
        omega

theorem Tab.above_erase (d : Nat → α) [DecidableEq α] {b : Nat} (m : Tab α) (k : Nat) (hw : Tab.wf d m = true)
    (hm : Tab.above b m = true) : Tab.above b (Tab.erase m k) = true := by
  induction m with
  | nil => rfl
  | cons x m ih =>
    obtain ⟨k', v'⟩ := x
    simp only [Tab.wf, Bool.and_eq_true, decide_eq_true_eq] at hw
    simp only [Tab.above, decide_eq_true_eq] at hm
    simp only [Tab.erase]
    split
    · exact ih hw.2 (Tab.above_mono m (by omega) hw.1.2)
    · simpa [Tab.above] using hm

theorem Tab.wf_erase [DecidableEq α] (d : Nat → α) (m : Tab α) (k : Nat) (hm : Tab.wf d m = true) :
    Tab.wf d (Tab.erase m k) = true := by
  induction m with
  | nil => rfl
  | cons x m ih =>
    obtain ⟨k', v'⟩ := x
    have hm' := hm
    simp only [Tab.wf, Bool.and_eq_true, decide_eq_true_eq] at hm
    simp only [Tab.erase]
    split
    · exact ih hm.2
    · simp only [Tab.wf, Bool.and_eq_true, decide_eq_true_eq]
      exact ⟨⟨hm.1.1, Tab.above_erase d m k hm.2 hm.1.2⟩, ih hm.2⟩

/-- Setting a key keeps the canonical form. -/
theorem Tab.wf_set [DecidableEq α] (d : Nat → α) (m : Tab α) (k : Nat) (v : α) (hm : Tab.wf d m = true) :
    Tab.wf d (Tab.set d m k v) = true := by
  unfold Tab.set
  split
  · exact Tab.wf_erase d m k hm
  · rename_i h
    exact Tab.wf_insert d m k v h hm

/-- A store of a number keeps the canonical form. -/
theorem Tab.wf_writeLE (d : Nat → Byte) (n : Nat) : ∀ (m : Tab Byte) (a v : Nat), Tab.wf d m = true → Tab.wf d (Tab.writeLE d m a n v) = true := by
  induction n with
  | zero => intro m a v h; exact h
  | succ n ih => intro m a v h; exact ih _ _ _ (Tab.wf_set d m a _ h)

/-- A store of bytes keeps the canonical form. -/
theorem Tab.wf_writeBytes (d : Nat → Byte) (bs : List Byte) : ∀ (m : Tab Byte) (a : Nat), Tab.wf d m = true → Tab.wf d (Tab.writeBytes d m a bs) = true := by
  induction bs with
  | nil => intro m a h; exact h
  | cons b bs ih => intro m a h; exact ih _ _ (Tab.wf_set d m a b h)

/-! ### Bytes -/

/-- A byte outside a stored number reads as before. -/
theorem Tab.get_writeLE_out (d : Nat → Byte) (n : Nat) : ∀ (m : Tab Byte) (a v j : Nat), (j < a ∨ a + n ≤ j) →
    Tab.get d (Tab.writeLE d m a n v) j = Tab.get d m j := by
  induction n with
  | zero => intro m a v j h; rfl
  | succ n ih =>
    intro m a v j h
    simp only [Tab.writeLE]
    rw [ih _ _ _ _ (by omega), Tab.get_set_ne]
    omega

/-- A byte of a stored number. -/
theorem Tab.get_writeLE_in (d : Nat → Byte) (n : Nat) : ∀ (m : Tab Byte) (a v i : Nat), i < n →
    Tab.get d (Tab.writeLE d m a n v) (a + i) = BitVec.ofNat 8 (v / 256 ^ i) := by
  induction n with
  | zero => intro m a v i h; omega
  | succ n ih =>
    intro m a v i h
    simp only [Tab.writeLE]
    cases i with
    | zero =>
      rw [Tab.get_writeLE_out _ _ _ _ _ _ (by omega)]
      simp
    | succ i =>
      have h1 : a + (i + 1) = a + 1 + i := by omega
      rw [h1, ih _ _ _ _ (by omega), Nat.pow_succ', Nat.div_div_eq_div_mul]

/-- A byte outside stored bytes reads as before. -/
theorem Tab.get_writeBytes_out (d : Nat → Byte) (bs : List Byte) : ∀ (m : Tab Byte) (a j : Nat), (j < a ∨ a + bs.length ≤ j) →
    Tab.get d (Tab.writeBytes d m a bs) j = Tab.get d m j := by
  induction bs with
  | nil => intro m a j h; rfl
  | cons b bs ih =>
    intro m a j h
    simp only [List.length_cons] at h
    simp only [Tab.writeBytes]
    rw [ih _ _ _ (by omega), Tab.get_set_ne]
    omega

/-- What was stored reads back. -/
theorem Tab.readLE_writeLE (d : Nat → Byte) (n : Nat) : ∀ (m : Tab Byte) (a v : Nat),
    Tab.readLE d (Tab.writeLE d m a n v) a n = v % 256 ^ n := by
  induction n with
  | zero => intro m a v; simp [Tab.readLE, Nat.mod_one]
  | succ n ih =>
    intro m a v
    simp only [Tab.readLE, Tab.writeLE]
    rw [ih, Tab.get_writeLE_out _ _ _ _ _ _ (by omega)]
    rw [Tab.get_set_same, BitVec.toNat_ofNat]
    change v % 256 + 256 * (v / 256 % 256 ^ n) = v % (256 ^ n * 256)
    rw [Nat.mul_comm (256 ^ n) 256, Nat.mod_mul]

end Sys2Proof.Machine
end

