-- ==== Sys2Proof/Laws/State.lean ====
section
/-! SUPPORT. What each field of State is after each named update, and what a register, tile, field or port reads as after one. -/

namespace Sys2Proof.Machine

open Sys2Proof

@[simp] theorem State.setReg_now (s : State) (r : Reg) (i j src v : Nat) : (s.setReg r i j src v).now = s.now := rfl
@[simp] theorem State.setReg_freeCtr (s : State) (r : Reg) (i j src v : Nat) : (s.setReg r i j src v).freeCtr = s.freeCtr := rfl
@[simp] theorem State.setReg_bus (s : State) (r : Reg) (i j src v : Nat) : (s.setReg r i j src v).bus = s.bus := rfl
@[simp] theorem State.setReg_hbm (s : State) (r : Reg) (i j src v : Nat) : (s.setReg r i j src v).hbm = s.hbm := rfl
@[simp] theorem State.setReg_tiles (s : State) (r : Reg) (i j src v : Nat) : (s.setReg r i j src v).tiles = s.tiles := rfl
@[simp] theorem State.setReg_fields (s : State) (r : Reg) (i j src v : Nat) : (s.setReg r i j src v).fields = s.fields := rfl
@[simp] theorem State.setReg_hub (s : State) (r : Reg) (i j src v : Nat) : (s.setReg r i j src v).hub = s.hub := rfl
@[simp] theorem State.setReg_ports (s : State) (r : Reg) (i j src v : Nat) : (s.setReg r i j src v).ports = s.ports := rfl
@[simp] theorem State.setReg_mesh (s : State) (r : Reg) (i j src v : Nat) : (s.setReg r i j src v).mesh = s.mesh := rfl
@[simp] theorem State.setReg_links (s : State) (r : Reg) (i j src v : Nat) : (s.setReg r i j src v).links = s.links := rfl
@[simp] theorem State.setReg_ras (s : State) (r : Reg) (i j src v : Nat) : (s.setReg r i j src v).ras = s.ras := rfl
@[simp] theorem State.setReg_pwr (s : State) (r : Reg) (i j src v : Nat) : (s.setReg r i j src v).pwr = s.pwr := rfl
@[simp] theorem State.setReg_sec (s : State) (r : Reg) (i j src v : Nat) : (s.setReg r i j src v).sec = s.sec := rfl
@[simp] theorem State.setReg_sloe (s : State) (r : Reg) (i j src v : Nat) : (s.setReg r i j src v).sloe = s.sloe := rfl
@[simp] theorem State.setReg_hostOut (s : State) (r : Reg) (i j src v : Nat) : (s.setReg r i j src v).hostOut = s.hostOut := rfl
@[simp] theorem State.setReg_msix (s : State) (r : Reg) (i j src v : Nat) : (s.setReg r i j src v).msix = s.msix := rfl
@[simp] theorem State.setReg_hostAns (s : State) (r : Reg) (i j src v : Nat) : (s.setReg r i j src v).hostAns = s.hostAns := rfl
@[simp] theorem State.setReg_hostGet (s : State) (r : Reg) (i j src v : Nat) : (s.setReg r i j src v).hostGet = s.hostGet := rfl
@[simp] theorem State.setReg_pending (s : State) (r : Reg) (i j src v : Nat) : (s.setReg r i j src v).pending = s.pending := rfl

@[simp] theorem State.setF_now (s : State) (fl : Fld) (v i j src : Nat) : (s.setF fl v i j src).now = s.now := rfl
@[simp] theorem State.setF_freeCtr (s : State) (fl : Fld) (v i j src : Nat) : (s.setF fl v i j src).freeCtr = s.freeCtr := rfl
@[simp] theorem State.setF_bus (s : State) (fl : Fld) (v i j src : Nat) : (s.setF fl v i j src).bus = s.bus := rfl
@[simp] theorem State.setF_hbm (s : State) (fl : Fld) (v i j src : Nat) : (s.setF fl v i j src).hbm = s.hbm := rfl
@[simp] theorem State.setF_tiles (s : State) (fl : Fld) (v i j src : Nat) : (s.setF fl v i j src).tiles = s.tiles := rfl
@[simp] theorem State.setF_fields (s : State) (fl : Fld) (v i j src : Nat) : (s.setF fl v i j src).fields = s.fields := rfl
@[simp] theorem State.setF_hub (s : State) (fl : Fld) (v i j src : Nat) : (s.setF fl v i j src).hub = s.hub := rfl
@[simp] theorem State.setF_ports (s : State) (fl : Fld) (v i j src : Nat) : (s.setF fl v i j src).ports = s.ports := rfl
@[simp] theorem State.setF_mesh (s : State) (fl : Fld) (v i j src : Nat) : (s.setF fl v i j src).mesh = s.mesh := rfl
@[simp] theorem State.setF_links (s : State) (fl : Fld) (v i j src : Nat) : (s.setF fl v i j src).links = s.links := rfl
@[simp] theorem State.setF_ras (s : State) (fl : Fld) (v i j src : Nat) : (s.setF fl v i j src).ras = s.ras := rfl
@[simp] theorem State.setF_pwr (s : State) (fl : Fld) (v i j src : Nat) : (s.setF fl v i j src).pwr = s.pwr := rfl
@[simp] theorem State.setF_sec (s : State) (fl : Fld) (v i j src : Nat) : (s.setF fl v i j src).sec = s.sec := rfl
@[simp] theorem State.setF_sloe (s : State) (fl : Fld) (v i j src : Nat) : (s.setF fl v i j src).sloe = s.sloe := rfl
@[simp] theorem State.setF_hostOut (s : State) (fl : Fld) (v i j src : Nat) : (s.setF fl v i j src).hostOut = s.hostOut := rfl
@[simp] theorem State.setF_msix (s : State) (fl : Fld) (v i j src : Nat) : (s.setF fl v i j src).msix = s.msix := rfl
@[simp] theorem State.setF_hostAns (s : State) (fl : Fld) (v i j src : Nat) : (s.setF fl v i j src).hostAns = s.hostAns := rfl
@[simp] theorem State.setF_hostGet (s : State) (fl : Fld) (v i j src : Nat) : (s.setF fl v i j src).hostGet = s.hostGet := rfl
@[simp] theorem State.setF_pending (s : State) (fl : Fld) (v i j src : Nat) : (s.setF fl v i j src).pending = s.pending := rfl

@[simp] theorem State.countF_now (s : State) (fl : Fld) (n i j src : Nat) : (s.countF fl n i j src).now = s.now := rfl
@[simp] theorem State.countF_freeCtr (s : State) (fl : Fld) (n i j src : Nat) : (s.countF fl n i j src).freeCtr = s.freeCtr := rfl
@[simp] theorem State.countF_bus (s : State) (fl : Fld) (n i j src : Nat) : (s.countF fl n i j src).bus = s.bus := rfl
@[simp] theorem State.countF_hbm (s : State) (fl : Fld) (n i j src : Nat) : (s.countF fl n i j src).hbm = s.hbm := rfl
@[simp] theorem State.countF_tiles (s : State) (fl : Fld) (n i j src : Nat) : (s.countF fl n i j src).tiles = s.tiles := rfl
@[simp] theorem State.countF_fields (s : State) (fl : Fld) (n i j src : Nat) : (s.countF fl n i j src).fields = s.fields := rfl
@[simp] theorem State.countF_hub (s : State) (fl : Fld) (n i j src : Nat) : (s.countF fl n i j src).hub = s.hub := rfl
@[simp] theorem State.countF_ports (s : State) (fl : Fld) (n i j src : Nat) : (s.countF fl n i j src).ports = s.ports := rfl
@[simp] theorem State.countF_mesh (s : State) (fl : Fld) (n i j src : Nat) : (s.countF fl n i j src).mesh = s.mesh := rfl
@[simp] theorem State.countF_links (s : State) (fl : Fld) (n i j src : Nat) : (s.countF fl n i j src).links = s.links := rfl
@[simp] theorem State.countF_ras (s : State) (fl : Fld) (n i j src : Nat) : (s.countF fl n i j src).ras = s.ras := rfl
@[simp] theorem State.countF_pwr (s : State) (fl : Fld) (n i j src : Nat) : (s.countF fl n i j src).pwr = s.pwr := rfl
@[simp] theorem State.countF_sec (s : State) (fl : Fld) (n i j src : Nat) : (s.countF fl n i j src).sec = s.sec := rfl
@[simp] theorem State.countF_sloe (s : State) (fl : Fld) (n i j src : Nat) : (s.countF fl n i j src).sloe = s.sloe := rfl
@[simp] theorem State.countF_hostOut (s : State) (fl : Fld) (n i j src : Nat) : (s.countF fl n i j src).hostOut = s.hostOut := rfl
@[simp] theorem State.countF_msix (s : State) (fl : Fld) (n i j src : Nat) : (s.countF fl n i j src).msix = s.msix := rfl
@[simp] theorem State.countF_hostAns (s : State) (fl : Fld) (n i j src : Nat) : (s.countF fl n i j src).hostAns = s.hostAns := rfl
@[simp] theorem State.countF_hostGet (s : State) (fl : Fld) (n i j src : Nat) : (s.countF fl n i j src).hostGet = s.hostGet := rfl
@[simp] theorem State.countF_pending (s : State) (fl : Fld) (n i j src : Nat) : (s.countF fl n i j src).pending = s.pending := rfl

@[simp] theorem State.setTile_now (s : State) (f t : Nat) (c : Tile) : (s.setTile f t c).now = s.now := rfl
@[simp] theorem State.setTile_freeCtr (s : State) (f t : Nat) (c : Tile) : (s.setTile f t c).freeCtr = s.freeCtr := rfl
@[simp] theorem State.setTile_bus (s : State) (f t : Nat) (c : Tile) : (s.setTile f t c).bus = s.bus := rfl
@[simp] theorem State.setTile_regs (s : State) (f t : Nat) (c : Tile) : (s.setTile f t c).regs = s.regs := rfl
@[simp] theorem State.setTile_hbm (s : State) (f t : Nat) (c : Tile) : (s.setTile f t c).hbm = s.hbm := rfl
@[simp] theorem State.setTile_fields (s : State) (f t : Nat) (c : Tile) : (s.setTile f t c).fields = s.fields := rfl
@[simp] theorem State.setTile_hub (s : State) (f t : Nat) (c : Tile) : (s.setTile f t c).hub = s.hub := rfl
@[simp] theorem State.setTile_ports (s : State) (f t : Nat) (c : Tile) : (s.setTile f t c).ports = s.ports := rfl
@[simp] theorem State.setTile_mesh (s : State) (f t : Nat) (c : Tile) : (s.setTile f t c).mesh = s.mesh := rfl
@[simp] theorem State.setTile_links (s : State) (f t : Nat) (c : Tile) : (s.setTile f t c).links = s.links := rfl
@[simp] theorem State.setTile_ras (s : State) (f t : Nat) (c : Tile) : (s.setTile f t c).ras = s.ras := rfl
@[simp] theorem State.setTile_pwr (s : State) (f t : Nat) (c : Tile) : (s.setTile f t c).pwr = s.pwr := rfl
@[simp] theorem State.setTile_sec (s : State) (f t : Nat) (c : Tile) : (s.setTile f t c).sec = s.sec := rfl
@[simp] theorem State.setTile_sloe (s : State) (f t : Nat) (c : Tile) : (s.setTile f t c).sloe = s.sloe := rfl
@[simp] theorem State.setTile_hostOut (s : State) (f t : Nat) (c : Tile) : (s.setTile f t c).hostOut = s.hostOut := rfl
@[simp] theorem State.setTile_msix (s : State) (f t : Nat) (c : Tile) : (s.setTile f t c).msix = s.msix := rfl
@[simp] theorem State.setTile_hostAns (s : State) (f t : Nat) (c : Tile) : (s.setTile f t c).hostAns = s.hostAns := rfl
@[simp] theorem State.setTile_hostGet (s : State) (f t : Nat) (c : Tile) : (s.setTile f t c).hostGet = s.hostGet := rfl
@[simp] theorem State.setTile_pending (s : State) (f t : Nat) (c : Tile) : (s.setTile f t c).pending = s.pending := rfl

@[simp] theorem State.setField_now (s : State) (f : Nat) (x : Field) : (s.setField f x).now = s.now := rfl
@[simp] theorem State.setField_freeCtr (s : State) (f : Nat) (x : Field) : (s.setField f x).freeCtr = s.freeCtr := rfl
@[simp] theorem State.setField_bus (s : State) (f : Nat) (x : Field) : (s.setField f x).bus = s.bus := rfl
@[simp] theorem State.setField_regs (s : State) (f : Nat) (x : Field) : (s.setField f x).regs = s.regs := rfl
@[simp] theorem State.setField_hbm (s : State) (f : Nat) (x : Field) : (s.setField f x).hbm = s.hbm := rfl
@[simp] theorem State.setField_tiles (s : State) (f : Nat) (x : Field) : (s.setField f x).tiles = s.tiles := rfl
@[simp] theorem State.setField_hub (s : State) (f : Nat) (x : Field) : (s.setField f x).hub = s.hub := rfl
@[simp] theorem State.setField_ports (s : State) (f : Nat) (x : Field) : (s.setField f x).ports = s.ports := rfl
@[simp] theorem State.setField_mesh (s : State) (f : Nat) (x : Field) : (s.setField f x).mesh = s.mesh := rfl
@[simp] theorem State.setField_links (s : State) (f : Nat) (x : Field) : (s.setField f x).links = s.links := rfl
@[simp] theorem State.setField_ras (s : State) (f : Nat) (x : Field) : (s.setField f x).ras = s.ras := rfl
@[simp] theorem State.setField_pwr (s : State) (f : Nat) (x : Field) : (s.setField f x).pwr = s.pwr := rfl
@[simp] theorem State.setField_sec (s : State) (f : Nat) (x : Field) : (s.setField f x).sec = s.sec := rfl
@[simp] theorem State.setField_sloe (s : State) (f : Nat) (x : Field) : (s.setField f x).sloe = s.sloe := rfl
@[simp] theorem State.setField_hostOut (s : State) (f : Nat) (x : Field) : (s.setField f x).hostOut = s.hostOut := rfl
@[simp] theorem State.setField_msix (s : State) (f : Nat) (x : Field) : (s.setField f x).msix = s.msix := rfl
@[simp] theorem State.setField_hostAns (s : State) (f : Nat) (x : Field) : (s.setField f x).hostAns = s.hostAns := rfl
@[simp] theorem State.setField_hostGet (s : State) (f : Nat) (x : Field) : (s.setField f x).hostGet = s.hostGet := rfl
@[simp] theorem State.setField_pending (s : State) (f : Nat) (x : Field) : (s.setField f x).pending = s.pending := rfl

@[simp] theorem State.setSeq_now (s : State) (f : Nat) (q : Seq) : (s.setSeq f q).now = s.now := rfl
@[simp] theorem State.setSeq_freeCtr (s : State) (f : Nat) (q : Seq) : (s.setSeq f q).freeCtr = s.freeCtr := rfl
@[simp] theorem State.setSeq_bus (s : State) (f : Nat) (q : Seq) : (s.setSeq f q).bus = s.bus := rfl
@[simp] theorem State.setSeq_regs (s : State) (f : Nat) (q : Seq) : (s.setSeq f q).regs = s.regs := rfl
@[simp] theorem State.setSeq_hbm (s : State) (f : Nat) (q : Seq) : (s.setSeq f q).hbm = s.hbm := rfl
@[simp] theorem State.setSeq_tiles (s : State) (f : Nat) (q : Seq) : (s.setSeq f q).tiles = s.tiles := rfl
@[simp] theorem State.setSeq_hub (s : State) (f : Nat) (q : Seq) : (s.setSeq f q).hub = s.hub := rfl
@[simp] theorem State.setSeq_ports (s : State) (f : Nat) (q : Seq) : (s.setSeq f q).ports = s.ports := rfl
@[simp] theorem State.setSeq_mesh (s : State) (f : Nat) (q : Seq) : (s.setSeq f q).mesh = s.mesh := rfl
@[simp] theorem State.setSeq_links (s : State) (f : Nat) (q : Seq) : (s.setSeq f q).links = s.links := rfl
@[simp] theorem State.setSeq_ras (s : State) (f : Nat) (q : Seq) : (s.setSeq f q).ras = s.ras := rfl
@[simp] theorem State.setSeq_pwr (s : State) (f : Nat) (q : Seq) : (s.setSeq f q).pwr = s.pwr := rfl
@[simp] theorem State.setSeq_sec (s : State) (f : Nat) (q : Seq) : (s.setSeq f q).sec = s.sec := rfl
@[simp] theorem State.setSeq_sloe (s : State) (f : Nat) (q : Seq) : (s.setSeq f q).sloe = s.sloe := rfl
@[simp] theorem State.setSeq_hostOut (s : State) (f : Nat) (q : Seq) : (s.setSeq f q).hostOut = s.hostOut := rfl
@[simp] theorem State.setSeq_msix (s : State) (f : Nat) (q : Seq) : (s.setSeq f q).msix = s.msix := rfl
@[simp] theorem State.setSeq_hostAns (s : State) (f : Nat) (q : Seq) : (s.setSeq f q).hostAns = s.hostAns := rfl
@[simp] theorem State.setSeq_hostGet (s : State) (f : Nat) (q : Seq) : (s.setSeq f q).hostGet = s.hostGet := rfl
@[simp] theorem State.setSeq_pending (s : State) (f : Nat) (q : Seq) : (s.setSeq f q).pending = s.pending := rfl

@[simp] theorem State.setDense_now (s : State) (f : Nat) (d : Dense) : (s.setDense f d).now = s.now := rfl
@[simp] theorem State.setDense_freeCtr (s : State) (f : Nat) (d : Dense) : (s.setDense f d).freeCtr = s.freeCtr := rfl
@[simp] theorem State.setDense_bus (s : State) (f : Nat) (d : Dense) : (s.setDense f d).bus = s.bus := rfl
@[simp] theorem State.setDense_regs (s : State) (f : Nat) (d : Dense) : (s.setDense f d).regs = s.regs := rfl
@[simp] theorem State.setDense_hbm (s : State) (f : Nat) (d : Dense) : (s.setDense f d).hbm = s.hbm := rfl
@[simp] theorem State.setDense_tiles (s : State) (f : Nat) (d : Dense) : (s.setDense f d).tiles = s.tiles := rfl
@[simp] theorem State.setDense_hub (s : State) (f : Nat) (d : Dense) : (s.setDense f d).hub = s.hub := rfl
@[simp] theorem State.setDense_ports (s : State) (f : Nat) (d : Dense) : (s.setDense f d).ports = s.ports := rfl
@[simp] theorem State.setDense_mesh (s : State) (f : Nat) (d : Dense) : (s.setDense f d).mesh = s.mesh := rfl
@[simp] theorem State.setDense_links (s : State) (f : Nat) (d : Dense) : (s.setDense f d).links = s.links := rfl
@[simp] theorem State.setDense_ras (s : State) (f : Nat) (d : Dense) : (s.setDense f d).ras = s.ras := rfl
@[simp] theorem State.setDense_pwr (s : State) (f : Nat) (d : Dense) : (s.setDense f d).pwr = s.pwr := rfl
@[simp] theorem State.setDense_sec (s : State) (f : Nat) (d : Dense) : (s.setDense f d).sec = s.sec := rfl
@[simp] theorem State.setDense_sloe (s : State) (f : Nat) (d : Dense) : (s.setDense f d).sloe = s.sloe := rfl
@[simp] theorem State.setDense_hostOut (s : State) (f : Nat) (d : Dense) : (s.setDense f d).hostOut = s.hostOut := rfl
@[simp] theorem State.setDense_msix (s : State) (f : Nat) (d : Dense) : (s.setDense f d).msix = s.msix := rfl
@[simp] theorem State.setDense_hostAns (s : State) (f : Nat) (d : Dense) : (s.setDense f d).hostAns = s.hostAns := rfl
@[simp] theorem State.setDense_hostGet (s : State) (f : Nat) (d : Dense) : (s.setDense f d).hostGet = s.hostGet := rfl
@[simp] theorem State.setDense_pending (s : State) (f : Nat) (d : Dense) : (s.setDense f d).pending = s.pending := rfl

@[simp] theorem State.setPort_now (s : State) (p : Nat) (x : PortSt) : (s.setPort p x).now = s.now := rfl
@[simp] theorem State.setPort_freeCtr (s : State) (p : Nat) (x : PortSt) : (s.setPort p x).freeCtr = s.freeCtr := rfl
@[simp] theorem State.setPort_bus (s : State) (p : Nat) (x : PortSt) : (s.setPort p x).bus = s.bus := rfl
@[simp] theorem State.setPort_regs (s : State) (p : Nat) (x : PortSt) : (s.setPort p x).regs = s.regs := rfl
@[simp] theorem State.setPort_hbm (s : State) (p : Nat) (x : PortSt) : (s.setPort p x).hbm = s.hbm := rfl
@[simp] theorem State.setPort_tiles (s : State) (p : Nat) (x : PortSt) : (s.setPort p x).tiles = s.tiles := rfl
@[simp] theorem State.setPort_fields (s : State) (p : Nat) (x : PortSt) : (s.setPort p x).fields = s.fields := rfl
@[simp] theorem State.setPort_hub (s : State) (p : Nat) (x : PortSt) : (s.setPort p x).hub = s.hub := rfl
@[simp] theorem State.setPort_mesh (s : State) (p : Nat) (x : PortSt) : (s.setPort p x).mesh = s.mesh := rfl
@[simp] theorem State.setPort_links (s : State) (p : Nat) (x : PortSt) : (s.setPort p x).links = s.links := rfl
@[simp] theorem State.setPort_ras (s : State) (p : Nat) (x : PortSt) : (s.setPort p x).ras = s.ras := rfl
@[simp] theorem State.setPort_pwr (s : State) (p : Nat) (x : PortSt) : (s.setPort p x).pwr = s.pwr := rfl
@[simp] theorem State.setPort_sec (s : State) (p : Nat) (x : PortSt) : (s.setPort p x).sec = s.sec := rfl
@[simp] theorem State.setPort_sloe (s : State) (p : Nat) (x : PortSt) : (s.setPort p x).sloe = s.sloe := rfl
@[simp] theorem State.setPort_hostOut (s : State) (p : Nat) (x : PortSt) : (s.setPort p x).hostOut = s.hostOut := rfl
@[simp] theorem State.setPort_msix (s : State) (p : Nat) (x : PortSt) : (s.setPort p x).msix = s.msix := rfl
@[simp] theorem State.setPort_hostAns (s : State) (p : Nat) (x : PortSt) : (s.setPort p x).hostAns = s.hostAns := rfl
@[simp] theorem State.setPort_hostGet (s : State) (p : Nat) (x : PortSt) : (s.setPort p x).hostGet = s.hostGet := rfl
@[simp] theorem State.setPort_pending (s : State) (p : Nat) (x : PortSt) : (s.setPort p x).pending = s.pending := rfl

@[simp] theorem State.setTen_now (s : State) (t : Nat) (x : Ten) : (s.setTen t x).now = s.now := rfl
@[simp] theorem State.setTen_freeCtr (s : State) (t : Nat) (x : Ten) : (s.setTen t x).freeCtr = s.freeCtr := rfl
@[simp] theorem State.setTen_bus (s : State) (t : Nat) (x : Ten) : (s.setTen t x).bus = s.bus := rfl
@[simp] theorem State.setTen_regs (s : State) (t : Nat) (x : Ten) : (s.setTen t x).regs = s.regs := rfl
@[simp] theorem State.setTen_hbm (s : State) (t : Nat) (x : Ten) : (s.setTen t x).hbm = s.hbm := rfl
@[simp] theorem State.setTen_tiles (s : State) (t : Nat) (x : Ten) : (s.setTen t x).tiles = s.tiles := rfl
@[simp] theorem State.setTen_fields (s : State) (t : Nat) (x : Ten) : (s.setTen t x).fields = s.fields := rfl
@[simp] theorem State.setTen_ports (s : State) (t : Nat) (x : Ten) : (s.setTen t x).ports = s.ports := rfl
@[simp] theorem State.setTen_mesh (s : State) (t : Nat) (x : Ten) : (s.setTen t x).mesh = s.mesh := rfl
@[simp] theorem State.setTen_links (s : State) (t : Nat) (x : Ten) : (s.setTen t x).links = s.links := rfl
@[simp] theorem State.setTen_ras (s : State) (t : Nat) (x : Ten) : (s.setTen t x).ras = s.ras := rfl
@[simp] theorem State.setTen_pwr (s : State) (t : Nat) (x : Ten) : (s.setTen t x).pwr = s.pwr := rfl
@[simp] theorem State.setTen_sec (s : State) (t : Nat) (x : Ten) : (s.setTen t x).sec = s.sec := rfl
@[simp] theorem State.setTen_sloe (s : State) (t : Nat) (x : Ten) : (s.setTen t x).sloe = s.sloe := rfl
@[simp] theorem State.setTen_hostOut (s : State) (t : Nat) (x : Ten) : (s.setTen t x).hostOut = s.hostOut := rfl
@[simp] theorem State.setTen_msix (s : State) (t : Nat) (x : Ten) : (s.setTen t x).msix = s.msix := rfl
@[simp] theorem State.setTen_hostAns (s : State) (t : Nat) (x : Ten) : (s.setTen t x).hostAns = s.hostAns := rfl
@[simp] theorem State.setTen_hostGet (s : State) (t : Nat) (x : Ten) : (s.setTen t x).hostGet = s.hostGet := rfl
@[simp] theorem State.setTen_pending (s : State) (t : Nat) (x : Ten) : (s.setTen t x).pending = s.pending := rfl

@[simp] theorem State.setTbl_now (s : State) (t n : Nat) (x : Tbl) : (s.setTbl t n x).now = s.now := rfl
@[simp] theorem State.setTbl_freeCtr (s : State) (t n : Nat) (x : Tbl) : (s.setTbl t n x).freeCtr = s.freeCtr := rfl
@[simp] theorem State.setTbl_bus (s : State) (t n : Nat) (x : Tbl) : (s.setTbl t n x).bus = s.bus := rfl
@[simp] theorem State.setTbl_regs (s : State) (t n : Nat) (x : Tbl) : (s.setTbl t n x).regs = s.regs := rfl
@[simp] theorem State.setTbl_hbm (s : State) (t n : Nat) (x : Tbl) : (s.setTbl t n x).hbm = s.hbm := rfl
@[simp] theorem State.setTbl_tiles (s : State) (t n : Nat) (x : Tbl) : (s.setTbl t n x).tiles = s.tiles := rfl
@[simp] theorem State.setTbl_fields (s : State) (t n : Nat) (x : Tbl) : (s.setTbl t n x).fields = s.fields := rfl
@[simp] theorem State.setTbl_ports (s : State) (t n : Nat) (x : Tbl) : (s.setTbl t n x).ports = s.ports := rfl
@[simp] theorem State.setTbl_mesh (s : State) (t n : Nat) (x : Tbl) : (s.setTbl t n x).mesh = s.mesh := rfl
@[simp] theorem State.setTbl_links (s : State) (t n : Nat) (x : Tbl) : (s.setTbl t n x).links = s.links := rfl
@[simp] theorem State.setTbl_ras (s : State) (t n : Nat) (x : Tbl) : (s.setTbl t n x).ras = s.ras := rfl
@[simp] theorem State.setTbl_pwr (s : State) (t n : Nat) (x : Tbl) : (s.setTbl t n x).pwr = s.pwr := rfl
@[simp] theorem State.setTbl_sec (s : State) (t n : Nat) (x : Tbl) : (s.setTbl t n x).sec = s.sec := rfl
@[simp] theorem State.setTbl_sloe (s : State) (t n : Nat) (x : Tbl) : (s.setTbl t n x).sloe = s.sloe := rfl
@[simp] theorem State.setTbl_hostOut (s : State) (t n : Nat) (x : Tbl) : (s.setTbl t n x).hostOut = s.hostOut := rfl
@[simp] theorem State.setTbl_msix (s : State) (t n : Nat) (x : Tbl) : (s.setTbl t n x).msix = s.msix := rfl
@[simp] theorem State.setTbl_hostAns (s : State) (t n : Nat) (x : Tbl) : (s.setTbl t n x).hostAns = s.hostAns := rfl
@[simp] theorem State.setTbl_hostGet (s : State) (t n : Nat) (x : Tbl) : (s.setTbl t n x).hostGet = s.hostGet := rfl
@[simp] theorem State.setTbl_pending (s : State) (t n : Nat) (x : Tbl) : (s.setTbl t n x).pending = s.pending := rfl

@[simp] theorem State.setLink_now (s : State) (k : Nat) (l : Link) : (s.setLink k l).now = s.now := rfl
@[simp] theorem State.setLink_freeCtr (s : State) (k : Nat) (l : Link) : (s.setLink k l).freeCtr = s.freeCtr := rfl
@[simp] theorem State.setLink_bus (s : State) (k : Nat) (l : Link) : (s.setLink k l).bus = s.bus := rfl
@[simp] theorem State.setLink_regs (s : State) (k : Nat) (l : Link) : (s.setLink k l).regs = s.regs := rfl
@[simp] theorem State.setLink_hbm (s : State) (k : Nat) (l : Link) : (s.setLink k l).hbm = s.hbm := rfl
@[simp] theorem State.setLink_tiles (s : State) (k : Nat) (l : Link) : (s.setLink k l).tiles = s.tiles := rfl
@[simp] theorem State.setLink_fields (s : State) (k : Nat) (l : Link) : (s.setLink k l).fields = s.fields := rfl
@[simp] theorem State.setLink_hub (s : State) (k : Nat) (l : Link) : (s.setLink k l).hub = s.hub := rfl
@[simp] theorem State.setLink_ports (s : State) (k : Nat) (l : Link) : (s.setLink k l).ports = s.ports := rfl
@[simp] theorem State.setLink_mesh (s : State) (k : Nat) (l : Link) : (s.setLink k l).mesh = s.mesh := rfl
@[simp] theorem State.setLink_ras (s : State) (k : Nat) (l : Link) : (s.setLink k l).ras = s.ras := rfl
@[simp] theorem State.setLink_pwr (s : State) (k : Nat) (l : Link) : (s.setLink k l).pwr = s.pwr := rfl
@[simp] theorem State.setLink_sec (s : State) (k : Nat) (l : Link) : (s.setLink k l).sec = s.sec := rfl
@[simp] theorem State.setLink_sloe (s : State) (k : Nat) (l : Link) : (s.setLink k l).sloe = s.sloe := rfl
@[simp] theorem State.setLink_hostOut (s : State) (k : Nat) (l : Link) : (s.setLink k l).hostOut = s.hostOut := rfl
@[simp] theorem State.setLink_msix (s : State) (k : Nat) (l : Link) : (s.setLink k l).msix = s.msix := rfl
@[simp] theorem State.setLink_hostAns (s : State) (k : Nat) (l : Link) : (s.setLink k l).hostAns = s.hostAns := rfl
@[simp] theorem State.setLink_hostGet (s : State) (k : Nat) (l : Link) : (s.setLink k l).hostGet = s.hostGet := rfl
@[simp] theorem State.setLink_pending (s : State) (k : Nat) (l : Link) : (s.setLink k l).pending = s.pending := rfl

@[simp] theorem State.progress_now (s : State) (f : Nat) : (s.progress f).now = s.now := rfl
@[simp] theorem State.progress_freeCtr (s : State) (f : Nat) : (s.progress f).freeCtr = s.freeCtr := rfl
@[simp] theorem State.progress_bus (s : State) (f : Nat) : (s.progress f).bus = s.bus := rfl
@[simp] theorem State.progress_regs (s : State) (f : Nat) : (s.progress f).regs = s.regs := rfl
@[simp] theorem State.progress_hbm (s : State) (f : Nat) : (s.progress f).hbm = s.hbm := rfl
@[simp] theorem State.progress_tiles (s : State) (f : Nat) : (s.progress f).tiles = s.tiles := rfl
@[simp] theorem State.progress_hub (s : State) (f : Nat) : (s.progress f).hub = s.hub := rfl
@[simp] theorem State.progress_ports (s : State) (f : Nat) : (s.progress f).ports = s.ports := rfl
@[simp] theorem State.progress_mesh (s : State) (f : Nat) : (s.progress f).mesh = s.mesh := rfl
@[simp] theorem State.progress_links (s : State) (f : Nat) : (s.progress f).links = s.links := rfl
@[simp] theorem State.progress_ras (s : State) (f : Nat) : (s.progress f).ras = s.ras := rfl
@[simp] theorem State.progress_pwr (s : State) (f : Nat) : (s.progress f).pwr = s.pwr := rfl
@[simp] theorem State.progress_sec (s : State) (f : Nat) : (s.progress f).sec = s.sec := rfl
@[simp] theorem State.progress_sloe (s : State) (f : Nat) : (s.progress f).sloe = s.sloe := rfl
@[simp] theorem State.progress_hostOut (s : State) (f : Nat) : (s.progress f).hostOut = s.hostOut := rfl
@[simp] theorem State.progress_msix (s : State) (f : Nat) : (s.progress f).msix = s.msix := rfl
@[simp] theorem State.progress_hostAns (s : State) (f : Nat) : (s.progress f).hostAns = s.hostAns := rfl
@[simp] theorem State.progress_hostGet (s : State) (f : Nat) : (s.progress f).hostGet = s.hostGet := rfl
@[simp] theorem State.progress_pending (s : State) (f : Nat) : (s.progress f).pending = s.pending := rfl

@[simp] theorem State.wake_now (s : State) (f : Nat) : (s.wake f).now = s.now := rfl
@[simp] theorem State.wake_freeCtr (s : State) (f : Nat) : (s.wake f).freeCtr = s.freeCtr := rfl
@[simp] theorem State.wake_bus (s : State) (f : Nat) : (s.wake f).bus = s.bus := rfl
@[simp] theorem State.wake_regs (s : State) (f : Nat) : (s.wake f).regs = s.regs := rfl
@[simp] theorem State.wake_hbm (s : State) (f : Nat) : (s.wake f).hbm = s.hbm := rfl
@[simp] theorem State.wake_tiles (s : State) (f : Nat) : (s.wake f).tiles = s.tiles := rfl
@[simp] theorem State.wake_hub (s : State) (f : Nat) : (s.wake f).hub = s.hub := rfl
@[simp] theorem State.wake_ports (s : State) (f : Nat) : (s.wake f).ports = s.ports := rfl
@[simp] theorem State.wake_mesh (s : State) (f : Nat) : (s.wake f).mesh = s.mesh := rfl
@[simp] theorem State.wake_links (s : State) (f : Nat) : (s.wake f).links = s.links := rfl
@[simp] theorem State.wake_ras (s : State) (f : Nat) : (s.wake f).ras = s.ras := rfl
@[simp] theorem State.wake_pwr (s : State) (f : Nat) : (s.wake f).pwr = s.pwr := rfl
@[simp] theorem State.wake_sec (s : State) (f : Nat) : (s.wake f).sec = s.sec := rfl
@[simp] theorem State.wake_sloe (s : State) (f : Nat) : (s.wake f).sloe = s.sloe := rfl
@[simp] theorem State.wake_hostOut (s : State) (f : Nat) : (s.wake f).hostOut = s.hostOut := rfl
@[simp] theorem State.wake_msix (s : State) (f : Nat) : (s.wake f).msix = s.msix := rfl
@[simp] theorem State.wake_hostAns (s : State) (f : Nat) : (s.wake f).hostAns = s.hostAns := rfl
@[simp] theorem State.wake_hostGet (s : State) (f : Nat) : (s.wake f).hostGet = s.hostGet := rfl
@[simp] theorem State.wake_pending (s : State) (f : Nat) : (s.wake f).pending = s.pending := rfl

@[simp] theorem State.seqEvent_now (s : State) (f : Nat) (e : EvRec) : (s.seqEvent f e).now = s.now := rfl
@[simp] theorem State.seqEvent_freeCtr (s : State) (f : Nat) (e : EvRec) : (s.seqEvent f e).freeCtr = s.freeCtr := rfl
@[simp] theorem State.seqEvent_bus (s : State) (f : Nat) (e : EvRec) : (s.seqEvent f e).bus = s.bus := rfl
@[simp] theorem State.seqEvent_regs (s : State) (f : Nat) (e : EvRec) : (s.seqEvent f e).regs = s.regs := rfl
@[simp] theorem State.seqEvent_hbm (s : State) (f : Nat) (e : EvRec) : (s.seqEvent f e).hbm = s.hbm := rfl
@[simp] theorem State.seqEvent_tiles (s : State) (f : Nat) (e : EvRec) : (s.seqEvent f e).tiles = s.tiles := rfl
@[simp] theorem State.seqEvent_hub (s : State) (f : Nat) (e : EvRec) : (s.seqEvent f e).hub = s.hub := rfl
@[simp] theorem State.seqEvent_ports (s : State) (f : Nat) (e : EvRec) : (s.seqEvent f e).ports = s.ports := rfl
@[simp] theorem State.seqEvent_mesh (s : State) (f : Nat) (e : EvRec) : (s.seqEvent f e).mesh = s.mesh := rfl
@[simp] theorem State.seqEvent_links (s : State) (f : Nat) (e : EvRec) : (s.seqEvent f e).links = s.links := rfl
@[simp] theorem State.seqEvent_ras (s : State) (f : Nat) (e : EvRec) : (s.seqEvent f e).ras = s.ras := rfl
@[simp] theorem State.seqEvent_pwr (s : State) (f : Nat) (e : EvRec) : (s.seqEvent f e).pwr = s.pwr := rfl
@[simp] theorem State.seqEvent_sec (s : State) (f : Nat) (e : EvRec) : (s.seqEvent f e).sec = s.sec := rfl
@[simp] theorem State.seqEvent_sloe (s : State) (f : Nat) (e : EvRec) : (s.seqEvent f e).sloe = s.sloe := rfl
@[simp] theorem State.seqEvent_hostOut (s : State) (f : Nat) (e : EvRec) : (s.seqEvent f e).hostOut = s.hostOut := rfl
@[simp] theorem State.seqEvent_msix (s : State) (f : Nat) (e : EvRec) : (s.seqEvent f e).msix = s.msix := rfl
@[simp] theorem State.seqEvent_hostAns (s : State) (f : Nat) (e : EvRec) : (s.seqEvent f e).hostAns = s.hostAns := rfl
@[simp] theorem State.seqEvent_hostGet (s : State) (f : Nat) (e : EvRec) : (s.seqEvent f e).hostGet = s.hostGet := rfl
@[simp] theorem State.seqEvent_pending (s : State) (f : Nat) (e : EvRec) : (s.seqEvent f e).pending = s.pending := rfl

/-! ### Registers -/

theorem Reg.idx_inj {r q : Reg} (h : r.idx = q.idx) : r = q := by
  have := congrArg Reg.ofNat h
  simpa [Reg.idx, Reg.ofNat_ctorIdx] using this

theorem Reg.idx_lt (r : Reg) : r.idx < 1024 := by cases r <;> decide

/-- Different elements of registers lie at different keys. -/
theorem rkey_inj {r q : Reg} {i j k i' j' k' : Nat} (hi : i < 1024) (hk : k < 8) (hi' : i' < 1024) (hk' : k' < 8)
    (h : rkey r i j k = rkey q i' j' k') : r = q ∧ i = i' ∧ j = j' ∧ k = k' := by
  have h1 := r.idx_lt
  have h2 := q.idx_lt
  unfold rkey at h
  have h3 : r.idx = q.idx := by omega
  exact ⟨Reg.idx_inj h3, by omega, by omega, by omega⟩

/-- A register just stored. -/
theorem State.reg_setReg_same (s : State) (r : Reg) (i j k v : Nat) : (s.setReg r i j k v).reg r i j k = v % 2 ^ 64 := by
  simp [State.reg, State.setReg, Tab.get_insert_same]

/-- Another register. -/
theorem State.reg_setReg_ne (s : State) (r q : Reg) (i j k v i' j' k' : Nat) (h : rkey q i' j' k' ≠ rkey r i j k) :
    (s.setReg r i j k v).reg q i' j' k' = s.reg q i' j' k' := by
  simp [State.reg, State.setReg, Tab.get_insert_ne _ _ _ h]

theorem State.reg_lt (s : State) (r : Reg) (i j k : Nat) : s.reg r i j k < 2 ^ 64 := BitVec.isLt _

/-- A field just stored. -/
theorem State.getF_setF_same (s : State) (fl : Fld) (v i j k : Nat) (h : fl.lsb + fl.width ≤ 64) :
    (s.setF fl v i j k).getF fl i j k = v % 2 ^ fl.width := by
  unfold State.getF State.setF
  rw [State.reg_setReg_same, Nat.mod_eq_of_lt (putBits_lt _ _ _ _ 64 (s.reg_lt _ _ _ _) h), bitsOf_putBits_same]

/-- A field of another register. -/
theorem State.getF_setF_ne (s : State) (fl gl : Fld) (v i j k i' j' k' : Nat) (h : rkey gl.reg i' j' k' ≠ rkey fl.reg i j k) :
    (s.setF fl v i j k).getF gl i' j' k' = s.getF gl i' j' k' := by
  unfold State.getF State.setF
  rw [State.reg_setReg_ne _ _ _ _ _ _ _ _ _ _ h]

/-- Another field of the same register. -/
theorem State.getF_setF_beside (s : State) (fl gl : Fld) (v i j k : Nat) (hr : gl.reg = fl.reg) (h : fl.lsb + fl.width ≤ 64)
    (hd : fl.lsb + fl.width ≤ gl.lsb ∨ gl.lsb + gl.width ≤ fl.lsb) :
    (s.setF fl v i j k).getF gl i j k = s.getF gl i j k := by
  unfold State.getF State.setF
  rw [hr, State.reg_setReg_same, Nat.mod_eq_of_lt (putBits_lt _ _ _ _ 64 (s.reg_lt _ _ _ _) h)]
  rcases hd with hd | hd
  · rw [bitsOf_putBits_above _ _ _ _ _ _ hd]
  · rw [bitsOf_putBits_below _ _ _ _ _ _ hd]

/-! ### Tiles, fields, ports -/

theorem tkey_inj {f t g u : Nat} (ht : t < 4900) (hu : u < 4900) (h : tkey f t = tkey g u) : f = g ∧ t = u := by
  unfold tkey at h
  omega

@[simp] theorem State.tile_setTile_same (s : State) (f t : Nat) (c : Tile) : (s.setTile f t c).tile f t = c := by
  simp [State.tile, State.setTile]

theorem State.tile_setTile_ne (s : State) (f t g u : Nat) (c : Tile) (h : tkey g u ≠ tkey f t) :
    (s.setTile f t c).tile g u = s.tile g u := by
  simp [State.tile, State.setTile, Tab.get_set_ne _ _ _ h]

@[simp] theorem State.field_setField_same (s : State) (f : Nat) (x : Field) : (s.setField f x).field f = x := by
  simp [State.field, State.setField]

theorem State.field_setField_ne (s : State) (f g : Nat) (x : Field) (h : g ≠ f) : (s.setField f x).field g = s.field g := by
  simp [State.field, State.setField, Tab.get_set_ne _ _ _ h]

@[simp] theorem State.field_setTile (s : State) (f t g : Nat) (c : Tile) : (s.setTile f t c).field g = s.field g := rfl
@[simp] theorem State.tile_setField (s : State) (f g t : Nat) (x : Field) : (s.setField f x).tile g t = s.tile g t := rfl
@[simp] theorem State.tile_setReg (s : State) (r : Reg) (i j k v f t : Nat) : (s.setReg r i j k v).tile f t = s.tile f t := rfl
@[simp] theorem State.field_setReg (s : State) (r : Reg) (i j k v f : Nat) : (s.setReg r i j k v).field f = s.field f := rfl
@[simp] theorem State.reg_setTile (s : State) (r : Reg) (i j k f t : Nat) (c : Tile) : (s.setTile f t c).reg r i j k = s.reg r i j k := rfl
@[simp] theorem State.reg_setField (s : State) (r : Reg) (i j k f : Nat) (x : Field) : (s.setField f x).reg r i j k = s.reg r i j k := rfl
@[simp] theorem State.getF_setTile (s : State) (fl : Fld) (i j k f t : Nat) (c : Tile) : (s.setTile f t c).getF fl i j k = s.getF fl i j k := rfl
@[simp] theorem State.getF_setField (s : State) (fl : Fld) (i j k f : Nat) (x : Field) : (s.setField f x).getF fl i j k = s.getF fl i j k := rfl

@[simp] theorem State.port_setPort_same (s : State) (p : Nat) (x : PortSt) : (s.setPort p x).port p = x := by
  simp [State.port, State.setPort]

theorem State.port_setPort_ne (s : State) (p q : Nat) (x : PortSt) (h : q ≠ p) : (s.setPort p x).port q = s.port q := by
  simp [State.port, State.setPort, Tab.get_set_ne _ _ _ h]

@[simp] theorem State.link_setLink_same (s : State) (k : Nat) (l : Link) : (s.setLink k l).link k = l := by
  simp [State.link, State.setLink]

theorem State.link_setLink_ne (s : State) (k m : Nat) (l : Link) (h : m ≠ k) : (s.setLink k l).link m = s.link m := by
  simp [State.link, State.setLink, Tab.get_set_ne _ _ _ h]

@[simp] theorem State.tbl_setTbl_same (s : State) (t n : Nat) (x : Tbl) : (s.setTbl t n x).tbl t n = x := by
  simp [State.tbl, State.setTbl]

@[simp] theorem State.ten_setTen_same (s : State) (t : Nat) (x : Ten) : (s.setTen t x).ten t = x := by
  simp [State.ten, State.setTen]

/-! ### The core of a tile instruction -/

@[simp] theorem State.core_setCore_same (s : State) (x : Site) (c : Tile) : (s.setCore x c).core x = c := by
  cases x <;> simp [State.core, State.setCore]

theorem State.core_setCore_ne (s : State) (x y : Site) (c : Tile) (h : y ≠ x) : (s.setCore x c).core y = s.core y := by
  cases x <;> cases y
  · rename_i f t g u
    refine State.tile_setTile_ne s _ _ _ _ c fun e => h ?_
    obtain ⟨h1, h2⟩ := tkey_inj u.isLt t.isLt e
    rw [Fin.ext h1, Fin.ext h2]
  · rfl
  · rfl
  · exact absurd rfl h

end Sys2Proof.Machine
end

