-- ==== Sys2Proof/Laws/Regs.lean ====
section
/-! SUPPORT. Where the registers of BAR0 lie: every element is found at its own offset, and no two share one. -/

namespace Sys2Proof.Machine

open Sys2Proof

/-- The least and greatest residue, modulo `m`, of the offsets of a register's elements. -/
def RegDesc.lo (d : RegDesc) (m : Nat) : Nat := d.base % m
def RegDesc.hi (d : RegDesc) (m : Nat) : Nat :=
  d.base % m + (if d.s1 % m = 0 then 0 else (d.n1 - 1) * d.s1) + (if d.s2 % m = 0 then 0 else (d.n2 - 1) * d.s2)

/-- The offset of an element. -/
def RegDesc.at_ (d : RegDesc) (i j : Nat) : Nat := d.base + i * d.s1 + j * d.s2

theorem RegDesc.at_mod (d : RegDesc) (m i j : Nat) (hi : i < d.n1) (hj : j < d.n2) (h : d.hi m < m) :
    d.lo m ≤ d.at_ i j % m ∧ d.at_ i j % m ≤ d.hi m := by
  have part (s n k : Nat) (hk : k < n) :
      ∃ q, k * s % m = q % m ∧ q ≤ (if s % m = 0 then 0 else (n - 1) * s) := by
    split
    · rename_i hs
      refine ⟨0, ?_, Nat.le_refl 0⟩
      rw [Nat.mul_mod, hs]; simp
    · exact ⟨k * s, rfl, Nat.mul_le_mul_right s (by omega)⟩
  obtain ⟨q1, e1, l1⟩ := part d.s1 d.n1 i hi
  obtain ⟨q2, e2, l2⟩ := part d.s2 d.n2 j hj
  have hm : d.at_ i j % m = (d.base % m + q1 + q2) % m := by
    unfold RegDesc.at_
    exact ((Nat.mod_modEq d.base m).symm.add e1).add e2
  have hb : d.base % m + q1 + q2 ≤ d.hi m := by unfold RegDesc.hi; omega
  rw [hm, Nat.mod_eq_of_lt (by omega)]
  exact ⟨by unfold RegDesc.lo; omega, hb⟩

/-- The residues modulo `m` keep two registers apart. -/
def apart1 (a b : RegDesc) (m : Nat) : Bool :=
  decide (a.hi m < m) && decide (b.hi m < m) && (decide (a.hi m < b.lo m) || decide (b.hi m < a.lo m))

/-- Two registers lie apart. -/
def apart (a b : RegDesc) : Bool := [2 ^ 40, a.s1, a.s2, b.s1, b.s2].any fun m => apart1 a b m

theorem apart_ne {a b : RegDesc} (h : apart a b = true) (i j k l : Nat) (hi : i < a.n1) (hj : j < a.n2) (hk : k < b.n1)
    (hl : l < b.n2) : a.at_ i j ≠ b.at_ k l := by
  intro e
  obtain ⟨m, _, hm⟩ := List.any_eq_true.mp h
  unfold apart1 at hm
  simp only [Bool.and_eq_true, Bool.or_eq_true, decide_eq_true_eq] at hm
  have h1 := a.at_mod m i j hi hj hm.1.1
  have h2 := b.at_mod m k l hk hl hm.1.2
  rw [e] at h1
  omega

/-- The elements of a register lie at distinct offsets on multiples of 8, those of BAR0 below 2^26. -/
def RegDesc.sound (d : RegDesc) : Bool :=
  (if d.s2 ≤ d.s1 then (decide (d.n1 = 1) || decide (0 < d.s1)) && (decide (d.n2 = 1) || decide (0 < d.s2))
      && (decide (d.s1 = 0) || decide ((d.n2 - 1) * d.s2 < d.s1))
    else (decide (d.n1 = 1) || decide (0 < d.s1)) && decide ((d.n1 - 1) * d.s1 < d.s2)) &&
  (decide (2 ^ 26 ≤ d.base) || decide (d.base + (d.n1 - 1) * d.s1 + (d.n2 - 1) * d.s2 < 2 ^ 26)) &&
  d.base % 8 == 0 && d.s1 % 8 == 0 && d.s2 % 8 == 0

/-- The tile windows of Table 3.13, as if they were a register. -/
def windowDesc : RegDesc := ⟨0x1004000, 0x40000, 92, 1, 0x1000, false, []⟩

theorem Reg.descs_sound : (Reg.all.all fun r => r.desc.sound && apart r.desc windowDesc) = true := by decide +kernel

theorem Reg.mem_all (r : Reg) : r ∈ Reg.all := by cases r <;> decide +kernel

theorem Reg.descs_apart : (Reg.all.all fun r => Reg.all.all fun q => r == q || apart q.desc r.desc) = true := by decide +kernel

theorem Reg.sound (r : Reg) : r.desc.sound = true :=
  (Bool.and_eq_true _ _ ▸ List.all_eq_true.mp Reg.descs_sound r (Reg.mem_all r)).1

/-- An element of a register is found at its offset. -/
theorem Reg.locate_offset (r : Reg) (i j : Nat) (hi : i < r.desc.n1) (hj : j < r.desc.n2) :
    r.locate (r.offset i j) = some (i, j) := by
  have hs := r.sound
  unfold RegDesc.sound at hs
  unfold Reg.locate Reg.offset
  generalize r.desc = d at *
  obtain ⟨base, s1, n1, s2, n2, ps, fs⟩ := d
  simp only [Bool.and_eq_true, Bool.or_eq_true, decide_eq_true_eq] at hs ⊢ hi hj
  have hx : base + i * s1 + j * s2 - base = i * s1 + j * s2 := by omega
  have le1 : i * s1 ≤ (n1 - 1) * s1 := Nat.mul_le_mul_right _ (by omega)
  have le2 : j * s2 ≤ (n2 - 1) * s2 := Nat.mul_le_mul_right _ (by omega)
  rw [hx]
  have key : (if s2 ≤ s1 then ((i * s1 + j * s2) / s1, (i * s1 + j * s2 - (i * s1 + j * s2) / s1 * s1) / s2)
      else ((i * s1 + j * s2 - (i * s1 + j * s2) / s2 * s2) / s1, (i * s1 + j * s2) / s2)) = (i, j) := by
    have hs1 := hs.1.1.1.1
    split at hs1 <;> rename_i hc
    · rw [if_pos hc]
      simp only [Bool.and_eq_true, Bool.or_eq_true, decide_eq_true_eq] at hs1
      have inner : j * s2 / s2 = j := by
        rcases hs1.1.2 with h | h
        · have : j = 0 := by omega
          subst this; simp
        · exact Nat.mul_div_cancel _ h
      have outer : (i * s1 + j * s2) / s1 = i := by
        rcases hs1.2 with h | h
        · have h0 : i = 0 := by
            rcases hs1.1.1 with g | g <;> omega
          subst h0; subst h; simp
        · rw [Nat.mul_comm i, Nat.mul_add_div (by omega), Nat.div_eq_of_lt (by omega)]; omega
      rw [outer, Nat.add_sub_cancel_left, inner]
    · rw [if_neg hc]
      simp only [Bool.and_eq_true, Bool.or_eq_true, decide_eq_true_eq] at hs1
      have inner : i * s1 / s1 = i := by
        rcases hs1.1 with h | h
        · have : i = 0 := by omega
          subst this; simp
        · exact Nat.mul_div_cancel _ h
      have outer : (i * s1 + j * s2) / s2 = j := by
        rw [Nat.add_comm, Nat.mul_comm j, Nat.mul_add_div (by omega), Nat.div_eq_of_lt (by omega)]; omega
      rw [outer, Nat.add_sub_cancel, inner]
  simp only [key]
  rw [if_pos ⟨by omega, hi, hj, trivial⟩]

/-- What `locate` finds lies there. -/
theorem Reg.locate_some {r : Reg} {off i j : Nat} (h : r.locate off = some (i, j)) :
    i < r.desc.n1 ∧ j < r.desc.n2 ∧ off = r.desc.at_ i j := by
  have go (d : RegDesc) (ij : Nat × Nat)
      (g : (if d.base ≤ off ∧ ij.1 < d.n1 ∧ ij.2 < d.n2 ∧ off - d.base = ij.1 * d.s1 + ij.2 * d.s2 then some ij else none) = some (i, j)) :
      i < d.n1 ∧ j < d.n2 ∧ off = d.at_ i j := by
    split at g
    · rename_i hc
      injection g with g
      subst g
      simp only [] at hc
      refine ⟨hc.2.1, hc.2.2.1, ?_⟩
      unfold RegDesc.at_
      omega
    · cases g
  exact go _ _ h

/-- The register element at its own offset. -/
theorem regAt_offset (r : Reg) (i j : Nat) (hi : i < r.desc.n1) (hj : j < r.desc.n2) :
    regAt (r.offset i j) = some (r, i, j) := by
  have only (q : Reg) (h : (q.locate (r.offset i j)).isSome = true) : q = r := by
    obtain ⟨⟨k, l⟩, hk⟩ := Option.isSome_iff_exists.mp h
    obtain ⟨h1, h2, h3⟩ := Reg.locate_some hk
    have hp := List.all_eq_true.mp (List.all_eq_true.mp Reg.descs_apart r (Reg.mem_all r)) q (Reg.mem_all q)
    simp only [Bool.or_eq_true, beq_iff_eq] at hp
    rcases hp with hp | hp
    · exact hp.symm
    · exact absurd h3.symm (apart_ne hp k l i j h1 h2 hi hj)
  have go (l : List Reg) (hr : r ∈ l) :
      (l.findSome? fun q => (q.locate (r.offset i j)).map fun ij => (q, ij.1, ij.2)) = some (r, i, j) := by
    induction l with
    | nil => cases hr
    | cons q l ih =>
      rw [List.findSome?_cons]
      cases hq : q.locate (r.offset i j) with
      | none =>
        have : r ≠ q := by
          rintro rfl
          rw [Reg.locate_offset r i j hi hj] at hq; cases hq
        simp only [Option.map_none]
        exact ih (by cases hr with
          | head => exact absurd rfl this
          | tail _ h => exact h)
      | some ij =>
        have : q = r := only q (by rw [hq]; rfl)
        subst this
        rw [Reg.locate_offset q i j hi hj] at hq
        injection hq with hq
        subst hq
        rfl
  exact go Reg.all (Reg.mem_all r)

/-- No register lies in a tile window. -/
theorem tileWindow_offset (r : Reg) (i j : Nat) (hi : i < r.desc.n1) (hj : j < r.desc.n2) : tileWindow (r.offset i j) = none := by
  have h := (Bool.and_eq_true _ _ ▸ List.all_eq_true.mp Reg.descs_sound r (Reg.mem_all r)).2
  have hn : r.offset i j = r.desc.at_ i j := rfl
  unfold tileWindow
  simp only []
  rw [if_neg]
  rintro ⟨h1, h2, h3, h4⟩
  have e := apart_ne h i j ((r.offset i j - 0x1000000) / 0x40000) ((r.offset i j - 0x1000000) % 0x40000 - 0x4000) hi hj
    h2 (by show _ < 0x1000; omega)
  apply e
  rw [← hn]
  show _ = 0x1004000 + _ * 0x40000 + _ * 1
  omega

/-- Offsets in BAR0 lie below 2^26 on multiples of 8. -/
theorem Reg.offset_lt (r : Reg) (i j : Nat) (hi : i < r.desc.n1) (hj : j < r.desc.n2) (hb : r.desc.base < 2 ^ 26) :
    r.offset i j < 2 ^ 26 := by
  have hs := r.sound
  unfold RegDesc.sound at hs
  simp only [Bool.and_eq_true, Bool.or_eq_true, decide_eq_true_eq] at hs
  have le1 : i * r.desc.s1 ≤ (r.desc.n1 - 1) * r.desc.s1 := Nat.mul_le_mul_right _ (by omega)
  have le2 : j * r.desc.s2 ≤ (r.desc.n2 - 1) * r.desc.s2 := Nat.mul_le_mul_right _ (by omega)
  unfold Reg.offset
  rcases hs.1.1.1.2 with h | h <;> omega

theorem Reg.offset_mod8 (r : Reg) (i j : Nat) : r.offset i j % 8 = 0 := by
  have hs := r.sound
  unfold RegDesc.sound at hs
  simp only [Bool.and_eq_true, beq_iff_eq] at hs
  unfold Reg.offset
  have h1 : i * r.desc.s1 % 8 = 0 := by rw [Nat.mul_mod, hs.1.2]; simp
  have h2 : j * r.desc.s2 % 8 = 0 := by rw [Nat.mul_mod, hs.2]; simp
  omega

end Sys2Proof.Machine
end

