-- ==== Sys2Proof/Laws/Put.lean ====
section
/-! SUPPORT. What a 64-bit write of one BAR0 register does: the check of its source, the records of R7 and R234, and the
register's own action. -/

namespace Sys2Proof.Machine

open Sys2Proof

/-- The turn of an access changes the bus records alone (R230). -/
@[simp] theorem State.reg_busTurn (s : State) (src : Source) (off : Nat) (r : Reg) (i j k : Nat) :
    (s.busTurn src off).reg r i j k = s.reg r i j k := rfl

@[simp] theorem State.getF_busTurn (s : State) (src : Source) (off : Nat) (f : Fld) (i j k : Nat) :
    (s.busTurn src off).getF f i j k = s.getF f i j k := rfl

/-- A 64-bit write of a register by a source that may not write it takes its turn, leaves the record of R234 and does nothing else. -/
theorem State.put_refused (s : State) (src : Source) (r : Reg) (i j v : Nat) (hi : i < r.desc.n1) (hj : j < r.desc.n2)
    (hb : r.desc.base < 2 ^ 26) (hv : v < 2 ^ 64) (h1 : r ≠ .hubRsvdWrite) (h2 : r ≠ .hubLastWriter)
    (hp : (s.busTurn src (r.offset i j)).passes src ((s.busTurn src (r.offset i j)).guardOf src r i v) = false) :
    s.put src r i j v = (s.busTurn src (r.offset i j)).noteAccess { src := src.code, slot := r.offset i j * 8 + (if r.desc.perSrc then srcCopy src else 0), off := r.offset i j, ok := false, conflict := true } := by
  have hlt := r.offset_lt i j hi hj hb
  have h8 := r.offset_mod8 i j
  have ha : r.offset i j / 8 * 8 = r.offset i j := by omega
  have hn : (BitVec.ofNat 26 (r.offset i j)).toNat = r.offset i j := by rw [BitVec.toNat_ofNat]; exact Nat.mod_eq_of_lt hlt
  have hvv : (BitVec.ofNat 64 v).toNat = v := by rw [BitVec.toNat_ofNat]; exact Nat.mod_eq_of_lt hv
  have hr : r.offset i j ≠ Reg.hubRsvdWrite.offset 0 0 := by
    intro e
    have a1 := regAt_offset r i j hi hj
    rw [e, regAt_offset .hubRsvdWrite 0 0 (by decide) (by decide)] at a1
    injection a1 with a1
    exact h1 (Prod.mk.inj a1).1.symm
  have hnar : narrow (r.offset i j) .w64 = false := by
    unfold narrow
    have e8 : AccW.bytes .w64 = 8 := rfl
    rw [e8]; simp [h8]
  unfold State.put State.busWrite
  simp only [hn, ha, hvv]
  rw [if_neg hr, if_neg (by rw [hnar]; decide)]
  simp only [tileWindow_offset r i j hi hj, regAt_offset r i j hi hj]
  rw [if_neg h2]
  simp only [if_true, hp, Bool.not_false]

/-- A 64-bit write of a register by a source that may write it: its turn, the log of reserved bits and of locked fields (R7, R8), the
record of R234, then the register's own action. -/
theorem State.put_accepted (s : State) (src : Source) (r : Reg) (i j v : Nat) (hi : i < r.desc.n1) (hj : j < r.desc.n2)
    (hb : r.desc.base < 2 ^ 26) (hv : v < 2 ^ 64) (h1 : r ≠ .hubRsvdWrite) (h2 : r ≠ .hubLastWriter)
    (hp : (s.busTurn src (r.offset i j)).passes src ((s.busTurn src (r.offset i j)).guardOf src r i v) = true) :
    let t := s.busTurn src (r.offset i j)
    let lock := t.getF F.secBootStat_LC == 2 && r.desc.fields.any fun f => f.acc == .rwl
    let s1 := if reservedSet r.desc.fields v || lock then t.rsvdLog src.code (r.offset i j) lock else t
    s.put src r i j v = (s1.noteAccess { src := src.code, slot := r.offset i j * 8 + (if r.desc.perSrc then srcCopy src else 0), off := r.offset i j, ok := t.regTakes src r i j (r.offset i j) .w64 v, conflict := false }).regWrite src r i j v true := by
  have hlt := r.offset_lt i j hi hj hb
  have h8 := r.offset_mod8 i j
  have ha : r.offset i j / 8 * 8 = r.offset i j := by omega
  have hn : (BitVec.ofNat 26 (r.offset i j)).toNat = r.offset i j := by rw [BitVec.toNat_ofNat]; exact Nat.mod_eq_of_lt hlt
  have hvv : (BitVec.ofNat 64 v).toNat = v := by rw [BitVec.toNat_ofNat]; exact Nat.mod_eq_of_lt hv
  have hr : r.offset i j ≠ Reg.hubRsvdWrite.offset 0 0 := by
    intro e
    have a1 := regAt_offset r i j hi hj
    rw [e, regAt_offset .hubRsvdWrite 0 0 (by decide) (by decide)] at a1
    injection a1 with a1
    exact h1 (Prod.mk.inj a1).1.symm
  have hnar : narrow (r.offset i j) .w64 = false := by
    unfold narrow
    have e8 : AccW.bytes .w64 = 8 := rfl
    rw [e8]; simp [h8]
  have hreach (p : FieldDesc → Bool) : reaches r.desc.fields (r.offset i j) .w64 p = r.desc.fields.any p := by
    unfold reaches
    congr 1
    funext f
    simp
  unfold State.put State.busWrite
  simp only [hn, ha, hvv]
  rw [if_neg hr, if_neg (by rw [hnar]; decide)]
  simp only [tileWindow_offset r i j hi hj, regAt_offset r i j hi hj]
  rw [if_neg h2]
  simp only [if_true, hp, Bool.not_true, Bool.false_eq_true, if_false, hreach, h8, BEq.rfl, Bool.or_true]

theorem rkey_ne {r q : Reg} (h : r ≠ q) (i j k i' j' k' : Nat) : rkey r i j k ≠ rkey q i' j' k' := by
  have h1 := r.idx_lt
  have h2 := q.idx_lt
  intro e
  unfold rkey at e
  exact h (Reg.idx_inj (by omega))

/-- A field stored leaves every other register alone. -/
theorem State.reg_setF_other (s : State) (fl : Fld) (v i j k : Nat) (r : Reg) (i' j' k' : Nat) (h : r ≠ fl.reg) :
    (s.setF fl v i j k).reg r i' j' k' = s.reg r i' j' k' :=
  State.reg_setReg_ne _ _ _ _ _ _ _ _ _ _ (rkey_ne h _ _ _ _ _ _)

theorem State.lastWriter_frame (s : State) (src : Nat) (r : Reg) (i j k : Nat) (h : r ≠ .hubLastWriter) :
    (s.lastWriter src).reg r i j k = s.reg r i j k := by
  unfold State.lastWriter
  simp only []
  split
  · rfl
  · rw [State.reg_setF_other _ _ _ _ _ _ r _ _ _ h, State.reg_setF_other _ _ _ _ _ _ r _ _ _ h,
      State.reg_setF_other _ _ _ _ _ _ r _ _ _ h, State.reg_setF_other _ _ _ _ _ _ r _ _ _ h]

/-- The record of an access changes no register but the sources' copies of `HUB_LAST_WRITER` (R234). -/
theorem State.noteAccess_frame (s : State) (e : CycWrite) (r : Reg) (i j k : Nat) (h : r ≠ .hubLastWriter) :
    (s.noteAccess e).reg r i j k = s.reg r i j k := by
  have key (f : State → Nat → State) (hf : ∀ s n, (f s n).reg r i j k = s.reg r i j k) :
      ∀ (l : List Nat) (s : State), (l.foldl f s).reg r i j k = s.reg r i j k := by
    intro l
    induction l with
    | nil => intro s; rfl
    | cons n l ih => intro s; rw [List.foldl_cons, ih, hf]
  unfold State.noteAccess
  simp only []
  rw [key]
  · split
    · unfold State.countF
      rw [State.reg_setF_other _ _ _ _ _ _ _ _ _ _ h]
      rfl
    · rfl
  · intro s n
    split <;> split <;> first | exact State.lastWriter_frame _ _ _ _ _ _ h | rfl

end Sys2Proof.Machine
end

