-- ==== Sys2Proof/Laws/Sloe.lean ====
section
/-! SUPPORT. What a change of the Sloe leaves alone, and fields of one register beside a written field. -/

namespace Sys2Proof.Machine

open Sys2Proof

@[simp] theorem State.mapSloe_sloe (s : State) (f : Sloe → Sloe) : (s.mapSloe f).sloe = f s.sloe := rfl
@[simp] theorem State.mapSloe_now (s : State) (f : Sloe → Sloe) : (s.mapSloe f).now = s.now := rfl
@[simp] theorem State.mapSloe_regs (s : State) (f : Sloe → Sloe) : (s.mapSloe f).regs = s.regs := rfl
@[simp] theorem State.reg_mapSloe (s : State) (f : Sloe → Sloe) (r i j k) : (s.mapSloe f).reg r i j k = s.reg r i j k := rfl
@[simp] theorem State.getF_mapSloe (s : State) (f : Sloe → Sloe) (r i j k) : (s.mapSloe f).getF r i j k = s.getF r i j k := rfl
@[simp] theorem State.flag_mapSloe (s : State) (f : Sloe → Sloe) (r i j k) : (s.mapSloe f).flag r i j k = s.flag r i j k := rfl
theorem State.getF_setF_apart (s : State) (fl gl : Fld) (v i j k i' j' k' : Nat) (h : fl.lsb + fl.width ≤ 64) (h2 : gl.reg ≠ fl.reg ∨ (i', j', k') = (i, j, k) ∧ (fl.lsb + fl.width ≤ gl.lsb ∨ gl.lsb + gl.width ≤ fl.lsb)) :
    (s.setF fl v i j k).getF gl i' j' k' = s.getF gl i' j' k' := by
  by_cases e : gl.reg = fl.reg
  · rcases h2 with h2 | ⟨h2, h3⟩
    · exact absurd e h2
    · obtain ⟨rfl, rfl, rfl⟩ : i' = i ∧ j' = j ∧ k' = k := by simpa using h2
      exact State.getF_setF_beside s fl gl v _ _ _ e h h3
  · exact State.getF_setF_ne s fl gl v i j k i' j' k' (rkey_ne e _ _ _ _ _ _)
theorem State.flag_setF_apart (s : State) (fl gl : Fld) (v i j k i' j' k' : Nat) (h : fl.lsb + fl.width ≤ 64) (h2 : gl.reg ≠ fl.reg ∨ (i', j', k') = (i, j, k) ∧ (fl.lsb + fl.width ≤ gl.lsb ∨ gl.lsb + gl.width ≤ fl.lsb)) :
    (s.setF fl v i j k).flag gl i' j' k' = s.flag gl i' j' k' := by
  unfold State.flag; rw [State.getF_setF_apart _ _ _ _ _ _ _ _ _ _ h h2]
theorem State.flag_setF_same (s : State) (fl : Fld) (v i j k : Nat) (h : fl.lsb + fl.width ≤ 64) : (s.setF fl v i j k).flag fl i j k = (v % 2 ^ fl.width != 0) := by
  unfold State.flag; rw [State.getF_setF_same _ _ _ _ _ _ h]

theorem State.alertUpdate_frame (s : State) : ∃ v, s.alertUpdate = s.setF F.sloSmb_ALERT v := by
  unfold State.alertUpdate; exact ⟨_, rfl⟩
end Sys2Proof.Machine
end

