-- ==== Sys2Proof/Laws/Tile.lean ====
section
/-! SUPPORT. How a tile instruction ends: what `settle`, `Ev.flags` and `Ev.complete` do, said once. -/

namespace Sys2Proof.Machine

open Sys2Proof

/-- The bits of a number with a field put. -/
theorem testBit_putBits (v lo w x i : Nat) :
    (putBits v lo w x).testBit i = if lo ≤ i ∧ i < lo + w then x.testBit (i - lo) else v.testBit i := by
  have up (u d : Nat) (hd : d < w) : u.testBit (lo + d) = (bitsOf u lo w).testBit d := by
    rw [bitsOf, Nat.testBit_mod_two_pow, Nat.testBit_div_two_pow, Nat.add_comm d lo]; simp [hd]
  split
  · rename_i h
    obtain ⟨d, rfl⟩ := Nat.exists_eq_add_of_le h.1
    have hd : d < w := by omega
    rw [up _ _ hd, bitsOf_putBits_same, Nat.testBit_mod_two_pow, Nat.add_sub_cancel_left]
    simp [hd]
  · rename_i h
    rcases Nat.lt_or_ge i lo with hl | hl
    · have h1 (u : Nat) : u.testBit i = (u % 2 ^ lo).testBit i := by rw [Nat.testBit_mod_two_pow]; simp [hl]
      rw [h1, putBits_mod_lo, ← h1]
    · obtain ⟨d, rfl⟩ := Nat.exists_eq_add_of_le (show lo + w ≤ i by omega)
      have h1 (u : Nat) : u.testBit (lo + w + d) = (u / 2 ^ (lo + w)).testBit d := by
        rw [Nat.testBit_div_two_pow, Nat.add_comm d]
      rw [h1, putBits_div_hi, ← h1]

/-- Bits of TS after one of its fields is put. -/
theorem Tile.getLsbD_tsPut (c : Tile) (lo w v i : Nat) (hi : i < 32) :
    (c.tsPut lo w v).ts.getLsbD i = if lo ≤ i ∧ i < lo + w then v.testBit (i - lo) else c.ts.getLsbD i := by
  simp only [Tile.tsPut, BitVec.getLsbD_ofNat, hi, decide_true, Bool.true_and, testBit_putBits]
  rfl

/-- The flags as bits. -/
theorem Flg.testBit_bits (g : Flg) (i : Nat) :
    g.bits.testBit i = match i with
      | 0 => g.z
      | 1 => g.n
      | 2 => g.c
      | 3 => g.v
      | _ => false := by
  obtain ⟨z, n, c, v⟩ := g
  match i with
  | 0 => revert z n c v; decide
  | 1 => revert z n c v; decide
  | 2 => revert z n c v; decide
  | 3 => revert z n c v; decide
  | i + 4 =>
    have h : Flg.bits ⟨z, n, c, v⟩ < 2 ^ (i + 4) := by
      have h1 : Flg.bits ⟨z, n, c, v⟩ < 2 ^ 4 := by revert z n c v; decide
      exact Nat.lt_of_lt_of_le h1 (Nat.pow_le_pow_right (by omega) (by omega))
    exact Nat.testBit_eq_false_of_lt h

/-- The core with flags and OV set. -/
def flagged (c : Tile) (g : Option Flg) (ov : Bool) : Tile :=
  let c1 := match g with
    | some g => c.setFlg g
    | none => c
  if ov then c1.tsPut 4 1 1 else c1

/-- TS after flags and OV are set and QSTALL is cleared. -/
theorem tsBit_flags (c : Tile) (g : Option Flg) (ov : Bool) (i : Nat) (hi : i < 32) :
    ((flagged c g ov).tsPut 21 1 0).ts.getLsbD i = tsBit c.ts g ov i := by
  have b1 : (1 : Nat).testBit (i - 4) = decide (i - 4 = 0) := by
    rcases Nat.eq_zero_or_pos (i - 4) with h | h
    · rw [h]; rfl
    · obtain ⟨d, hd⟩ := Nat.exists_eq_add_of_lt h
      rw [hd]; simp [Nat.testBit_succ]
  have a21 : (21 ≤ i ∧ i < 21 + 1) ↔ i = 21 := by omega
  have a4 : (4 ≤ i ∧ i < 4 + 1) ↔ i = 4 := by omega
  have a0 : (0 ≤ i ∧ i < 0 + 4) ↔ i < 4 := by omega
  unfold tsBit flagged
  cases ov <;> cases g <;>
    simp only [if_true, if_false, Bool.false_eq_true, Tile.getLsbD_tsPut _ _ _ _ _ hi, Tile.setFlg, Flg.testBit_bits, Nat.zero_testBit, b1, a21, a4, a0] <;>
    by_cases h21 : i = 21 <;> by_cases h4 : i = 4 <;> simp only [h21, h4, if_true, if_false, and_true, and_false] <;>
    first
    | done
    | (simp; done)
    | (match i, h21, h4 with
      | 0, _, _ => simp
      | 1, _, _ => simp
      | 2, _, _ => simp
      | 3, _, _ => simp
      | j + 4, _, _ => simp)

theorem resvStep_eq (c : Tile) : c.resvStep = { c with resv := resvAfter c.resv } := by
  have h (r : Resv) (hr : c.resv = r) : c.resvStep = { c with resv := resvAfter r } := by
    unfold Tile.resvStep
    rw [hr]
    cases r with
    | none => simp only [resvAfter]; rw [← hr]
    | held g n => rfl
    | lost b => simp only [resvAfter]; rw [← hr]
  exact h _ rfl

/-- Replacing a core replaces nothing else. -/
theorem coreOnly_setCore (x : Site) (s : State) (c : Tile) : coreOnly x s (s.setCore x c) :=
  ⟨fun y h => State.core_setCore_ne s x y c h, by cases x <;> rfl⟩

theorem coreOnly_trans {x : Site} {s t u : State} (h : coreOnly x s t) (k : coreOnly x t u) : coreOnly x s u :=
  ⟨fun y hy => (k.1 y hy).trans (h.1 y hy), by rw [k.2, h.2]⟩

theorem Ev.flags_core (x : Site) (e : Ev) (g : Option Flg) (ov : Bool) :
    (e.flags x g ov).s = e.s.setCore x (flagged (e.s.core x) g ov) := rfl

theorem Ev.complete_core (x : Site) (e : Ev) (len p : Nat) (h : (match e.pc with | some p => p | none => e.pcNext x len) = p) :
    (e.complete x len).core x = { e.s.core x with ts := ((e.s.core x).tsPut 21 1 0).ts, pc := BitVec.ofNat 16 p, got := [], ir := none, resv := resvAfter (e.s.core x).resv } := by
  subst h
  simp only [Ev.complete, State.core_setCore_same, resvStep_eq]
  rfl

/-- An instruction whose operands were served ends with its flags, OV, PC and the count of its reservation. -/
theorem Ev.complete_flags (x : Site) (e : Ev) (g : Option Flg) (ov : Bool) (len : Nat) (h : e.pc = none) :
    endsAt x e.s g ov (e.pcNext x len) ((e.flags x g ov).complete x len) := by
  refine ⟨coreOnly_trans (coreOnly_setCore x e.s _) (coreOnly_setCore x _ _), ?_⟩
  refine ⟨_, fun i hi => tsBit_flags (e.s.core x) g ov i hi, ?_⟩
  have hc : (e.flags x g ov).s.core x = flagged (e.s.core x) g ov := State.core_setCore_same _ _ _
  have hp : (flagged (e.s.core x) g ov).pc = (e.s.core x).pc := by cases ov <;> cases g <;> rfl
  have h2 : (e.flags x g ov).pc = none := h
  rw [Ev.complete_core x (e.flags x g ov) len (e.pcNext x len) (by rw [h2]; simp only [Ev.pcNext, hc, hp]), hc]
  generalize ((flagged (e.s.core x) g ov).tsPut 21 1 0).ts = T
  cases ov <;> cases g <;> rfl

/-- The same without flags. -/
theorem Ev.complete_ends (x : Site) (e : Ev) (len : Nat) (h : e.pc = none) :
    endsAt x e.s none false (e.pcNext x len) (e.complete x len) := by
  refine ⟨coreOnly_setCore x _ _, ?_⟩
  refine ⟨_, fun i hi => tsBit_flags (e.s.core x) none false i hi, ?_⟩
  rw [Ev.complete_core x e len (e.pcNext x len) (by rw [h])]
  rfl

/-- Completion after a transfer of control. -/
theorem Ev.complete_jump (x : Site) (e : Ev) (len p : Nat) (h : e.pc = some p) :
    endsAt x e.s none false p (e.complete x len) := by
  refine ⟨coreOnly_setCore x _ _, ?_⟩
  refine ⟨_, fun i hi => tsBit_flags (e.s.core x) none false i hi, ?_⟩
  rw [Ev.complete_core x e len p (by rw [h])]
  rfl

/-- An instruction whose evaluation succeeds and whose operands were served completes. -/
theorem instr_ok (x : Site) (svc : Bool) (len : Nat) (s : State) (body : Ev → Except TFault Ev) (e : Ev)
    (hi : s.canIssue x = true) (hs : x = .sloe → svc = true) (hb : body { s := s } = .ok e) (he : e.served) :
    instr x svc len s body = e.complete x len := by
  have h1 : (x == Site.sloe && !svc) = false := by
    cases x <;> simp at hs ⊢; exact hs
  simp [instr, hi, h1, settle, settleWith, hb, he.1, he.2]

/-- An evaluation that faults takes the precise fault and has no other effect. -/
theorem instr_fault (x : Site) (svc : Bool) (len : Nat) (s : State) (body : Ev → Except TFault Ev) (f : TFault)
    (hi : s.canIssue x = true) (hs : x = .sloe → svc = true) (hb : body { s := s } = .error f) :
    instr x svc len s body = s.tileFault x f 0 := by
  have h1 : (x == Site.sloe && !svc) = false := by
    cases x <;> simp at hs ⊢; exact hs
  simp [instr, hi, h1, settle, settleWith, hb]

end Sys2Proof.Machine
end

