-- ==== Sys2Proof/WellFormed.lean ====
section
/-! DEFINITION. Which operands a sender of a command can form: the checks that the operand types do not make by themselves. -/

namespace Sys2Proof

/-- The operands D, A and B that an instruction carries. -/
def SeqInstr.has (i : SeqInstr) (d a b : Bool) : Bool := i.d.isSome == d && i.a.isSome == a && i.b.isSome == b

/-- A read of host memory that answers with `n` bytes. -/
def HostRead.ofLen (r : HostRead) (n : Nat) : Bool :=
  match r with
  | .data b => b.length == n
  | .failed => true

/-- A command that some sender can form. Commands not listed have no operand to check. -/
def Instr.wellFormed : Instr → Bool
  | .registerWrite ws => !ws.isEmpty
  | .descriptorFetch _ _ n r => n != 0 && r.ofLen (64 * n.val)
  | .hostMemoryRead _ _ _ len => len != 0
  | .hostMemoryWrite _ _ _ d => !d.isEmpty
  | .dispatch fs => !fs.isEmpty
  | .ctrlFlit _ c => c.credits.length == 8
  | .dataFlit _ fl _ => fl.body.length == 248 && (fl.typ == 1 || fl.typ == 3)
  | .seqNop _ i => i.has false false false
  | .seqRet _ i => i.has false false false
  | .seqTret _ i => i.has false false false
  | .seqDwait _ i => i.has false false false
  | .seqBr _ _ i => i.has false false false
  | .seqCall _ i => i.has false false false
  | .seqMov _ i => i.has true true false
  | .seqXchg _ i => i.has true true false
  | .seqDrsc _ i => i.has true true false
  | .seqCmp _ i => i.has false true true
  | .seqTst _ i => i.has false true true
  | .seqDcmp _ i => i.has false true true
  | .seqDpass _ i => i.has false true true
  | .seqAdmit _ i => i.has false true true
  | .seqRqend _ i => i.has false true true
  | .seqJmp _ i => i.has false true false
  | .seqScset _ i => i.has false true false
  | .seqScclr _ i => i.has false true false
  | .seqScwait _ i => i.has false true false
  | .seqBarf _ i => i.has false true false
  | .seqBarw _ i => i.has false true false
  | .seqCallt _ i => i.has false true false
  | .seqTrst _ i => i.has false true false
  | .seqCtxsave _ i => i.has false true false
  | .seqCtxload _ i => i.has false true false
  | .seqEvwait _ i => i.has true false false
  | .seqRqtake _ i => i.has true false false
  | .seqAdd _ i => i.has true true true
  | .seqSub _ i => i.has true true true
  | .seqAnd _ i => i.has true true true
  | .seqOr _ i => i.has true true true
  | .seqXor _ i => i.has true true true
  | .seqShl _ i => i.has true true true
  | .seqShr _ i => i.has true true true
  | .seqSar _ i => i.has true true true
  | .seqMul _ i => i.has true true true
  | .seqMin _ i => i.has true true true
  | .seqMax _ i => i.has true true true
  | .seqMinu _ i => i.has true true true
  | .seqMaxu _ i => i.has true true true
  | .seqCas _ i => i.has true true true
  | .seqDivu _ i => i.has true true true
  | .seqRemu _ i => i.has true true true
  | .seqDadd _ i => i.has true true true
  | .seqDsub _ i => i.has true true true
  | .seqDmul _ i => i.has true true true
  | .seqDdiv _ i => i.has true true true
  | .seqGstage _ i => i.has true true true
  | .seqWload _ i => i.has true true true
  | .seqProj _ i => i.has true true true
  | _ => true

end Sys2Proof
end

