-- ==== Sys2Proof/Tests/Slice0.lean ====
section
/-! SUPPORT. Tests of the model: terms that `wellFormed` refuses, small steps with expected results worked out by hand from the spec's
rules (each names its rule), and witnesses: for every statement that has hypotheses, a concrete state and operands that meet them,
clause by clause where it has several. -/

namespace Sys2Proof.Tests

set_option Elab.async false

open Sys2Proof Sys2Proof.Machine

/-! ### Small states -/

/-- The state after a command. -/
def st (c : Instr) (s : State) : State :=
  match exec c s with
  | .next t => t
  | _ => s

/-- The unit with its fields released. -/
def unit0 : State := { State.reset with sec := { released := true } }

/-- Tile 0 of field 0, firing. -/
def run0 (c : Tile) : State := unit0.setTile 0 0 { c with ts := c.ts ||| 0x80000 }
def T0 : Site := .tile 0 0
def cell0 (s : State) : Tile := s.tile 0 0

/-- 64-bit words in SRAM from address 0. -/
def words (l : List Nat) : Tab Byte := Tab.writeBytes zeroByte [] 0 (l.flatMap fun v => bytesLE 8 v)
def word (c : Tile) (a : Nat) : Nat := c.rdSram a 8

def served (r : Except TFault Ev) : Bool :=
  match r with
  | .ok e => !e.stall && e.get.isNone
  | _ => false

/-- Both sources read and the destination takes a value. -/
def reads (x : Site) (w : AccW) (a b : Nat) (s : State) (k : Ev → Bool) : Bool :=
  match readOp x w a 0 { s := s } with
  | .ok (_, e1) => match readOp x w b 0 e1 with
    | .ok (_, e2) => k e2
    | _ => false
  | _ => false
def reads1 (x : Site) (w : AccW) (a : Nat) (s : State) (k : Nat → Ev → Bool) : Bool :=
  match readOp x w a 0 { s := s } with
  | .ok (v, e1) => k v e1
  | _ => false
def readsD (x : Site) (w : AccW) (a d : Nat) (s : State) (k : Ev → Place → Bool) : Bool :=
  match readOp x w a 0 { s := s } with
  | .ok (_, e1) => match readDst x w d 0 e1 with
    | .ok ((_, pl), e2) => k e2 pl
    | _ => false
  | _ => false

/-! ### Well-formedness: one refused term for each check -/

def seqNone : SeqInstr := {}
def opnd : Option SeqOperand := some ⟨0, 0⟩
theorem test_wf_registerWrite : (Instr.registerWrite []).wellFormed = false := by decide
theorem test_wf_descriptorFetch_none : (Instr.descriptorFetch 0 0 0 (.data [])).wellFormed = false := by decide
theorem test_wf_descriptorFetch_length : (Instr.descriptorFetch 0 0 1 (.data [1])).wellFormed = false := by decide
theorem test_wf_hostMemoryRead (p : HostPath) : (Instr.hostMemoryRead 0 p 0 0).wellFormed = false := by cases p <;> decide
theorem test_wf_hostMemoryWrite (p : HostPath) : (Instr.hostMemoryWrite 0 p 0 []).wellFormed = false := by cases p <;> decide
theorem test_wf_ctrlFlit : (Instr.ctrlFlit 0 ⟨0x77, 1, 2, 0, 0, 2, 15, 3, [64]⟩).wellFormed = false := by decide
theorem test_wf_dataFlit : (Instr.dataFlit 0 ⟨1, 0, 0, 0, false, 0, 0, 0, 3, [], [], 1⟩ ⟨[], 0⟩).wellFormed = false := by decide
theorem test_wf_dispatch : (Instr.dispatch []).wellFormed = false := by decide
/-- An operand too many. -/
theorem test_wf_none : ([Instr.seqNop 0, .seqRet 0, .seqTret 0, .seqDwait 0, .seqBr 0 0, .seqCall 0].all fun c =>
    (c { d := opnd }).wellFormed == false) = true := by decide
/-- An operand too few: D and A; A and B; A; D; D, A and B. -/
theorem test_wf_da : ([Instr.seqMov 0, .seqXchg 0, .seqDrsc 0].all fun c => (c { d := opnd }).wellFormed == false) = true := by decide
theorem test_wf_ab : ([Instr.seqCmp 0, .seqTst 0, .seqDcmp 0, .seqDpass 0, .seqAdmit 0, .seqRqend 0].all fun c =>
    (c { a := opnd }).wellFormed == false) = true := by decide
theorem test_wf_a : ([Instr.seqJmp 0, .seqScset 0, .seqScclr 0, .seqScwait 0, .seqBarf 0, .seqBarw 0, .seqCallt 0, .seqTrst 0,
    .seqCtxsave 0, .seqCtxload 0].all fun c => (c seqNone).wellFormed == false) = true := by decide
theorem test_wf_d : ([Instr.seqEvwait 0, .seqRqtake 0].all fun c => (c { a := opnd }).wellFormed == false) = true := by decide
theorem test_wf_dab : ([Instr.seqAdd 0, .seqSub 0, .seqAnd 0, .seqOr 0, .seqXor 0, .seqShl 0, .seqShr 0, .seqSar 0, .seqMul 0, .seqMin 0,
    .seqMax 0, .seqMinu 0, .seqMaxu 0, .seqCas 0, .seqDivu 0, .seqRemu 0, .seqDadd 0, .seqDsub 0, .seqDmul 0, .seqDdiv 0, .seqGstage 0,
    .seqWload 0, .seqProj 0].all fun c => (c { d := opnd, a := opnd }).wellFormed == false) = true := by decide

/-! ### Tile arithmetic -/

/-- Words 5, 7 at 0 and 8; b0 = 8; SAT = 1. -/
def arith : State := run0 { sram := words [5, 7, 2 ^ 63 - 1], b := [(0, 8)] }

theorem wit_TileTwoSourceResults :
    arith.canIssue T0 = true ∧ readsD T0 .w64 0xE0 0xE1 arith (fun e pl => served (writePlace T0 .w64 e pl 12)) = true ∧
    reads T0 .w64 0xE0 0xE1 arith (fun e => served (writeOp T0 .w64 0xE2 0 e 12)) = true ∧
    readsD T0 .w8 0xE0 0 arith (fun e pl => served (writePlace T0 .w8 e pl 12)) = true ∧
    State.reset.canIssue .sloe = true := by decide
theorem wit_TileMovesAndCompares :
    reads1 T0 .w64 0xE0 arith (fun v e => served (writeOp T0 .w64 0xE1 0 e v)) = true ∧
    reads T0 .w64 0xE0 0xE1 arith (fun e => served (.ok e)) = true := by decide

/-- R80: 2^63 − 1 plus 5 saturates under SAT = 1 and sets N = 0, V and OV; C is the carry of the unsigned sum. -/
theorem test_add_saturates : let c := cell0 (st (.tAdd T0 (.t3 3 0xE0 0xE2 0xE4)) arith)
    word c 32 = 2 ^ 63 - 1 ∧ c.flg = ⟨false, false, false, true⟩ ∧ c.tsGet 4 1 = 1 ∧ c.pc = 4 := by decide
/-- Table 4.9: SUB is D − A in C2: 7 − 5. -/
theorem test_sub_order : word (cell0 (st (.tSub T0 (.c2 1 0)) arith)) 8 = 2 := by decide
/-- SUB of T3 is A − B, C the borrow: 5 − 7. -/
theorem test_sub_borrow : let c := cell0 (st (.tSub T0 (.t3 0 0xE0 0xE1 0xE4)) arith)
    c.rdSram 32 1 = 254 ∧ c.flg = ⟨false, true, true, false⟩ := by decide
theorem test_logic : word (cell0 (st (.tAnd T0 (.t3 3 0xE0 0xE1 0xE4)) arith)) 32 = 5 ∧
    word (cell0 (st (.tOr T0 (.t3 3 0xE0 0xE1 0xE4)) arith)) 32 = 7 ∧ word (cell0 (st (.tXor T0 (.t3 3 0xE0 0xE1 0xE4)) arith)) 32 = 2 := by decide
theorem test_mul : word (cell0 (st (.tMul T0 3 0xE0 0xE1 0xE4) arith)) 32 = 35 := by decide
/-- Table 4.10: SAR shifts D by A: −16 >> 3 at 8 bits is −2. -/
theorem test_sar : (cell0 (st (.tSar T0 ⟨0, 0xE0, 0xE1⟩) (run0 { sram := words [3, 0xF0] }))).rdSram 8 1 = 0xFE := by decide
/-- A shift of 9 at 8 bits is one of 1 (A mod W); C is the last bit shifted out. -/
theorem test_shl_mod : let c := cell0 (st (.tShl T0 ⟨0, 0xE0, 0xE1⟩) (run0 { sram := words [9, 0x81] }))
    c.rdSram 8 1 = 2 ∧ c.flg.c = true := by decide
theorem test_shr : (cell0 (st (.tShr T0 ⟨0, 0xE0, 0xE1⟩) (run0 { sram := words [1, 0x81] }))).rdSram 8 1 = 0x40 := by decide
/-- MIN compares signed, MINU unsigned: 0xFF and 1. -/
theorem test_min_max : let s := run0 { sram := words [0xFF, 1] }
    (cell0 (st (.tMin T0 ⟨0, 0xE0, 0xE1⟩) s)).rdSram 8 1 = 0xFF ∧ (cell0 (st (.tMinu T0 ⟨0, 0xE0, 0xE1⟩) s)).rdSram 8 1 = 1 ∧
    (cell0 (st (.tMax T0 ⟨0, 0xE0, 0xE1⟩) s)).rdSram 8 1 = 1 ∧ (cell0 (st (.tMaxu T0 ⟨0, 0xE0, 0xE1⟩) s)).rdSram 8 1 = 0xFF := by decide
/-- NEG and ABS of −128 at 8 bits saturate at 127; NOT, POPC, CLZ of 0x0F. -/
theorem test_one_source : let s := run0 { sram := words [0x80, 0x0F] }
    (cell0 (st (.tNeg T0 ⟨0, 0xE0, 0xE4⟩) s)).rdSram 32 1 = 127 ∧ (cell0 (st (.tAbs T0 ⟨0, 0xE0, 0xE4⟩) s)).rdSram 32 1 = 127 ∧
    (cell0 (st (.tNot T0 ⟨0, 0xE1, 0xE4⟩) s)).rdSram 32 1 = 0xF0 ∧ (cell0 (st (.tPopc T0 ⟨0, 0xE1, 0xE4⟩) s)).rdSram 32 1 = 4 ∧
    (cell0 (st (.tClz T0 ⟨0, 0xE1, 0xE4⟩) s)).rdSram 32 1 = 4 := by decide
/-- CMP takes D − A: 7 − 7 is zero; TST the AND. -/
theorem test_cmp_tst : (cell0 (st (.tCmp T0 (.c2 1 1)) arith)).flg = ⟨true, false, false, false⟩ ∧
    (cell0 (st (.tTst T0 (.t2 3 0xE0 0xE1)) arith)).flg = ⟨false, false, false, false⟩ := by decide
/-- MOV through post-increment: b0 = 8 moves on by 8. -/
theorem test_mov_postinc : let c := cell0 (st (.tMov T0 (.t2 3 0x80 0xE4)) arith)
    word c 32 = 7 ∧ c.breg 0 = 16 := by decide
/-- MX: X extends a displacement: b0 + (8 × 1 + 0) × 8 = 72. -/
theorem test_movx : word (cell0 (st (.tMovx T0 0 1 0xE0 0x00) arith)) 72 = 5 := by decide

/-! ### Base registers, control transfer -/

theorem wit_BaseRegisterInstructions : let c := arith.core T0
    (match locate T0 .w32 false 8 with
     | .ok pl => (match readPlace T0 .w32 { s := arith } pl with | .ok (_, e) => served (.ok e) | _ => false)
     | _ => false) = true ∧
    (match locate T0 .w64 true 8 with
     | .ok pl => served (writePlace T0 .w64 { s := arith } pl (c.breg 0))
     | _ => false) = true := by decide
theorem test_base : (cell0 (st (.tLi T0 1 0xFF) arith)).breg 1 = 2 ^ 32 - 1 ∧ (cell0 (st (.tLsh T0 0 0x34) arith)).breg 0 = 0x834 ∧
    (cell0 (st (.tAddi T0 0 0xF8) arith)).breg 0 = 0 ∧ (cell0 (st (.tShli T0 0 4) arith)).breg 0 = 128 ∧
    (cell0 (st (.tShri T0 0 2) arith)).breg 0 = 2 := by decide
/-- ADDI −8 on 8: Z, and C of the unsigned sum on 32 bits; CMPI writes no register. -/
theorem test_base_flags : (cell0 (st (.tAddi T0 0 0xF8) arith)).flg = ⟨true, false, true, false⟩ ∧
    (cell0 (st (.tCmpi T0 0 9) arith)).flg = ⟨false, true, true, false⟩ ∧ (cell0 (st (.tCmpi T0 0 9) arith)).breg 0 = 8 := by decide
/-- RR: operation in bits [7:5], the other register in [2:0]; 0 copies, 1 adds. -/
theorem test_rr : (cell0 (st (.tRr T0 3 0) arith)).breg 3 = 8 ∧ (cell0 (st (.tRr T0 0 0x20) arith)).breg 0 = 16 := by decide
theorem test_ldb_stb : (cell0 (st (.tLdb T0 2 1) arith)).breg 2 = 7 ∧ word (cell0 (st (.tStb T0 0 3) arith)) 24 = 8 := by decide
theorem test_modes : (cell0 (st (.tSetrnd T0 3) arith)).fxrnd = 3 ∧ (cell0 (st (.tSetsat T0 0) arith)).sat = false ∧
    (cell0 (st (.tArm T0 7) arith)).isArmed 7 = true ∧
    (cell0 (st (.tDisarm T0 7) (run0 { armed := 0xFF }))).armed = 0x7F ∧
    (cell0 (st (.tAclr T0 2) (run0 { acc0 := 1, acc1 := 2 }))).acc1 = 0 := by decide
/-- J16 always (cond 14) by −1 from PC 6 goes to 4; BR with L leaves PC + 4; JR to an odd address faults MISALIGNED with PC kept. -/
theorem test_jumps : (cell0 (st (.tJ16 T0 14 0x1FF) (run0 { pc := 6 }))).pc = 4 ∧
    (let c := cell0 (st (.tBr T0 14 true 2 0xFFFC) (run0 { pc := 6 })); c.pc = 2 ∧ c.breg 2 = 10) ∧
    (let c := cell0 (st (.tJr T0 0) (run0 { pc := 6, b := [(0, 9)] })); c.pc = 6 ∧ c.faultInfo = 0x0009_0004) := by decide
theorem wit_TileControlTransfer : condHolds ⟨true, false, false, false⟩ 0 = some true ∧ condHolds ⟨true, false, false, false⟩ 1 = some false ∧
    (run0 { b := [(7, 8)] }).canIssue T0 = true := by decide

/-! ### Fixed point -/

/-- Products 1 × 1 of eight lanes; two Q0.15 lanes of one half (0x4000). -/
def fixed : State := run0 { sram := words [0x0101_0101_0101_0101, 0x4000_4000, 0xFF] }
theorem wit_TileFixedPoint : reads T0 .w64 0xE0 0xE0 fixed (fun e => served (.ok e)) = true ∧
    reads T0 .w32 0xE1 0xE1 fixed (fun e => served (.ok e)) = true ∧
    reads1 T0 .w32 0xE1 fixed (fun _ e => served (.ok e)) = true ∧
    served (writeOp T0 .w16 0xE4 0 { s := fixed } 3) = true ∧
    readsD T0 .w16 0xE1 0xE1 fixed (fun e pl => served (writePlace T0 .w16 e pl 3)) = true := by decide
theorem test_mac : (cell0 (st (.tMac8 T0 false 0 0) fixed)).acc0 = 8 ∧ (cell0 (st (.tMacq T0 true 1 1) fixed)).acc1 = 0x2000_0000 ∧
    (cell0 (st (.tMac T0 false true true 0 0xE1 0xE1) fixed)).acc0 = 0x2000_0000 := by decide
/-- The accumulator saturates at 2^39 − 1 and sets OV (R82). -/
theorem test_mac_saturates : let c := cell0 (st (.tMac8 T0 false 0 0) (run0 { sram := words [0x0101_0101_0101_0101], acc0 := 0x7F_FFFF_FFFA }))
    c.acc0 = 0x7F_FFFF_FFFF ∧ c.tsGet 4 1 = 1 := by decide
/-- Q0.15: 0x4000 × 0x4000 = 0x2000; the accumulator in Q9.30 read as Q0.15. -/
theorem test_mulq : (cell0 (st (.tMulq T0 ⟨1, 1, 0xE1, 0xE1⟩) fixed)).rdSram 8 2 = 0x2000 := by decide
theorem test_rdacc : (cell0 (st (.tRdacc T0 false ⟨1, 1, 0, 0xE4⟩) (run0 { acc0 := 0x2000_0000 }))).rdSram 32 2 = 0x4000 := by decide
theorem test_wracc : (cell0 (st (.tWracc T0 false ⟨1, 1, 0xE1, 0⟩) fixed)).acc0 = 0x2000_0000 := by decide
/-- WIDEN of Q0.15 one half to 64 bits is Q0.63 one half; NARROW goes back. -/
theorem test_widen : word (cell0 (st (.tWiden T0 ⟨1, 1, 0xE1, 0xE4⟩) fixed)) 32 = 2 ^ 62 := by decide
theorem test_narrow : (cell0 (st (.tNarrow T0 ⟨1, 1, 0xE0, 0xE4⟩) (run0 { sram := words [2 ^ 62] }))).rdSram 32 2 = 0x4000 := by decide

/-! ### Repeats -/

def repeats (n : Nat) : State := run0 { sram := words [5, 7], b := [(0, BitVec.ofNat 32 n), (1, 0), (2, 64)] }
def rep (w : BitVec 2) : RepForm := ⟨w, 0, 1, 2, 1⟩
def mid (cnt : Half) (sp dp : Half) : State := run0 { sram := words [5, 5, 7], ts := 0x80, cnt := cnt, sptr := sp, dptr := dp, step := 8 }
theorem wit_RepeatInstructions : ((repeats 2).core T0).repeat_ = false ∧ (repeats 2).canIssue T0 = true ∧
    ((repeats 2).core T0).breg 0 % 2 ^ 16 ≠ 0 ∧ ((repeats 0).core T0).breg 0 % 2 ^ 16 = 0 ∧
    ((mid 1 0 8).core T0).repeat_ = true ∧ ((mid 1 0 8).core T0).cnt = 1 ∧ ((mid 2 0 8).core T0).cnt ≠ 1 ∧
    (match locate T0 .w64 false 0 with
     | .ok pl => (match readPlace T0 .w64 { s := mid 1 0 8 } pl with
        | .ok (a, e1) => (match locate T0 .w64 true 8 with | .ok pd => served (writePlace T0 .w64 e1 pd a) | _ => false)
        | _ => false)
     | _ => false) = true ∧ signedOf 10 (rep 3).step.toNat = 1 := by decide
/-- R87: a MOVE of 2 elements loads its registers; R88: its last element leaves PC past it. -/
theorem test_rep_start : let c := cell0 (st (.tRepMove T0 (rep 3)) (repeats 2))
    c.repeat_ = true ∧ c.cnt = 2 ∧ c.sptr = 0 ∧ c.dptr = 64 ∧ c.step = 8 ∧ c.pc = 0 := by decide
theorem test_rep_none : let c := cell0 (st (.tRepCmp T0 (rep 3)) (repeats 0)); c.pc = 4 ∧ c.flg.z = true ∧ c.repeat_ = false := by decide
theorem test_rep_move : let c := cell0 (st (.repeatElement T0 0 (rep 3)) (mid 1 16 0)); word c 0 = 7 ∧ c.repeat_ = false ∧ c.pc = 4 := by decide
theorem test_rep_fill : let c := cell0 (st (.repeatElement T0 1 (rep 3)) (mid 2 16 0))
    word c 0 = 7 ∧ c.sptr = 16 ∧ c.dptr = 8 ∧ c.cnt = 1 := by decide
/-- CMP ends at the first difference, SCAN at the first equality. -/
theorem test_rep_cmp_scan : (cell0 (st (.repeatElement T0 2 (rep 3)) (mid 3 0 16))).repeat_ = false ∧
    (cell0 (st (.repeatElement T0 2 (rep 3)) (mid 3 0 8))).cnt = 2 ∧ (cell0 (st (.repeatElement T0 3 (rep 3)) (mid 3 0 8))).repeat_ = false ∧
    (cell0 (st (.repeatElement T0 3 (rep 3)) (mid 3 0 16))).repeat_ = true := by decide
theorem test_rgath : let c := cell0 (st (.tRgath T0 (rep 3)) (repeats 1)); c.cnt = 16 ∧ c.step = 8 ∧ c.repeat_ = true := by decide

/-! ### Firing, signals, cells -/

/-- Tile 0 idle with slot 0 armed at ENTRY 0x100, needing one entry of queue N; slot 1 armed at ENTRY 0x200 with no needs. -/
def armed0 (n : List DWord) : State := unit0.setTile 0 0 { qn := n, armed := 3, desc := [(0, 0x1_0100), (1, 0x200)] }
theorem wit_FiringAndSignals : ((armed0 [7]).tile 0 0).idle = true ∧ (armed0 [7]).needsHold 0 0 0 = true ∧
    (armed0 []).needsHold 0 0 0 = false ∧ (armed0 []).needsHold 0 0 1 = true ∧ ((armed0 []).tile 0 0).isArmed 1 = true ∧
    (match readPlace T0 .w64 { s := arith } (.sram 24) with | .ok (d, e) => (checkDesc 0 d).isNone && served (.ok e) | _ => false) = true ∧
    ((run0 { sig := 2 ^ 31 }).tile 0 0).sig.getLsbD 31 = true ∧ ((run0 { wait := .sig 31 true, ts := 2 ^ 20 }).tile 0 0).frozen = false := by decide
theorem test_done : (cell0 (st (.tDone T0 0) arith)).fired = false := by decide
/-- Table 4.18: FIRE slot 1, 0x0100 (here the descriptor at 0x18 of zeros). -/
theorem test_fire : (cell0 (st (.tFire T0 ⟨1, 24⟩) arith)).isArmed 1 = true := by decide
theorem test_signals : (cell0 (st (.tSset T0 31) arith)).sig = 2 ^ 31 ∧ (cell0 (st (.tSclr T0 31) (run0 { sig := 2 ^ 31 }))).sig = 0 ∧
    (cell0 (st (.tSwait T0 31) arith)).waiting = true ∧ (cell0 (st (.tSwait T0 31) (run0 { sig := 2 ^ 31 }))).pc = 2 ∧
    (cell0 (st (.signalWake 0 0) (run0 { wait := .sig 31 true, ts := 2 ^ 20 }))).pc = 2 := by decide

/-- Tenant 0 has 64 cells from block 2 of the pool on: cell 63 is pool cell 191. -/
def cells0 : State := ((arith.setF F.fldCellAllot_COUNT 1 0 0).setF F.fldCellAllot_BASE 2 0 0).setF F.seqStat_HALTED 0 0
def imm (v : Nat) : Option SeqOperand := some ⟨0xC0, BitVec.ofNat 64 v⟩
def p (k : Nat) : Option SeqOperand := some ⟨BitVec.ofNat 8 k, 0⟩
def sok {α : Type} (r : SRes α) (k : α → SEv → Bool) : Bool :=
  match r with
  | .ok a e => k a e
  | _ => false
theorem wit_CellInstructions : cells0.canIssue T0 = true ∧ 63 < cells0.getF F.fldCellAllot_COUNT 0 (cells0.actTenant 0) * 64 ∧
    cells0.seqCan 0 = true ∧ legality cells0 0 { a := imm 63 } {} false = none ∧
    sok (srcS (seqStart cells0 0) 0 { a := imm 63 } (imm 63)) (fun a e =>
      match e.s.cellIndex 0 (e.s.seqNames 0 { a := imm 63 }) (a % 4096) with | .ok k => k == 191 | _ => false) = true := by decide
theorem test_cset : (((st (.tCset T0 ⟨0, 63⟩) cells0).field 0).cellOps.map (fun q => (q.op, q.cell))) = [(.set, 191)] ∧
    (((st (.tCclr T0 ⟨0, 63⟩) cells0).field 0).cellOps.map (·.op)) = [.clear] ∧
    (cell0 (st (.tCwait T0 ⟨0, 63⟩) cells0)).waiting = true ∧ (cell0 (st (.tCtst T0 ⟨0, 63⟩) cells0)).wait = .cellAck 191 ∧
    (cell0 (st (.tCset T0 ⟨0, 64⟩) cells0)).fault = true := by decide
theorem test_scset : let i : SeqInstr := { a := imm 63, len := 6 }
    ((st (.seqScset 0 i) cells0).seq 0).wait = .cellAck 191 ∧ ((st (.seqScclr 0 i) cells0).seq 0).wait = .cellAck 191 ∧
    ((st (.seqScwait 0 i) cells0).seq 0).wait = .cell 191 := by decide

/-! ### Decimals -/

/-- The case of "Tile instructions": 34.90 in slot 5, 0.85 in slot 6; slot 1 holds no D16 word. -/
def priced : State := run0 { sram := words [0, 0xFFFF_FFFF_FFFF_FFFF, 0x3FF0_0000_0000_0000, 7, 0, 0xC000_0000_0000_3490, 0xC000_0000_0000_0085] }
def dx (sc : BitVec 7) (a d : Byte) : DXForm := ⟨0, sc, a, d⟩
theorem wit_TileDecimal : readsD T0 .w64 0xE6 0xE5 priced (fun e pl => served (writePlace T0 .w64 e pl 1)) = true ∧
    d16Ok 0xC000_0000_0000_3490 = true ∧ d16Ok 0xFFFF_FFFF_FFFF_FFFF = false ∧
    reads T0 .w64 0xE1 0xE5 priced (fun e => served (.ok e)) = true ∧
    reads1 T0 (convFmt 3).1 0xE3 priced (fun _ e => served (writeOp T0 .w64 0xE4 0 e 0)) = true ∧
    reads1 T0 .w64 0xE5 priced (fun _ e => served (writeOp T0 (convFmt 3).1 0xE4 0 e 0)) = true ∧
    (decimal64 false 0x31C0_0000_0000_0005).isSome = true ∧ (decimal64 false 0x7800_0000_0000_0000).isSome = false := by decide
theorem test_dmul_case : let c := cell0 (st (.tDmul T0 (dx 20 0xE6 0xE5)) priced)
    word c 40 = 0xC000_0000_0000_2966 ∧ c.flg = ⟨false, false, false, false⟩ := by decide
/-- 34.90 + 0.85 and 34.90 − 0.85 at scale 2. -/
theorem test_dadd_dsub : word (cell0 (st (.tDadd T0 (dx 20 0xE6 0xE5)) priced)) 40 = 0xC000_0000_0000_3575 ∧
    word (cell0 (st (.tDsub T0 (dx 20 0xE6 0xE5)) priced)) 40 = 0xC000_0000_0000_3405 := by decide
/-- R68: an invalid source gives the largest magnitude with V; DCMP is unordered. -/
theorem test_dadd_invalid : let c := cell0 (st (.tDadd T0 (dx 20 0xE1 0xE5)) priced)
    word c 40 = 0xF999_9999_9999_9999 ∧ c.flg.v = true ∧ c.tsGet 5 1 = 1 := by decide
theorem test_dcmp : (cell0 (st (.tDcmp T0 (dx 20 0xE6 0xE5)) priced)).flg = ⟨false, false, false, false⟩ ∧
    (cell0 (st (.tDcmp T0 (dx 20 0xE5 0xE6)) priced)).flg = ⟨false, true, false, false⟩ := by decide
/-- From scale 2 to scale 1 half to even: 34.90 is 34.9. -/
theorem test_drsc : word (cell0 (st (.tDrsc T0 (dx 19 0xE5 0xE4)) priced)) 32 = 0xC000_0000_0000_0349 := by decide

/-! ### The sequencer -/

/-- Field 0's sequencer at pc 0 with p0 = 5, p1 = 7, and the words of the DDIV case at 0x0_2000. -/
def ratio : Tab Byte := Tab.writeLE zeroByte (Tab.writeLE zeroByte [] 0x2000 8 0xC000_0000_0000_0826) 0x2008 8 0xC000_0000_0000_2966
def seq0 : State := (unit0.setF F.seqStat_HALTED 0 0).setSeq 0 { p := [(0, 5), (1, 7), (3, 0x2000), (6, 0x50)], store := ratio }
def op3 (k : Nat) (a b : Option SeqOperand) : SeqInstr := { d := p k, a := a, b := b, len := 7 }
def pr (s : State) (k : Nat) : Nat := (s.seq 0).preg k
def mayB (s : State) (i : SeqInstr) (l : Legal) (bad : Bool) : Bool := s.seqCan 0 && (legality s 0 i l bad).isNone
/-- Its operands A and B read and D takes a value. -/
def abd (s : State) (i : SeqInstr) : Bool :=
  sok (srcS (seqStart s 0) 0 i i.a) fun _ e1 => sok (srcS e1 0 i i.b) fun _ e2 => sok (dstS e2 0 i i.d) fun pl e3 =>
    sok (writeS e3 0 i pl 1) fun _ _ => true
def ad (s : State) (i : SeqInstr) : Bool :=
  sok (srcS (seqStart s 0) 0 i i.a) fun _ e1 => sok (dstS e1 0 i i.d) fun pl e2 => sok (writeS e2 0 i pl 1) fun _ _ => true
/-- A memory operand of the store: [p3]. -/
def m3 : Option SeqOperand := some ⟨0x23, 0⟩
def at3 : SeqInstr := { d := m3, a := m3, b := p 0, atomic := true, len := 5 }
theorem wit_SequencerArithmetic : mayB seq0 (op3 2 (p 0) (p 1)) legRp false = true ∧ mayB seq0 (op3 2 (p 0) (p 1)) legAt false = true ∧
    mayB seq0 (op3 2 (p 0) (p 1)) {} false = true ∧ abd seq0 (op3 2 (p 0) (p 1)) = true ∧ ad seq0 (op3 2 (p 0) none) = true ∧
    mayB seq0 at3 legAt false = true ∧
    sok (srcS (seqStart seq0 0) 0 at3 at3.b) (fun _ e1 => sok (dstS e1 0 at3 at3.d) fun pl e2 =>
      sok (atomS e2 0 at3 pl (.rmw 2 5) fun v => some (v + 5)) fun _ _ => true) = true ∧
    (let x : SeqInstr := { d := m3, a := p 0 }
     mayB seq0 x {} (isImm x.a) = true ∧ (sok (locS (seqStart seq0 0) 0 x ⟨0, 0⟩ false) fun pa e0 => sok (readS e0 0 x pa.1) fun a e1 =>
      sok (dstS { e1 with incs := e1.incs ++ pa.2 } 0 x x.d) fun pl e2 => sok (atomS e2 0 x pl (.xchg (BitVec.ofNat 64 a)) fun _ => some a)
        fun old e3 => sok (writeS e3 0 x pa.1 old) fun _ _ => true) = true) ∧
    (let x : SeqInstr := { d := m3, a := p 0, b := p 1 }
     abd seq0 x = true ∧ (sok (dstS (seqStart seq0 0) 0 x x.d) fun pl e => sok (atomS e 0 x pl (.cas 5 7) fun v => if v = 5 then some 7 else none)
       fun _ _ => true) = true) := by decide
theorem test_seq_arith : pr (st (.seqAdd 0 (op3 2 (p 0) (p 1))) seq0) 2 = 12 ∧ pr (st (.seqSub 0 (op3 2 (p 0) (p 1))) seq0) 2 = 2 ^ 64 - 2 ∧
    pr (st (.seqMul 0 (op3 2 (p 0) (p 1))) seq0) 2 = 35 ∧ pr (st (.seqShl 0 (op3 2 (p 0) (imm 4))) seq0) 2 = 80 ∧
    pr (st (.seqMin 0 (op3 2 (p 0) (imm (2 ^ 32 - 1)))) seq0) 2 = 2 ^ 64 - 1 ∧ (st (.seqAdd 0 (op3 2 (p 0) (p 1))) seq0).spc 0 = 7 := by decide
/-- R103: division by zero gives all ones, the remainder A, with V. -/
theorem test_div_zero : let t := st (.seqDivu 0 (op3 2 (p 0) (imm 0))) seq0
    pr t 2 = 2 ^ 64 - 1 ∧ (t.seqFlg 0).v = true ∧ pr (st (.seqRemu 0 (op3 2 (p 0) (imm 0))) seq0) 2 = 5 ∧
    pr (st (.seqDivu 0 (op3 2 (p 1) (p 0))) seq0) 2 = 1 := by decide
/-- CMP takes A − B: 5 − 7 borrows. -/
theorem test_seq_cmp : (st (.seqCmp 0 { a := p 0, b := p 1 }) seq0).seqFlg 0 = ⟨false, true, true, false⟩ := by decide
theorem test_seq_atomics : ((st (.seqAdd 0 at3) seq0).seq 0).store = Tab.writeLE zeroByte (seq0.seq 0).store 0x2000 8 0xC000_0000_0000_082B ∧
    (let t := st (.seqCas 0 { d := m3, a := p 1, b := p 1 }) seq0; pr t 0 = 0xC000_0000_0000_0826 ∧ (t.seqFlg 0).z = false) ∧
    pr (st (.seqXchg 0 { d := m3, a := p 1 }) seq0) 1 = 0xC000_0000_0000_0826 := by decide

/-- The case of "The field sequencer": 8.26 ÷ 29.66 to 4 places is 0.2785. -/
def margin : SeqInstr := { mode := 0x0422, d := some ⟨0x43, 2⟩, a := m3, b := some ⟨0x43, 1⟩, len := 9 }
theorem wit_SequencerDecimal : abd seq0 margin = true ∧ mayB seq0 margin legDec (dmBad margin) = true ∧
    mayB seq0 margin { width := false } (dmBad margin) = true ∧
    mayB seq0 { margin with mode := 0x22 } { width := false } (dmBad { margin with mode := 0x22 } || dmRnd { margin with mode := 0x22 } != 0
      || dmSD { margin with mode := 0x22 } != 0) = true ∧
    mayB seq0 { margin with mode := 0x102 } legDec (dmBad { margin with mode := 0x102 } || dmSB { margin with mode := 0x102 } != 0) = true ∧
    ad seq0 margin = true ∧ d16Ok 0xC000_0000_0000_0826 = true ∧ d16Ok 5 = false ∧ d16Val 0xC000_0000_0000_0000 = 0 := by decide
theorem test_ddiv_case : Tab.readLE zeroByte ((st (.seqDdiv 0 margin) seq0).seq 0).store 0x2010 8 = 0xC000_0000_0000_2785 := by decide
/-- R110: a zero divisor gives the largest magnitude under A's sign. -/
theorem test_ddiv_zero : let t := st (.seqDdiv 0 { margin with d := p 2, b := p 4 }) (seq0.setP 0 4 0xC000_0000_0000_0000)
    pr t 2 = 0xC999_9999_9999_9999 ∧ t.flag F.seqStat_DECIMAL_FAULT 0 = true := by decide
theorem test_seq_dadd : Tab.readLE zeroByte ((st (.seqDadd 0 { margin with mode := 0x222 }) seq0).seq 0).store 0x2010 8 = 0xC000_0000_0000_3792 ∧
    (st (.seqDcmp 0 { margin with mode := 0x22 }) seq0).seqFlg 0 = ⟨false, true, false, false⟩ := by decide

theorem wit_SequencerControl : mayB seq0 {} {} false = true ∧ condHolds (seq0.seqFlg 0) 14 = some true ∧ condHolds (seq0.seqFlg 0) 0 = some false ∧
    mayB (seq0.setF F.seqStat_MODE 1 0) {} { tOnly := true } false = true ∧
    (let i : SeqInstr := { op3 2 (p 0) (p 1) with rep := true }
     mayB seq0 i legRp false = true ∧ mayB seq0 i legAt false = true ∧ seq0.getF F.seqRpt_RPT 0 = 0 ∧
     (let s := (seq0.setF F.seqRpt_RPT 1 0).setF F.seqStat_REPEAT 1 0
      s.flag F.seqStat_REPEAT 0 = true ∧ s.getF F.seqRpt_RPT 0 ≠ 0 ∧ ad s i = true)) := by decide
theorem test_seq_control : (st (.seqBr 0 14 { rel := 0xFFFE, len := 4 }) (seq0.setSpc 0 0x10)).spc 0 = 0xE ∧
    (st (.seqBr 0 15 { rel := 0, len := 4 }) seq0).flag F.seqStat_HALTED 0 = true ∧
    (let t := st (.seqCall 0 { rel := 0x100, len := 3 }) seq0; t.spc 0 = 0x100 ∧ pr t 6 = 3) ∧
    (st (.seqJmp 0 { a := p 1, len := 2 }) seq0).spc 0 = 7 ∧ (st (.seqRet 0 { len := 1 }) seq0).spc 0 = 0x50 ∧
    (st (.seqNop 0 { len := 1 }) seq0).spc 0 = 1 := by decide
/-- R108: the last element clears REPEAT and moves pc on. -/
theorem test_rep_element : let i : SeqInstr := { d := p 2, a := p 0, rep := true, len := 4 }
    let t := st (.seqRepElement 0 1 i) ((seq0.setF F.seqRpt_RPT 1 0).setF F.seqStat_REPEAT 1 0)
    pr t 2 = 5 ∧ t.flag F.seqStat_REPEAT 0 = false ∧ t.spc 0 = 4 ∧ t.getF F.seqRpt_RPT 0 = 0 := by decide

/-! ### The block as a whole, its registers -/

theorem wit_StepRunsFront : ∃ s : State, s.pending = [.keyPop, .keyPop] := ⟨{ State.reset with pending := [.keyPop, .keyPop] }, rfl⟩
/-- The queue is first in, first out: two rings of the doorbell. -/
theorem test_step : (match step { State.reset with pending := [.calcDigit 4, .calcDigit 2] } with
    | .next t => t.pending == [.calcDigit 2] && t.sloe.calculator.entry == some ([4], none, false)
    | _ => false) = true := by decide
theorem test_idle : (match step State.reset with | .next t => t.now | _ => 0) = 1 := by decide
theorem test_no_bits : decodeTableWord 16 0x1234 = none := by decide

def wr (src : Source) (r : Reg) (i j v : Nat) : Instr := .registerWrite [⟨src, BitVec.ofNat 26 (r.offset i j), .w64, BitVec.ofNat 64 v⟩]
theorem wit_RegisterWrites : (1 : Nat) < Reg.tilSel.desc.n1 ∧ (0 : Nat) < Reg.hubWinBase.desc.n2 ∧ Reg.fldCellSel.desc.n1 = 92 := by decide
/-- R231: a selector keeps one copy for each source. -/
theorem test_selector : let s := st (wr (.host 0) .hubTblSel 0 0 0x0203) State.reset
    s.reg .hubTblSel 0 0 2 = 0x0203 ∧ s.reg .hubTblSel 0 0 1 = 0 := by decide
/-- R8: a 16-bit write is discarded and logged. -/
theorem test_narrow_write : let s := st (.registerWrite [⟨.sloe, BitVec.ofNat 26 (Reg.hubTblSel.offset 0 0), .w16, 5⟩]) State.reset
    s.reg .hubTblSel 0 0 1 = 0 ∧ s.getF F.hubRsvdWrite_COUNT = 1 ∧ s.getF F.hubRsvdWrite_LAST_OFFSET = Reg.hubTblSel.offset 0 0 := by decide
/-- Table 0.2: CLEAR zeroes the register. -/
theorem test_rsvd_clear : (st (.rsvdWriteClear .sloe) (st (.registerWrite [⟨.sloe, 5, .w16, 5⟩]) State.reset)).reg .hubRsvdWrite 0 0 0 = 0 := by decide
/-- R230: of two writes of one cycle the host's stands, whatever their order in the list. -/
theorem test_write_order : let a : BusWrite := ⟨.sloe, BitVec.ofNat 26 (Reg.hubEpochCopyRate.offset 0 0), .w64, 30⟩
    let b : BusWrite := ⟨.sloe, BitVec.ofNat 26 (Reg.hubEpochCopyRate.offset 0 0), .w64, 35⟩
    (busOrder [⟨.host 1, 0, .w64, 0⟩, a, ⟨.host 0, 0, .w64, 0⟩, b]).map (fun w => w.src.code) = [0, 0, 1, 2] := by decide
theorem wit_RegisterAccessRecords : (5 : Nat) / 8 * 8 ≠ 0xF00 ∧ AccW.bytes .w16 < 4 ∧ (0x10_0004 : Nat) % AccW.bytes .w64 ≠ 0 ∧
    regAt 0x3F_FFF8 = none ∧ tileWindow 0x3F_FFF8 = none ∧ Reg.hbmCntRd.isCount = true ∧ Reg.hbmCntRd.desc.base < 2 ^ 26 ∧
    (∀ x ∈ State.reset.bus.cycle, x.src ≠ Source.sloe.code) ∧ State.reset.hardAt (Reg.hbmCntRd.offset 15 0) ≠ 2 := by decide +kernel
/-- R319: the second half comes from the latch. -/
theorem test_counter_latch : let s := State.reset.setReg .hbmCntRd 0 0 0 0x0000_0001_0000_0002
    let t := st (.counterLatchRead .sloe (BitVec.ofNat 26 (Reg.hbmCntRd.offset 0 0))) s
    ((t.setReg .hbmCntRd 0 0 0 0).busRead .sloe (Reg.hbmCntRd.offset 0 0 + 4) .w32).1 = 1 := by decide +kernel
/-- Tenant 3 is ACTIVE and owned by H1. -/
def owned : State := ((State.reset.setF F.hubTenStat_OWNED 1 3).setF F.hubTenStat_OWNER 1 3).setF F.hubTenStat_STATE 2 3
theorem wit_TenantWriteNeedsOwner : (3 : Nat) < Reg.hubTenCfg.desc.n1 ∧ owned.tenState 3 ≠ 0 ∧ owned.ownerOf 3 ≠ some 0 ∧
    (0x10 : DWord).getLsbD 3 = false ∧ (0x100 : DWord).getLsbD 8 = true := by decide
theorem test_owner_conflict : let s := st (wr (.host 0) .hubTenCfg 3 0 7) owned
    s.reg .hubTenCfg 3 0 0 = owned.reg .hubTenCfg 3 0 0 ∧ s.getF F.hubLastWriter_OUTCOME 0 0 2 = 3 ∧ s.getF F.hubLastWriter_CONFLICTS 0 0 2 = 1 := by
  decide +kernel

/-! ### Operands, SRAM, windows -/

/-- TIL_CIRC0 from 0x100 to 0x120; b7 at its last word. -/
def circ : Tile := { b := [(7, 0x118)], circ0 := 0x0120_0100 }
/-- Table 3.3: after the last word a circular base goes back to START; outside its buffer it is CIRC_RANGE. -/
theorem test_circular : resolve T0 circ .w64 0xBC 0 true false = .ok (0x118, none, circ.setB 7 0x100) ∧
    (match resolve T0 { circ with b := [(7, 0x120)] } .w64 0xBC 0 true false with | .error fl => fl.cause == .circRange | _ => false) = true := by decide
/-- Tables 4.17, 4.18: slot 300 is at 0x0960; b2 + 800. -/
theorem test_s12 : resolve T0 {} .w64 0xEC 9 true false = .ok (0x0960, none, {}) ∧
    resolve T0 { b := [(2, 16)] } .w64 0x14 12 false true = .ok (816, none, { b := [(2, 16)] }) := by decide
theorem test_window_modes : (match resolve T0 {} .w64 0xCC 0 true false with | .ok r => r.2.1 == some (3, false) | _ => false) = true ∧
    (match resolve T0 {} .w64 0xCE 0 true false with | .error fl => fl.cause == .illegal | _ => false) = true := by decide

def marked (k : Nat) : State := run0 { sram := words [5, 7], sramErr := [(1, k)] }
/-- A packet of field 0's tile 1 at tile 0. -/
def pkt (op : PktOp) (ga : Nat) (d : List Byte) : Packet :=
  { id := 9, op := op, cls := .request, tenant := 0, src := .tile 0 1, dst := .tile 0 0, purpose := .gl, access := 4, ga := ga, len := 8, data := d, prev := .done, node := .done }
def tileGa : Nat := 2 ^ 44
def outer (p : Packet) (res : Option Nat) : State :=
  { (arith.setField 0 { resident := res }) with mesh := { pkts := [p], outst := [{ id := 4, agent := .tile 0 0, purpose := .gl, issued := 0, ga := 0, winTenant := 0, winEpoch := 0 }], nextId := 10 } }
theorem wit_SramAccesses : ((marked 2).tile 0 0).errAt 0 = 0 ∧ ((marked 2).tile 0 0).errAt 8 = 2 ∧
    (outer (pkt .write tileGa [1]) (some 0)).inboxReq (.tile 0 0) = some (pkt .write tileGa [1]) ∧
    (outer (pkt .write tileGa [1]) none).residentIs 0 0 = false ∧ (outer (pkt .read tileGa []) (some 0)).residentIs 0 0 = true ∧
    ((outer (pkt (.atomic .tas) tileGa []) (some 0)).tile 0 0).errSpan 0 8 = 0 := by decide
theorem test_remote_write : let t := st (.remoteSramAccess 0 0) (outer (pkt .write tileGa [0xAB, 0xCD]) (some 0))
    (cell0 t).rdSram 0 2 = 0xCDAB ∧ t.mesh.pkts.map (·.op) = [.writeAck] := by decide
theorem test_remote_protection : let t := st (.remoteSramAccess 0 0) (outer (pkt .write tileGa [0xAB]) none)
    (cell0 t).rdSram 0 1 = 5 ∧ t.mesh.pkts.map (·.err) = [.protection] := by decide
theorem test_remote_tas : let t := st (.remoteSramAccess 0 0) (outer (pkt (.atomic .tas) tileGa []) (some 0))
    word (cell0 t) 0 = 1 ∧ t.mesh.pkts.map (·.data) = [bytesLE 8 5] := by decide

/-- Queue N of tile 71 (which has all four neighbours) holds one entry. -/
def T71 : Site := .tile 0 71
def queues : State := unit0.setTile 0 71 { ts := 0x80000, qn := [0x1_0000_0007], ps := [9] }
theorem wit_QueueAndMeshWindows : winFault T71 0 true false = none ∧ (queues.tile 0 71).queue 0 ≠ [] ∧ (queues.tile 0 71).queue 4 = [] ∧
    winFault T71 3 false true = none ∧ queues.room 0 71 3 ≠ 0 ∧ (unit0.setTile 0 71 { ql := List.replicate 16 0 }).room 0 71 4 = 0 ∧
    neighbour 71 0 = some 1 ∧ (4899 : Nat) / 70 = 69 ∧ (queues.tile 0 71).pass 2 = [9] ∧
    (match readOp T71 .w64 (c5 20) 0 { s := queues } with
     | .ok (v, e1) => (match writeOp T71 .w64 (c5 0) 0 e1 v with | .ok e2 => e2.stall | _ => false)
     | _ => false) = true ∧
    ((queues.setTile 0 71 { qn := [7], ts := 0x28_0000 }).tile 0 71).qstall = true ∧
    (let c : Tile := { ts := 0x80000, b := [(0, 0), (1, 64)] }
     let s := (unit0.setTile 0 0 c).setField 0 { resident := some 0 }
     s.gaValid 64 = true ∧ s.gaValid (15 * 2 ^ 44) = false ∧ (65 : Nat) % AccW.bytes .w64 ≠ 0 ∧ c.postsOut < 8 ∧ s.holding 0 = false) ∧
    (let p : Packet := { pkt .writeAck 0 [] with purpose := .put 0 }
     (outer p none).inboxResp (.tile 0 0) (fun q => match q with | .put _ => true | _ => false) = some p) ∧
    (let p : Packet := { pkt .readData 0 [7] with purpose := .get }
     (outer p none).awaited 4 = true ∧
     (outer p none).inboxResp (.tile 0 0) (fun q => match q with | .gl => true | .get => true | _ => false) = some p) := by decide
/-- Table 3.4: a pop at 32 bits gives the low half and takes the entry; the pass-through entry arrives behind. -/
theorem test_pop : let t := st (.tMov T71 (.t2 2 0xC0 0xE0)) queues
    (t.tile 0 71).rdSram 0 4 = 7 ∧ (t.tile 0 71).qn = [] := by decide
theorem test_peek : ((st (.tMov T71 (.t2 2 0xC1 0xE0)) queues).tile 0 71).qn = [0x1_0000_0007] := by decide
theorem test_push : ((st (.tMov T71 (.t2 2 0xC0 0xCC)) queues).tile 0 70).pe = [7] := by decide
theorem test_queue_arrival : ((st (.queueEntryArrival 0 71 .s) queues).tile 0 71).qs = [9] := by decide
theorem test_stall : let t := st (.tMov T71 (.t2 2 0xD0 0xE0)) queues
    (t.tile 0 71).qstall = true ∧ (t.tile 0 71).pc = 0 ∧ ((st (.qstallResume 0 71) t).tile 0 71).qstall = false := by decide
/-- R137: an acknowledged store frees its slot; a refused one is kept. -/
theorem test_posted_ack : let s (e : RespErr) : State := (outer { pkt .writeAck 0 [] with purpose := .put 0, err := e } none).setTile 0 0 { posts := [⟨8, 4, none⟩] }
    (cell0 (st (.postedStoreAck 0 0) (s .ok))).posts = [] ∧
    (cell0 (st (.postedStoreAck 0 0) (s .protection))).posts = [⟨8, 4, some .protection⟩] := by decide
theorem test_get_response : let s := (outer { pkt .readData 0 [7] with purpose := .get } none).setTile 0 0 { wait := .get }
    (cell0 (st (.globalResponse 0 0) s)).got = [(7, .ok)] := by decide

/-! ### Faults, events, outside writes -/

def halted : State := unit0.setTile 0 0 { ts := 0x80E45, faultInfo := 9, pc := 6 }
theorem wit_FaultsAndEvents : (match readOp T0 .w64 0xE1 0 { s := marked 2 } with | .error fl => fl.cause == .poison | _ => false) = true ∧
    reads1 T0 .w16 0xE0 (run0 { b := [(0, 1)] }) (fun v e => match writeOp T0 .w16 0 0 e v with | .error fl => fl.cause == .misaligned | _ => false) = true ∧
    ((run0 { posts := [⟨8, 4, some .poison⟩] }).tile 0 0).posts.find? (fun q => q.failed.isSome) = some ⟨8, 4, some .poison⟩ ∧
    halted.mayReach .sloe 0 = true ∧ halted.mayReach (.host 0) 0 = false ∧ (halted.tile 0 0).fault = true ∧ (arith.tile 0 0).fault = false ∧
    (arith.tile 0 0).canTake = true ∧ (Tile.canTake { wait := .get }) = false ∧
    ((arith.setField 0 { switching := some (0, 1) }).field 0).switching.isSome = true ∧
    ((arith.setField 0 { freezing := true }).field 0).freezing = true ∧ arith.flag F.secBootStat_DEBUG_DIS = false := by decide
theorem test_fault : let c := cell0 (st (.tMov T0 (.t2 3 0xE1 0xE2)) (marked 2))
    c.fault = true ∧ c.pc = 0 ∧ c.faultInfo = 0x8_0009 ∧ word c 16 = 0 := by decide
theorem test_fault_clear : let c := cell0 (st (.faultClear .sloe 0 0) halted)
    c.fault = false ∧ c.faultInfo = 0 ∧ c.tsGet 8 4 = 0 ∧ c.flg = ⟨true, false, true, false⟩ := by decide
theorem test_events : (cell0 (st (.freeze 0 0) (arith.setField 0 { freezing := true }))).frozen = true ∧
    (cell0 (st (.contextSwitchEvent 0 0) (arith.setField 0 { switching := some (0, 1) }))).frozen = true ∧
    (cell0 (st (.debugHalt 0 0) arith)).debugHalted = true ∧
    (cell0 (st (.debugHalt 0 0) (arith.setF F.secBootStat_DEBUG_DIS 1))).debugHalted = false := by decide
theorem wit_TileOutsideWrites : (0xB8 : BitVec 12).toNat % 8 = 0 ∧ (0x180 : BitVec 12).toNat ≥ 0x180 ∧ (0x178 : BitVec 12).toNat < 0x180 ∧
    (halted.tile 0 0).fault = true ∧ (arith.tile 0 0).frozen = false ∧ halted.mayReach (.host 0) 0 = false ∧ halted.mayReach .hub 0 = true ∧
    halted.getF F.tilSel_LTILE 0 0 1 = 0 ∧ (halted.setF F.tilSel_LTILE 4900 0 0 1).getF F.tilSel_LTILE 0 0 1 = 4900 ∧ halted.offline 0 = false ∧
    (checkDesc 0 0x100).isNone = true := by decide
theorem wit_OfflineTile : ((halted.setF F.fldId_OFFLINE 1 0).offline 0) = true ∧ (halted.setF F.fldId_OFFLINE 1 0).mayReach .sloe 0 = true := by decide
theorem test_outside : (cell0 (st (.tileOutsideWrite 0 0 0x08 0x20 true) halted)).pc = 0x20 ∧
    (cell0 (st (.tileOutsideWrite 0 0 0x08 0x20 true) arith)).extDeny = true ∧
    (cell0 (st (.tileWindowWrite .sloe 0 0x10 .w64 7) halted)).breg 0 = 7 ∧
    (st (.tileWindowRead (.host 0) 0 0x10 .w64) halted).getF F.hubLastWriter_OUTCOME 0 0 2 = 3 := by decide

/-! ### Barriers, cells, global accesses, the gather -/

/-- Group 255 expects 2; wafer group 63 is VALID for tenant 0 with EXPECT 1. -/
def groups : State := (((arith.setBar 0 255 ⟨2, 0, false, 0, false⟩).setF F.seqStat_HALTED 0 0).setF F.hubWbar_VALID 1 63).setF F.hubWbar_EXPECT 1 63
theorem wit_BarrierArrivals : groups.canIssue T0 = true ∧ (groups.tile 0 0).posts = [] ∧ (groups.bar 0 255).expect ≠ 0 ∧ (groups.bar 0 254).expect = 0 ∧
    groups.flag F.hubWbar_VALID 63 = true ∧ groups.getF F.hubWbar_OWNER 63 = groups.actTenant 0 ∧ groups.flag F.hubWbar_VALID 62 = false ∧
    mayB groups { a := imm 255 } {} false = true ∧
    sok (srcS (seqStart groups 0) 0 { a := imm 255 } (imm 255)) (fun a e => a % 256 == 255 && a % 64 == 63 && (e.s.seq 0).twait == .none
      && e.s.seqNames 0 { a := imm 255 } == 0) = true := by decide
theorem test_barf : let t := st (.tBarf T0 255) groups
    (cell0 t).wait = .barF 255 false ∧ (t.bar 0 255).arrivals = 1 ∧ (cell0 (st (.tBarf T0 254) groups)).faultInfo = 0xFE_0006 := by decide
theorem test_barw : (st (.tBarw T0 63) groups).wbarArrivals 63 = 1 ∧ ((st (.seqBarf 0 { a := imm 255, len := 6 }) groups).seq 0).wait = .barF 255 false ∧
    ((st (.seqBarw 0 { a := imm 63, len := 6 }) groups).seq 0).wait = .barW 63 false := by decide
def come (n : Nat) : State := { (groups.setBar 0 255 ⟨2, 1, false, n, false⟩) with hub := { wbarArr := [(63, 1)] } }
theorem wit_BarrierPhases : ((come 1).bar 0 255).parity = false ∧ ((come 1).bar 0 255).arrivals ≠ 0 ∧ ((come 0).bar 0 255).arrivals = 0 ∧
    (come 1).hub.wbarInj = false ∧ (come 1).wbarArrivals 63 ≠ 0 ∧
    ((groups.setTile 0 0 { wait := .barF 255 true, ts := 2 ^ 20 }).tile 0 0).wait = .barF 255 true ∧ (groups.bar 0 255).sense ≠ true := by decide
/-- R196, R199: the second of two arrivals flips SENSE; one more overruns. -/
theorem test_barrier : (st (.barrierArrival (.field 0 255)) (come 1)).bar 0 255 = ⟨2, 0, true, 0, false⟩ ∧
    (st (.barrierArrival (.field 0 255)) (come 2)).flag F.fldSyncErr_OVERRUN 0 = true ∧
    (st (.barrierArrival (.wafer 63)) (come 1)).flag F.hubWbar_SENSE 63 = true ∧
    (cell0 (st (.barrierRelease (.field 0 255)) (groups.setTile 0 0 { wait := .barF 255 true, ts := 2 ^ 20 }))).pc = 2 := by decide

def pool (op : CellOp) (c : Cell) : State := arith.setField 0 { cellOps := [⟨.tile 0, op, 5, 0⟩], cells := [(5, c)] }
theorem wit_CellPool : nextCellOp ((pool .set {}).field 0).cellOps = some ⟨.tile 0, .set, 5, 0⟩ ∧ ((pool .test {}).cell 0 5).err = 0 ∧
    (let a : CellAns := ⟨.tile 0, 5, true, false, true⟩
     ((arith.setField 0 { cellAcks := [a] }).field 0).cellAcks.find? (fun b => b.who == .tile 0) = some a) ∧
    (let a : CellAns := ⟨.seq, 5, false, false, false⟩
     ((arith.setField 0 { cellWakes := [a] }).field 0).cellWakes.find? (fun b => b.who == .seq) = some a) := by decide
/-- R191 to R193: a set wakes its waiters and sets the bound signal; a test of a clear cell gives Z = 1. -/
theorem test_cell_set : let t := st (.cellOperation 0) (pool .set { bound := true, sig := 31, tile := 0, waiters := [.seq] })
    (t.cell 0 5).set = true ∧ (t.field 0).cellWakes.map (·.who) = [.seq] ∧ (cell0 t).sig = 2 ^ 31 := by decide
theorem test_cell_ack : let t := st (.cellOperation 0) (pool .test {})
    let u := st (.cellAck 0 (.tile 0)) (t.setTile 0 0 { wait := .cellAck 5 })
    (cell0 u).pc = 4 ∧ (cell0 u).flg.z = true := by decide
theorem test_cell_wake : let s := (arith.setField 0 { cellWakes := [⟨.tile 0, 5, false, false, false⟩] }).setTile 0 0 { wait := .cell 5, ts := 2 ^ 20 }
    (cell0 (st (.cellWake 0 (.tile 0)) s)).pc = 4 := by decide

/-- Window 0 of tenant 0 grants R, W and A on HBM [0, 0x1000]; b0:b1 = 0x40. -/
def wide : State := { ((run0 { sram := words [5, 0x10], b := [(1, 0x40)] }).setField 0 { resident := some 0 }) with hub := { windows := [(0, ⟨0, 0, 15⟩)] } }
def gl : GLForm := ⟨3, 0, 1, 0, 0xE0⟩
theorem wit_GlobalAccesses : wide.canIssue T0 = true ∧ wide.gaCheck false 0 0x40 8 8 .read = none ∧ wide.gaCheck false 0 0x40 8 8 .atomic = none ∧
    wide.gaCheck false 0 0x1000 8 8 .read = some .protection ∧ wide.holding 0 = false ∧
    (match glLocal T0 .w64 false 0xE0 0 { s := wide } with | .ok (_, e) => served (.ok e) | _ => false) = true ∧
    reads1 T0 .w64 0xE0 wide (fun _ e => served (.ok e)) = true ∧ (wide.tile 0 0).holds (wide.granKey 0x40) = false ∧
    Tile.holds { resv := .held 1 0 } (wide.granKey 0x40) = true ∧
    (outer { pkt .readData 0 (bytesLE 8 5) with purpose := .gl } none).awaited 4 = true := by decide
theorem test_gld : let t := st (.tGld T0 gl) wide
    (cell0 t).wait = .gl ⟨0, .w64, 0xE0, 0x40, 0⟩ ∧ t.mesh.outst.map (fun a => a.ga) = [0x40] ∧ (cell0 t).pc = 0 := by decide
/-- R91: an SC without its reservation completes at once; C = 0 only after contention. -/
theorem test_sc_lost : let c := cell0 (st (.tSc T0 gl) wide); c.pc = 4 ∧ c.flg.z = false ∧ c.flg.c = true ∧
    (cell0 (st (.tSc T0 gl) (wide.setTile 0 0 { wide.tile 0 0 with resv := .lost true }))).flg.c = false := by decide
theorem test_tas_response : let s := (outer { pkt .readData 0 (bytesLE 8 0) with purpose := .gl } none).setTile 0 0 { wait := .gl ⟨2, .w64, 0xE0, 0x40, 0⟩, ts := 0x80000 }
    (cell0 (st (.globalResponse 0 0) s)).flg.z = true := by decide
theorem test_gst_lr : (cell0 (st (.tGst T0 gl) wide)).wait = .gl ⟨1, .w64, 0xE0, 0x40, 5⟩ ∧ (cell0 (st (.tLr T0 gl) wide)).wait = .gl ⟨3, .w64, 0xE0, 0x40, 0⟩ ∧
    (cell0 (st (.tTas T0 gl) wide)).wait = .gl ⟨2, .w64, 0xE0, 0x40, 0⟩ := by decide
theorem test_hold_end : (st (.priorityHoldEnd 1) { State.reset with now := 4000, mesh := { holds := [⟨1, 0, 0⟩] } }).mesh.holds = [] := by decide

/-- A gather of 8-byte elements with one to go; b0 = 0, index word 2 at 8: it reads 0x10. -/
def gather (n : Half) : State := wide.setTile 0 0 { wide.tile 0 0 with ts := 0x80080, cnt := n, sptr := 8, dptr := 64, step := 8, sram := words [5, 2], b := [] }
theorem wit_GatherElements : (gather 1).canIssue T0 = true ∧ ((gather 1).tile 0 0).repeat_ = true ∧ ((gather 1).tile 0 0).gath.length < 1 ∧
    Tab.readLE zeroByte ((gather 1).tile 0 0).sram 8 4 = 2 ∧ ((gather 1).tile 0 0).errAt 8 = 0 ∧ (gather 1).gaCheck false 0 0x10 8 1 .read = none ∧
    (gather 1).gaCheck false 0 0x2000 8 1 .read = some .protection ∧
    (outer { pkt .readData 0 (bytesLE 8 5) with purpose := .gather 0 } none).inboxResp (.tile 0 0) (fun q => match q with | .gather _ => true | _ => false) =
      some { pkt .readData 0 (bytesLE 8 5) with purpose := .gather 0 } := by decide
theorem test_gather_issue : let t := st (.repeatElement T0 4 (rep 3)) (gather 1)
    (cell0 t).gath.map (fun g => (g.dst, g.len, g.ga)) = [(64, 8, 16)] ∧ t.mesh.outst.length = 1 := by decide
theorem test_gather_return : let s := (outer { pkt .readData 0 (bytesLE 8 5) with purpose := .gather 0 } none).setTile 0 0 { ts := 0x80080, cnt := 1, step := 8, dptr := 64, gath := [⟨4, 64, 8, [], none, 0⟩] }
    let c := cell0 (st (.gatherElementReturn 0 0) s)
    word c 64 = 5 ∧ c.repeat_ = false ∧ c.pc = 4 := by decide

/-! ### The sequencer: faults, GSTAGE, requests, modes -/

def bare (c : FieldNo → SeqInstr → Instr) (i : SeqInstr) : State := st (c 0 i) seq0
theorem wit_SequencerFaults : seq0.seqCan 0 = true ∧ legality seq0 0 { rep := true } {} false = some { cause := .illegal, addr := 0 } ∧
    legality (seq0.setF F.seqStat_MODE 1 0) 0 {} { width := false, mOnly := true } false = some { cause := .priv, addr := 0 } ∧
    legality (seq0.setSpc 0 0x40000) 0 {} {} false = some { cause := .length, addr := 0x40000 } ∧
    (match srcS (seqStart seq0 0) 0 { a := some ⟨0x31, 0⟩ } (some ⟨0x31, 0⟩) with | .fault fl => fl.cause == .illegal | _ => false) = true ∧
    (match srcS (seqStart seq0 0) 0 { a := some ⟨0x2B, 0⟩ } (some ⟨0x2B, 0⟩) with | .issue _ ga n _ => ga == 0x2000 && n == 8 | _ => false) = true ∧
    (let s := (seq0.setF F.hubWinDrain_HOLDING 1 0).setField 0 { seq0.field 0 with resident := some 0 }
     let i : SeqInstr := { a := some ⟨0x2B, 0⟩, tenant := some 0 }
     let w : State := { s with hub := { windows := [(0, ⟨0, 0x10000, 15⟩)] } }
     (match srcS (seqStart w 0) 0 i i.a with | .hold => true | _ => false) = true) := by decide
theorem test_seq_fault : let t := bare .seqNop { rep := true, len := 1 }
    t.flag F.seqStat_HALTED 0 = true ∧ t.reg .seqFaultInfo 0 0 0 % 256 = 1 ∧ t.spc 0 = 0 := by decide
theorem test_seq_global : let t := bare .seqMov { d := p 2, a := some ⟨0x2B, 0⟩, len := 3 }
    (t.seq 0).wait = .glob ∧ t.mesh.outst.map (fun a => a.ga) = [0x2000] ∧ t.spc 0 = 0 := by decide

/-- Table 7 of tenant 0: 8-byte rows, 100 of them, bank A ACTIVE at 0x1000; row numbers 1 and 2 in the store at 0. -/
def staged : State :=
  let t : Tbl := { baseA := 0x1000, geom := 1 + 100 * 2 ^ 32, stA := 3, registered := true }
  let s : State := { seq0 with hub := { tables := [(7, t)], windows := [(0, ⟨0, 0x10000, 15⟩), (1, ⟨2 ^ 44, 2 ^ 44, 15⟩)] } }
  (s.setField 0 { s.field 0 with resident := some 0, seq := { s.seq 0 with p := [(3, BitVec.ofNat 64 tileGa)], store := Tab.writeLE zeroByte [] 0 8 0x2_0000_0001 } }).setF F.fldCellAllot_COUNT 8 0 0
def gst (b : Nat) : SeqInstr := { tenant := some 0, mode := 7, d := some ⟨0x2B, 0⟩, a := imm 0, b := imm b, len := 20 }
theorem wit_GstageRows : mayB staged (gst 0x5_0002) { width := false } ((gst 0x5_0002).mode.toNat / 2 ^ 8 != 0) = true ∧
    sok (srcS (seqStart staged 0) 0 (gst 0x5_0002) (gst 0x5_0002).a) (fun a e1 => sok (srcS e1 0 (gst 0x5_0002) (gst 0x5_0002).b) fun b e2 =>
      sok (dstS e2 0 (gst 0x5_0002) (gst 0x5_0002).d) fun pl e3 => pl == .glob tileGa && b % 2 ^ 16 == 2 && gaSpace tileGa == 1 &&
        !seqHolds e3.s 0 (gst 0x5_0002) && sok (readRows 0 2 (a % 2 ^ 24) e3) fun r _ => r == [1, 2]) = true ∧
    (staged.seq 0).gst.length < 16 ∧ (match staged.cellIndex 0 0 5 with | .ok k => k == 5 | _ => false) = true ∧
    (let r : GathEl := ⟨4, tileGa, 2, [7, 8], none, 0x1008⟩
     let g : Gst := ⟨0, 0, 3, 5, [r], none, 1⟩
     (g.firstBad.isNone && g.rows.all GathEl.back) = true ∧ ({ g with rows := [{ r with bad := some .poison }] } : Gst).firstBad = some 0) := by
  decide +kernel
theorem test_gstage : let t := st (.seqGstage 0 (gst 0x5_0002)) staged
    (t.seq 0).gst.map (fun g => (g.cell, g.rows.map (fun r => (r.ga, r.dst)))) = [(5, [(0x1008, tileGa), (0x1010, tileGa + 8)])] ∧ t.spc 0 = 20 := by
  decide +kernel
/-- R112: the rows are written, the cell is set by the pool, a KIND 0x05 event follows. -/
theorem test_gstage_done : let r : GathEl := ⟨4, tileGa, 2, [7, 8], none, 0x1008⟩
    let t := st (.gstageDone 0) (staged.setSeq 0 { gst := [⟨0, 0, 3, 5, [r], none, 1⟩] })
    (cell0 t).rdSram 0 2 = 0x807 ∧ (t.field 0).cellOps.map (·.cell) = [5] ∧ (t.seq 0).events = [{ kind := 5, tenant := 0, arg := 3 }] := by
  decide +kernel
theorem test_gstage_fault : let r : GathEl := ⟨4, tileGa, 2, [7, 8], some .poison, 0x1008⟩
    let t := st (.gstageFault 0) (staged.setSeq 0 { gst := [⟨0, 0, 3, 5, [r], none, 1⟩] })
    (t.seq 0).events = [{ kind := 6, tenant := 0, arg := 3 * 256 }] ∧ (t.field 0).cellOps = [] := by decide +kernel

/-- A request of tenant 0 in slot 3, led by field 0, one field. -/
def rq : Req := { port := 0, tenant := 0, ringSlot := 2, seqNo := 77, arrival := 0, desc := List.replicate 64 1, slot := 3, fields := [0], shares := [300], out := true }
def asked (r : Req) (ev : List EvRec) (dl : List Nat) : State :=
  let s : State := { seq0 with hub := { reqs := [r] } }
  s.setSeq 0 { s.seq 0 with events := ev, deliv := dl, taken := some 3 }
/-- The Browse cost profile at 0x100: FIXED_NS = 9,010, PER_CAND_PS = 38,800. -/
def cost : State := (asked { rq with delivered := [0], taken := [0] } [] []).setSeq 0 { (asked rq [] []).seq 0 with store := Tab.writeLE zeroByte [] 0x100 8 (9010 + 38800 * 2 ^ 32) }
theorem wit_SequencerRequests : mayB (asked rq [] []) {} { width := false, mOnly := true } false = true ∧
    sok (dstS (seqStart (asked rq [] []) 0) 0 { d := p 2 } (p 2)) (fun pl e => sok (writeS e 0 { d := p 2 } pl 5) fun _ _ => true) = true ∧
    sok (srcD (seqStart (asked rq [] [3]) 0) 0 { d := p 3 }) (fun d e => d == 0x2000 && (e.s.saCheck 0 d (e.s.spc 0)).isNone &&
      e.s.bySlot 3 == some rq) = true ∧ rq.desc.length = 64 ∧ rq.fields.length = rq.shares.length ∧ rq.lead = 0 ∧ rq.admitted = false ∧
    sok (readDesc (seqStart cost 0) 0 0x100) (fun w _ => w.2 == 0 && w.1 % 2 ^ 32 == 9010) = true := by decide +kernel
theorem test_evwait : (bare .seqEvwait { d := p 2, len := 2 }).seq 0 = { seq0.seq 0 with wait := .ev } ∧
    pr (st (.seqEvwait 0 { d := p 2, len := 2 }) (asked rq [{ kind := 1, tenant := 2, tile := 0, arg := 3 }] [])) 2 = 0x3_0000_0201 := by decide
theorem test_rqtake : let t := st (.seqRqtake 0 { d := p 3, len := 2 }) (asked rq [] [3])
    (t.seqFlg 0).z = false ∧ Tab.readLE zeroByte (t.seq 0).store (0x2000 + 52) 4 = 3 ∧ ((bare .seqRqtake { d := p 3, len := 2 }).seqFlg 0).z = true := by decide
/-- The case of "The field sequencer": 9,010 + 300 × 38.8 = 20,650 ns. -/
theorem test_proj : pr (st (.seqProj 0 { d := p 2, a := imm 0x100, b := imm 300, len := 12 }) cost) 2 = 20650 := by decide +kernel
theorem wit_Decisions : (asked rq [] []).decision { rq with proj := [(0, 1, 5)] } = 0 ∧
    (let s := (asked rq [] []).setTen 0 { hasFb := true }
     let q : Req := { rq with desc := rq.desc.set 0x1E 0 }
     s.decision { q with proj := [(0, 2, 5)] } = 1 ∧ s.decision { q with proj := [(0, 2, 1 + 1000 * q.deadline)] } = 2 ∧
     s.decision { rq with proj := [(0, 2, 5)] } = 2) ∧ (asked rq [] []).decision rq = 2 := by decide
/-- R22: a projection of the full model within the deadline is admitted as FULL; without one the decision is REJECT. -/
theorem test_admit : ((st (.seqAdmit 0 { a := imm 3, b := imm 0, len := 11 }) (asked { rq with proj := [(0, 1, 5)] } [] [])).hub.reqs.map (·.admitted)) = [true] ∧
    (let t := st (.seqAdmit 0 { a := imm 3, b := imm 2, len := 11 }) (asked rq [] [])
     t.hub.reqs = [] ∧ (t.port 0).rejs = [⟨0, 2, 0x10, 77⟩]) := by decide +kernel
theorem test_rqend : let t := st (.seqRqend 0 { a := imm 3, b := imm 0, len := 11 }) (asked { rq with admitted := true, started := true } [] [])
    t.hub.reqs = [] ∧ (t.port 0).pages.map (fun g => (g.seqNo, g.lead)) = [(77, 0)] := by decide +kernel

/-- In T mode at pc 0x40, a context switch pending in the event record. -/
def tmode : State := ((seq0.setF F.seqStat_MODE 1 0).setSpc 0 0x40).setSeq 0 { seq0.seq 0 with events := [{ kind := 8, tenant := 0 }] }
theorem wit_SequencerModes : sok (srcS (seqStart seq0 0) 0 { a := p 1 } (p 1)) (fun a _ => a == 7) = true ∧
    (seq0.setField 0 { seq0.field 0 with resident := some 7 }).residentIs 0 7 = true ∧ (seq0.dense 0).idle = true ∧
    ((seq0.setField 0 { seq0.field 0 with resident := some 7, switching := some (1, 0) }).field 0).switching = some (1, 0) ∧
    tmode.tmode 0 = true ∧ (tmode.seq 0).mustPreempt = true ∧ (tmode.seq 0).wait = .none ∧ seq0.tmode 0 = false ∧
    unit0.released = true ∧ unit0.flag F.seqStat_HALTED 0 = true ∧ (seq0.seq 0).gst = [] := by decide
theorem test_callt : let t := st (.seqCallt 0 { a := p 6, tenant := some 9, len := 3 }) seq0
    t.tmode 0 = true ∧ t.spc 0 = 0x50 ∧ t.getF F.seqStat_TENANT 0 = 9 ∧
    (st (.seqTret 0 { len := 1 }) t).tmode 0 = false ∧ (st (.seqTret 0 { len := 1 }) t).spc 0 = 3 := by decide
theorem test_preempt : let t := st (.seqPreempt 0) tmode; t.tmode 0 = false ∧ t.getF F.seqTpc_PC 0 = 0x40 := by decide
theorem test_reload : let t := st (.microcodeReload 0) unit0; t.flag F.seqStat_HALTED 0 = false ∧ t.spc 0 = 0 := by decide +kernel

/-! ### The dense block -/

/-- A pass of 8 × 1 int8 with output int8: K = 8, N = 1, CLR, FINAL, EVT; one vector. -/
def pass : Pass := { desc := 7 * 2 ^ 16 + 2 ^ 37 + 2 ^ 38 + 2 ^ 40, rslot := 3, vecs := 1, tenant := 0, order := 0, omul := 0x8000, osh := 0, loaded := true }
def dense0 (d : Dense) : State := seq0.setDense 0 d
def wl (d b a : Nat) : SeqInstr := { tenant := some 0, d := p d, a := p a, b := imm b, len := 20 }
theorem wit_DenseInstructions : (let s := staged.setSeq 0 { p := [(3, 512), (4, 0)] }
     mayB s (wl 3 512 4) { width := false } (!s.tmode 0 && (wl 3 512 4).tenant.isNone) = true ∧
     sok (srcS (seqStart s 0) 0 (wl 3 512 4) (p 4)) (fun a e1 => sok (srcS e1 0 (wl 3 512 4) (imm 512)) fun b e2 => sok (srcD e2 0 (wl 3 512 4)) fun d e3 =>
       decide (a < 2 ^ 48) && d == 512 && b == 512 && !seqHolds e3.s 0 (wl 3 512 4)) = true) ∧
    sok (readDesc (seqStart cost 0) 0 0x100) (fun w _ => decide (w.1 < 2 ^ 64)) = true ∧ (dense0 { queue := [pass, pass, pass, pass] }).dense 0 ≠ {} ∧
    mayB seq0 {} { width := false } false = true ∧
    (let w : Wld := ⟨0, some 3, 0, 512, 0, false, [⟨1, 0, 256, List.replicate 256 5, none, 0⟩, ⟨2, 256, 256, List.replicate 256 6, none, 256⟩], none⟩
     (w.rows.all GathEl.back) = true ∧ w.rows.length % 2 = 0) := by decide +kernel
theorem test_wload : let t := st (.seqWload 0 (wl 3 512 4)) (staged.setSeq 0 { p := [(3, 512), (4, 0)] })
    (t.dense 0).wload.map (fun w => (w.off, w.len, w.rows.map (·.ga))) = [(512, 512, [0, 256])] ∧ t.spc 0 = 20 := by decide +kernel
theorem test_wload_complete : let w : Wld := ⟨0, some 3, 0, 512, 0, false, [⟨1, 0, 2, [5, 6], none, 0⟩, ⟨2, 2, 1, [7], none, 2⟩], none⟩
    let t := st (.wloadComplete 0) (dense0 { wload := [w] })
    Tab.get zeroByte (t.dense 0).wbuf 1 = 6 ∧ Tab.get zeroByte (t.dense 0).wbuf 2 = 7 ∧ Tab.get (fun _ => 0) (t.dense 0).wtag 0 = 1 ∧ (t.dense 0).wload = [] := by decide +kernel
theorem test_dpass_dwait : let s := seq0.setSeq 0 { seq0.seq 0 with store := Tab.writeLE zeroByte (Tab.writeLE zeroByte [] 0x100 8 pass.desc) 0x108 8 (3 * 2 ^ 32 + 0x8000) }
    let t := st (.seqDpass 0 { tenant := some 0, a := imm 0x100, b := imm 1, len := 12 }) s
    (t.dense 0).queue = [{ pass with loaded := false }] ∧ ((st (.seqDwait 0 { len := 1 }) t).seq 0).wait = .dwait ∧
    (st (.seqDwait 0 { len := 1 }) seq0).spc 0 = 1 := by decide +kernel
def streaming : State := dense0 { running := some pass, plane := ⟨[(0, 3), (256, 2)]⟩, feed := [(0, [0xFF05])] }
theorem wit_DenseStreaming : lane ((dense0 { feedIn := [(69, [4])] }).dense 0).feedIn 69 = [4] ∧ (streaming.dense 0).running = some pass ∧
    (∀ e, e < pass.inLanes → lane (streaming.dense 0).feed e ≠ []) ∧ pass.inLanes = 1 ∧ pass.outLanes = 1 ∧ pass.wfmt = 0 ∧ pass.final = true ∧
    (0 : Nat) < pass.vecs ∧ (2 : Nat) ≠ 1 ∧ (floatOf 3 0x3FC0).isSome = true := by decide +kernel
/-- R149: the vector 5, −1 on weights 3, 2 gives 13; the pass has one vector and is FINAL. -/
theorem test_vector : let t := st (.vectorEntry 0) streaming
    (Tab.get (fun _ => (0 : BitVec 56)) (t.dense 0).acc (accKey 0 0 0)).toInt = 13 ∧ (t.dense 0).running = none ∧ (t.dense 0).conv.length = 1 := by decide +kernel
theorem test_lanes : let t := st (.feedEntryArrival 0 69) (dense0 { feedIn := [(69, [4])] })
    t.flag F.dnsErr_IDLE_LANE 0 = true ∧ lane ((st (.feedEntryArrival 0 63) (dense0 { feedIn := [(63, [4])] })).dense 0).feed 63 = [4] ∧
    lane ((st (.drainEntryArrival 0 5) (dense0 { drainIn := [(5, [4])] })).dense 0).drain 5 = [4] := by decide +kernel
theorem test_pass_start : let t := st (.passStreamStart 0) (dense0 { queue := [pass], nextLoaded := true, next := ⟨[(0, 3)]⟩ })
    (t.dense 0).running = some pass ∧ (t.dense 0).plane = ⟨[(0, 3)]⟩ ∧ (t.dense 0).queue = [] := by decide +kernel
theorem test_pass_end : ((st (.passEnd 0) (dense0 { ending := [{ pass with desc := 2 ^ 40 }] })).seq 0).events = [{ kind := 4, tenant := 0, arg := 3 }] ∧
    ((st (.conversionDone 0) (dense0 { conv := [⟨pass, 1⟩] })).seq 0).events = [{ kind := 4, tenant := 0, arg := 3 }] := by decide +kernel
/-- A conversion at OMUL = 2^15, OSH = 0 gives the accumulator itself. -/
theorem test_convert : let t := st (.vectorConvert 0) (dense0 { acc := [(0, 13)], conv := [⟨pass, 0⟩] })
    (lane (t.dense 0).drainIn 0) = [13] ∧ (t.dense 0).conv.map (·.next) = [1] := by decide +kernel
/-- The case of R157: A = 0x3020_0000_0000, OMUL = 0x8000, OSH = 0, Tc = 3. -/
theorem test_bf16_case : [2, 1, 0, 3].map (fun rnd => (convertOut 1 rnd true ⟨0x3020_0000_0000 * 0x8000, 3 - 48 - 15⟩).1) = [0x3FC0, 0x3FC1, 0x3FC0, 0x3FC0] := by decide +kernel


/-! ### HBM and the mesh -/

/-- A packet of field 0's tile 1 that has reached stack 0. -/
def hpkt (op : PktOp) (ga : Nat) (d : List Byte) : Packet := { pkt op ga d with dst := .hbm 0 }
def atHbm (p : Packet) (h : Hbm) : State := { outer p (some 0) with hbm := h }
def hwords : Hbm := { bytes := words [5, 7] }
theorem wit_HbmAccesses : (atHbm (hpkt .read 0 []) hwords).inboxReq (.hbm 0) = some (hpkt .read 0 []) ∧ State.reset.inboxReq (.hbm 0) = none ∧
    (atHbm (hpkt (.atomic .tas) 8 []) hwords).inboxReq (.hbm 0) = some (hpkt (.atomic .tas) 8 []) ∧
    (atHbm (hpkt .read 0 []) { hwords with err := [(0, 2)] }).hbmErrAt 0 = 2 ∧ hwords.scrubDue = [] ∧ staged.banksOver 0x1000 8 = [(0, 7, .a)] ∧
    (staged.banksOver 0x1320 8 = [] ∧ staged.banksOver 0x131F 8 = [(0, 7, .a)]) ∧ canonical (atHbm (hpkt .read 0 []) hwords) ∧
    ((atHbm (hpkt .read 0 []) hwords).setF F.hbmStat_OFFLINE 1 0).stackOff 0 = true := by unfold canonical; decide +kernel
theorem wit_HbmStaysCanonical : canonical { atHbm (hpkt .write 8 [9]) hwords with pending := [.hbmAccess 0] } ∧
    (match step { atHbm (hpkt .write 8 [9]) hwords with pending := [.hbmAccess 0] } with | .next _ => true | _ => false) = true := by
  unfold canonical; decide +kernel
theorem test_hbm_read : (st (.hbmAccess 0) (atHbm (hpkt .read 8 []) hwords)).mesh.pkts.map (fun r => (r.op, r.err, r.data)) =
    [(.readData, .ok, bytesLE 8 7)] := by decide +kernel
/-- R164: an uncorrectable error poisons the read; a single-bit error is corrected and counted. -/
theorem test_hbm_error : let t (k : Nat) := st (.hbmAccess 0) (atHbm (hpkt .read 8 []) { hwords with err := [(0, k)] })
    (t 2).mesh.pkts.map (·.err) = [.poison] ∧ (t 2).getF F.hbmErr_UNCORR 0 = 1 ∧ (t 1).mesh.pkts.map (·.err) = [.ok] ∧
    (t 1).getF F.hbmErr_CORR 0 = 1 ∧ (t 1).hbmErrAt 0 = 0 := by decide +kernel
/-- A write takes the bytes; one of zeros leaves nothing listed. -/
theorem test_hbm_write : let t := st (.hbmAccess 0) (atHbm (hpkt .write 0 [0, 0xAB]) hwords)
    t.hbm.bytes = [(1, 0xAB), (8, 7)] ∧ t.mesh.pkts.map (·.op) = [.writeAck] := by decide +kernel
/-- R174: a tile's write into a registered bank is refused. -/
theorem test_hbm_bank : let s := { staged with mesh := (atHbm (hpkt .write 0x1000 [1]) {}).mesh }
    (st (.hbmAccess 0) s).mesh.pkts.map (·.err) = [.protection] ∧ (st (.hbmAccess 0) s).hbm.bytes = [] := by decide +kernel
theorem test_hbm_tas : let t := st (.hbmAccess 0) (atHbm (hpkt (.atomic .tas) 8 []) hwords)
    t.mesh.pkts.map (·.data) = [bytesLE 8 7] ∧ Tab.readLE zeroByte t.hbm.bytes 8 8 = 1 := by decide +kernel
theorem test_scrub : let s := { atHbm (hpkt .read 8 []) { err := [(0, 1), (9, 2), (0x24000000, 1)], scrubDue := [0] } with mesh := {} }
    (st (.patrolScrub 0) s).hbm.err = [(9, 2), (0x24000000, 1)] ∧ (st (.patrolScrub 0) s).getF F.hbmErr_SCRUB_FIX 0 = 1 ∧
    ((st (.hbmErrClear .sloe 0) (st (.patrolScrub 0) s)).reg .hbmErr 0 0 0) = 0 := by decide +kernel

/-- A packet at a node. -/
def at_ (n : Node) (d : Agent) : Packet := { pkt .write 0 [1, 2] with node := n, prev := n, dst := d }
def moving (n : Node) (d : Agent) : State := { outer (at_ n d) none with mesh := { pkts := [at_ n d] } }
def full (n : Nat) : State := { moving (.tile 0 0) (.tile 0 1) with mesh := { pkts := [at_ (.tile 0 0) (.tile 0 1)], debts := [⟨3, .tile 0 0, .tile 0 1, .request, true, n⟩] } }
theorem wit_PacketHops : (moving (.tile 0 0) (.tile 0 1)).mesh.pkts.find? (fun p => p.id == 9) = some (at_ (.tile 0 0) (.tile 0 1)) ∧
    (at_ .done (.tile 0 1)).arrived = true ∧ (at_ (.tile 0 0) (.tile 0 1)).arrived = false ∧
    (moving (.tile 0 0) (.tile 0 1)).blocked (at_ (.tile 0 0) (.tile 0 1)) (.tile 0 1) = false ∧
    (full 270).bufferUsed (.tile 0 0) (.tile 0 1) .request false + 18 ≤ 288 ∧ (moving (.tile 0 0) (.tile 0 1)).nextHop (at_ (.tile 0 0) (.tile 0 1)) = (.tile 0 1, false) ∧
    (moving (.router 0) (.tile 0 1)).pfield 0 = 0 ∧ (moving (.router 40) (.tile 0 1)).pfield 0 ≠ 40 ∧
    (full 270).mesh.debts.find? (fun d => d.id == 3) = some ⟨3, .tile 0 0, .tile 0 1, .request, true, 270⟩ ∧
    (outer (pkt .read 0 []) none).mesh.outst.find? (fun a => a.id == 4) = some ⟨4, .tile 0 0, .gl, 0, 0, 0, 0, false, 256, 4⟩ := by decide +kernel
/-- R131: column before row. -/
theorem test_hop : ((st (.packetHop 9) (moving (.tile 0 0) (.tile 0 71))).mesh.pkts.map (·.node)) = [.tile 0 1] ∧
    ((st (.packetHop 9) (moving (.tile 0 1) (.tile 0 71))).mesh.pkts.map (·.node)) = [.tile 0 71] ∧
    ((st (.packetHop 9) (moving (.tile 0 71) (.tile 0 71))).mesh.pkts.map (·.arrived)) = [true] := by decide +kernel
/-- A buffer of 288 bytes takes 18 more with 270 in it, and no more with 271. -/
theorem test_hop_room : let f (n : Nat) := { full n with mesh := { (full n).mesh with debts := [⟨3, .tile 0 0, .tile 0 1, .request, false, n⟩] } }
    (st (.packetHop 9) (f 270)).mesh.pkts.map (·.node) = [.tile 0 1] ∧ st (.packetHop 9) (f 271) = f 271 ∧
    (st (.routerCreditReturn 3) (f 271)).mesh.debts = [] := by decide +kernel
theorem test_timeout : let s : State := { outer (pkt .read 0 []) none with now := 100000000 }
    (st (.accessTimeout 4) s).mesh.pkts.map (fun r => (r.access, r.err, r.dst)) = [(4, .poison, .tile 0 0)] ∧
    (st (.accessTimeout 4) { s with now := 99999999 }).mesh.pkts = s.mesh.pkts ∧ (st (.accessTimeout 4) s).getF F.fldBrErr_TIMEOUT 0 = 1 := by
  decide +kernel

/-! ### Host rings -/

/-- Port 1's link is up with Bus Master Enable; it owns tenant 2, ACTIVE, whose rings are of 16 slots and 4 pages. -/
def port1 (x : PortSt) : State :=
  let s := ((((((State.reset.setF F.prtLink_UP 1 1).setF F.hubTenStat_OWNED 1 2).setF F.hubTenStat_OWNER 1 2).setF F.hubTenStat_STATE 2 2).setF
    F.prtRqCfg_LOG2 4 1 2).setF F.prtRsCfg_LOG2 2 1 2).setF F.prtRsCfg_BASE 0x10 1 2
  ({ s with now := 60000000 } : State).setPort 1 { x with bme := true }
def ring1 (x : PortSt) : State := ((port1 x).setF F.prtRingCtrl_ENABLE 1 1 2).setF F.prtRqCfg_BASE 0x20 1 2
def rej0 : RejWord := ⟨2, 3, 0x12, 77⟩
def page0 : Page := { tenant := 2, bytes := List.replicate 0x20 1, count := 0, lead := 0, outK := 1, status := 0, seqNo := 5 }
/-- Slot 14 of the lap is next: TAIL 14, HEAD 10. -/
def laps : PortSt := { idx := [(8, 14), (9, 10), (11, 5), (10, 4)], rejs := [rej0], pages := [page0], irqDue := [2] }
theorem wit_HostRings : State.reset.linkUp 1 = false ∧ (ring1 laps).linkUp 1 = true ∧ ((ring1 laps).port 1).index 2 0 = 14 ∧ ((ring1 laps).port 1).index 2 1 = 10 ∧
    (2 : Nat) + 4 ≤ 2 ^ (ring1 laps).getF F.prtRqCfg_LOG2 1 2 ∧ maySource (ring1 laps) .sloe (.port 1) ∧ maySource (ring1 laps) (.host 1) (.port 1) ∧
    ((ring1 laps).port 1).waiting 2 = 2 ∧ ((port1 {}).port 1).waiting 2 = 0 ∧ ((ring1 laps).port 1).rejs.find? (fun r => r.tenant == 2) = some rej0 ∧
    ((ring1 laps).port 1).pages.find? (fun h => h.tenant == 2) = some page0 ∧ (ring1 laps).portIssues 1 = true ∧ (ring1 laps).creditNow 1 = 65536 ∧
    (ring1 laps).flag F.prtRingStat_STALLED 1 2 = false ∧ (1 : Nat) < 2 ^ (ring1 laps).getF F.prtRsCfg_LOG2 1 2 := by unfold maySource; decide +kernel
/-- R244: 14 + 12 fits a ring of 16 with HEAD 10; 14 + 13 does not, and counts. -/
theorem test_doorbell : let t := st (.doorbell 1 2 0 .w32 26) (ring1 laps)
    (t.port 1).published.map (fun e => (e.1, e.2.1)) = (List.range 12).map (fun i => (2, 14 + i)) ∧ (t.port 1).index 2 0 = 26 ∧
    (st (.doorbell 1 2 0 .w32 27) (ring1 laps)).getF F.prtErr_DOORBELL_BAD 1 = 1 ∧ ((st (.doorbell 1 2 8 .w32 26) (ring1 laps)).flag F.prtStat_DOORBELL_BAD 1) = true := by
  decide +kernel
theorem test_rs_head : ((st (.rsHeadWrite 1 2 .w32 5) (ring1 laps)).port 1).index 2 2 = 5 ∧
    (st (.rsHeadWrite 1 2 .w32 6) (ring1 laps)).getF F.prtErr_DOORBELL_BAD 1 = 1 := by decide +kernel
theorem test_ring_enable : let t := st (.ringEnable (.host 1) 1 2 0x0005_0009) (port1 {})
    t.flag F.prtRingCtrl_ENABLE 1 2 = true ∧ t.getF F.prtRingCtrl_VEC 1 2 = 2 ∧ t.getF F.prtRingCtrl_IRQ_GAP 1 2 = 5 ∧
    (st (.ringEnable (.host 1) 1 2 1) (ring1 laps)).flag F.prtRingStat_REFUSED 1 2 = true := by decide +kernel
theorem test_flush : let t := st (.flush (.host 1) 1 2) (ring1 laps)
    (t.port 1).pages = [] ∧ (t.port 1).rejs = [] ∧ t.getF F.prtRingStat_FLUSHED 1 2 = 2 := by decide +kernel
theorem test_ring_config : (st (.ringConfigWrite (.host 1) 1 2 false 0x0123_5007) (port1 {})).reg .prtRqCfg 1 2 0 = 0x0123_5007 ∧
    (st (.ringConfigWrite (.host 1) 1 2 true 0x0123_5007) (ring1 laps)).flag F.prtRingStat_REFUSED 1 2 = true := by decide +kernel
/-- Table 11.6: DONE, the status and SEQ, at offset 0x38 of slot 3. -/
theorem test_reject : let t := st (.rejectWord 1 2) (ring1 laps)
    t.hostOut = [⟨1, 0x20000 + 3 * 64 + 0x38, bytesLE 8 (77 * 2 ^ 16 + 0x100 + 0x12)⟩] ∧ (t.port 1).credit = 65528 ∧ (t.port 1).rejs = [] := by
  decide +kernel
/-- R252, R253: page 5 of a ring of 4 is the second of its second lap, so PHASE is 0. -/
theorem test_page : let t := st (.resultPage 1 2) (ring1 laps)
    t.hostOut = [⟨1, 0x11000, List.replicate 0x18 1 ++ bytesLE 8 60000000⟩, ⟨1, 0x11FF8, bytesLE 8 (5 * 2 ^ 16)⟩] ∧ (t.port 1).index 2 3 = 6 ∧
    (st (.resultPage 1 2) (ring1 { laps with idx := [(11, 3)] })).hostOut.map (·.bytes.take 2) = [[1, 1], [0, 1]] := by decide +kernel
theorem test_stall50 : let t := st (.portStall 1 2) (ring1 laps)
    t.flag F.prtRingStat_STALLED 1 2 = true ∧ t.getF F.prtStat_STALL_TENANTS 1 = 4 ∧ t.reg .rasLog 0 0 0 % 256 = 0x0A ∧
    (st (.ringInterrupt 1 2) (ring1 laps)).msix = [⟨1, 0, 60000000⟩] ∧ ((st (.postedCreditReturn 1 100) (ring1 laps)).port 1).credit = 65636 := by
  decide +kernel

/-! ### Host accesses and requests -/

/-- Window 0 of tenant 2 grants the host 0x1_0000 to 0x1_0FFF. -/
def opened : State := { port1 {} with hub := { windows := [(64, ⟨0x10000, 0x10000, 0x31⟩)] } }
def fpkt (op : PktOp) (d : List Byte) : Packet := { pkt op 0x9000000000 d with dst := .far, hostAt := (1, 0x5000) }
def farAt (op : PktOp) (d : List Byte) : State := { port1 {} with mesh := { pkts := [fpkt op d], nextId := 10 } }
theorem wit_HostAccesses : opened.hostPath 1 .bar4 = true ∧ State.reset.hostPath 1 .bar4 = false ∧ opened.hostWhy 1 .bar4 0x10FF8 8 true = 0 ∧
    opened.hostWhy 1 .bar4 0x10FF9 8 true = 3 ∧ opened.hostWhy 1 .atomicOp 0x10000 8 false = 5 ∧ opened.hostWhy 1 .bar4 0x8FFFFFFFFC 8 false = 1 ∧
    opened.hostWhy 1 .bar4 0x8E0000000 8 false = 2 ∧ (opened.setF F.prtLink_CXL 1 1).hostPath 1 .cxl = false ∧
    ((farAt .read []).mesh.pkts.find? fun k => k.arrived && k.dst == .far && !k.isResp && k.hostAt.1 == 1) = some (fpkt .read []) ∧
    (farAt .write [1]).creditNow 1 = 65536 ∧ (11 : Nat) ≤ (State.reset.setF F.secBootStat_STEP 11).getF F.secBootStat_STEP ∧
    (opened.setF F.prtLink_CXL 1 1).flag F.prtLink_CXL 1 = true := by decide +kernel
theorem wit_HeldAccesses : (let h := opened.setF F.hubWinDrain_HOLDING 1 2
      h.hostHeld 1 0x10000 8 4 = true ∧ opened.hostHeld 1 0x10000 8 4 = false) ∧
    ((opened.setF F.prtLink_CXL 1 1).setF F.prtLink_HDM 1 1).hostPath 1 .cxl = true ∧ opened.linkUp 1 = true ∧
    (opened.setF F.prtLink_CXL 1 1).flag F.prtLink_CXL 1 = true ∧ opened.flag F.prtLink_CXL 1 = false := by decide +kernel
theorem test_host_access : (st (.hostMemoryWrite 1 .bar4 0x10000 [1, 2]) opened).hbm.bytes = [(0x10000, 1), (0x10001, 2)] ∧
    (let t := st (.hostMemoryRead 1 .bar4 0x8E0000000 8) opened
     t.getF F.prtRefuse_WHY 1 = 2 ∧ t.getF F.prtRefuse_ADDR 1 = 0x8E0000000 ∧ t.flag F.prtStat_REFUSE 1 = true) := by decide +kernel
theorem test_far : (st (.farTierAccess 1 (.data [1, 2, 3, 4, 5, 6, 7, 8])) (farAt .read [])).mesh.pkts.map (fun r => (r.op, r.data, r.dst)) =
      [(.readData, [1, 2, 3, 4, 5, 6, 7, 8], .tile 0 1)] ∧
    (st (.farTierAccess 1 .failed) (farAt .read [])).getF F.prtErr_HOST_ERR 1 = 1 ∧
    (st (.farTierAccess 1 .failed) (farAt .write [9])).hostOut = [⟨1, 0x5000, [9]⟩] := by decide +kernel
theorem test_links : let s := State.reset.setF F.secBootStat_STEP 11
    let u := st (.linkUp 1 true true 5 16) s
    u.linkUp 1 = true ∧ u.flag F.prtLink_CXL 1 = true ∧ (st (.linkUp 1 true true 5 16) (s.setF F.prtCfg_CXL_EN 0 1)).flag F.prtLink_CXL 1 = false ∧ u.getF F.prtLink_WIDTH 1 = 16 ∧ (st (.linkUp 1 true true 5 16) State.reset).linkUp 1 = false ∧
    ((st (.busMasterEnable 1 true) u).port 1).bme = true ∧ (st (.linkDown 1) u).getF F.prtLink_DOWNS 1 = 1 ∧
    (st (.hdmDecoderCommit 1) (u.setF F.prtLink_CXL 1 1)).flag F.prtLink_HDM 1 = true ∧ (st (.portReset 1 .flr) u).flag F.prtStat_FLR 1 = true ∧
    (st (.portReset 1 .d3hot) u).linkUp 1 = true := by decide +kernel

/-- A good descriptor: 1 candidate, OUT_K 1, deadline 1. -/
def desc1 : List Byte := List.replicate 0x18 0 ++ bytesLE 2 1 ++ bytesLE 2 0 ++ bytesLE 2 1 ++ [0, 0] ++ bytesLE 4 1 ++ List.replicate 28 0
def published1 : State := port1 { published := [(2, 7, 99)] }
def req1 : Req := { port := 1, tenant := 2, ringSlot := 7, seqNo := 0, arrival := 99, desc := desc1 }
/-- Tenant 2 has field 0 and is resident. -/
def waits (r : Req) : State :=
  let s := ((port1 {}).setF F.hubTenFields0_MASK_LO 1 2).setField 0 { resident := some 2 }
  { s with hub := { reqs := [r] } }
def flying : Req := { req1 with slot := 0x2000, fields := [0], shares := [1], out := true, delivered := [0], admitted := true }
theorem wit_RequestFlow : published1.portIssues 1 = true ∧ (published1.port 1).published.filter (fun e => e.1 == 2) = [(2, 7, 99)] ∧ badDesc desc1 = false ∧
    badDesc (desc1.set 0x18 0) = true ∧ (waits req1).hub.reqs.find? (fun r => !r.out && !(waits req1).flag F.hubEpochStatus_PAUSED r.tenant) = some req1 ∧
    (waits req1).tenState 2 = 2 ∧ 0 ∈ (waits req1).maskFields 2 ∧ (waits req1).offline 0 = false ∧ (waits req1).freeSlot 2 = some 0x2000 ∧
    (waits req1).legalChoice 2 [0] = true ∧ epochRejects 1 5 4 = true ∧ epochRejects 2 0xFFFFFFFF 0 = true ∧
    (waits { flying with delivered := [] }).hub.reqs.find? (fun r => r.out && r.fields.contains 0 && !r.delivered.contains 0) = some { flying with delivered := [] } ∧
    (waits flying).bySlot 0x2000 = some flying := by decide +kernel
theorem test_fetch : let t := st (.descriptorFetch 1 2 1 (.data desc1)) published1
    t.hub.reqs = [req1] ∧ (t.ten 2).seqCtr = 1 ∧
    ((st (.descriptorFetch 1 2 1 .failed) published1).port 1).rejs = [⟨2, 7, 0x3F, 0⟩] := by decide +kernel
theorem test_dispatch : let t := st (.dispatch [0]) (waits req1)
    t.hub.reqs = [{ req1 with slot := 0x2000, fields := [0], shares := [1], out := true }] ∧
    ((st (.dispatch [0]) ((waits req1).setF F.hubTenStat_STATE 3 2)).port 1).rejs = [⟨2, 7, 0x11, 0⟩] ∧
    ((st (.dispatch [0]) (waits { req1 with desc := req1.desc.set 0x1E 2 |>.set 0x24 1 })).port 1).rejs = [⟨2, 7, 0x12, 0⟩] := by decide +kernel
theorem test_delivery : let t := st (.descriptorDelivery 0) (waits { flying with delivered := [] })
    (t.seq 0).deliv = [0x2000] ∧ (t.seq 0).events = [{ kind := 1, tenant := 2, arg := 0x2000 }] := by decide +kernel
theorem test_exchange : let s := waits { flying with proj := [(0, 1, 5)] }
    (st (.projectionExchange 0) s).hub.reqs.map (·.exchanged) = [[(0, 1, 5)]] := by decide +kernel
theorem test_candidates : (st (.candidateFetch 0x2000 (.data (bytesLE 8 1)) (.data [])) (waits flying)).hub.reqs.map (fun r => (r.fetched, r.cands)) = [(true, bytesLE 8 1)] ∧
    (st (.candidateFetch 0x2000 (.data [1]) (.data [])) (waits flying)) = waits flying ∧
    (let t := st (.candidateFetch 0x2000 .failed (.data [])) (waits flying)
     t.hub.reqs = [] ∧ (t.port 1).pages.map (·.status) = [0x3F]) := by decide +kernel

/-! ### Tables, tenants, windows -/

/-- Tenant 0 ACTIVE, owned by H0, which has selected its table 7. -/
def tabled (x : Tbl) : State :=
  let s := (((staged.setF F.hubTenStat_OWNED 1 0).setF F.hubTenStat_STATE 2 0).setF F.hubTblSel_TABLE 7 0 0 1).setF F.hubTblSel_TABLE 7 0 0 2
  s.setTbl 0 7 x
def geo : Tbl := { geom := 1 + 100 * 2 ^ 32, baseA := 0x1000, baseB := 0x2000 }
def flips (x : Tbl) (e : List Nat) : State :=
  let s := (tabled x).setF F.hubEpochStatus_EPOCH 0xFFFF_FFFF 0
  { s with hub := { s.hub with reqs := e.map fun k => { rq with epoch := k } } }
def serving : Tbl := { geo with registered := true, stA := 3, stB := 2 }
def draining : Tbl := { geo with registered := true, stA := 4, endA := 5, stB := 3, copyFwd := true }
theorem wit_TablesAndEpochs : (tabled geo).tblSel 2 = (0, 7) ∧ srcCopy (.host 0) = 2 ∧ maySource (tabled geo) (.host 0) (.tenant 0) ∧
    (tabled geo).registeredTables < 1024 ∧ (tabled geo).bankFits 0x1000 800 = true ∧ (tabled geo).bankFits 0x2000 800 = true ∧
    banksOverlap 0x1000 0x2000 0x1000 = false ∧ banksOverlap 0x1000 0x2000 0x1001 = true ∧ (tabled geo).bankFits 0x8DFFFF000 0x1001 = false ∧
    (tabled { serving with retiring := true }).tbl 0 7 ≠ (tabled serving).tbl 0 7 ∧ canonical (flips serving []) ∧
    (flips serving [1, 2, 3, 4, 5, 6, 7, 8]).epochsOut 0 = [1, 2, 3, 4, 5, 6, 7, 8] ∧ (flips serving []).flag F.hubEpochStatus_PAUSED 0 = false ∧
    ((tabled draining).drained 0 draining .a && !(flips draining [4]).drained 0 draining .a && (flips draining [5]).drained 0 draining .a) = true ∧
    (tabled geo).getF F.hubEpochCopyRate_GBPS ≠ 0 := by unfold maySource canonical; decide +kernel
theorem test_register : (st (.tableRegister (.host 0)) (tabled geo)).tbl 0 7 = { geo with registered := true, stA := 1, stB := 1 } ∧
    ((st (.tableRegister (.host 0)) (tabled { geo with baseB := 0x1100 })).tbl 0 7).refused = true := by decide +kernel
theorem test_bank_commands : let x : Tbl := { serving with stA := 1 }
    let t := st (.ready (.host 0) .a) (tabled x)
    t.tbl 0 7 = x ∧ (st (.readyTakeEffect 0 7 .a) t).tbl 0 7 = { x with stA := 2 } ∧ (st (.unready (.host 0) .b) (tabled x)).tbl 0 7 = { x with stB := 1 } ∧
    (st (.tableRetire (.host 0)) (tabled x)).tbl 0 7 = { x with retiring := true } ∧
    (st (.tableConfigWrite (.host 0) .baseA 0x5000) (tabled x)).tbl 0 7 = { x with baseA := 0x5000 } ∧
    (st (.tableConfigWrite (.host 0) .baseB 0x5000) (tabled x)).tbl 0 7 = { x with refused := true } := by decide +kernel
/-- R179, R180: the epoch after 0xFFFF_FFFF is 0; the READY bank serves, the ACTIVE one drains. -/
theorem test_flip : let t := st (.epochFlip (.host 0) 0) (flips serving [])
    t.getF F.hubEpochStatus_EPOCH 0 = 0 ∧ (t.tbl 0 7).stA = 4 ∧ (t.tbl 0 7).stB = 3 ∧ (t.tbl 0 7).endA = 0 ∧ t.getF F.hubEpochStatus_RESULT 0 = 1 ∧
    (st (.epochFlip (.host 0) 0) t).getF F.hubEpochStatus_RESULT 0 = 4 ∧ (st (.epochPauseEnd 0) t).flag F.hubEpochStatus_PAUSED 0 = false ∧
    (st (.epochFlip (.host 0) 0) (flips { serving with stB := 1 } [])).getF F.hubEpochStatus_RESULT 0 = 2 ∧
    (st (.epochFlip (.host 0) 0) (flips serving [1, 2, 3, 4, 5, 6, 7, 8])).getF F.hubEpochStatus_RESULT 0 = 3 := by decide +kernel
theorem test_drain_copy : let s := tabled draining
    let t := st (.bankDrained 0 7) { s with hbm := { bytes := [(0x2001, 0xAB), (0x1003, 1)] } }
    (t.tbl 0 7).stA = 5 ∧ t.flag F.hubEpochStatus_DRAIN_EVT 0 = true ∧
    (let u := st (.copyForward 0) (t.setF F.hubEpochCopyRate_GBPS 40)
     u.hbm.bytes = [(0x1001, 0xAB), (0x2001, 0xAB)] ∧ (u.tbl 0 7).stA = 1) := by decide +kernel
theorem test_epoch_order : epochBefore 0xFFFFFFFF 0 = true ∧ epochBefore 0 0xFFFFFFFF = false ∧ epochBefore 5 5 = false := by decide

/-- The smallest package of one field: no slices, no store; its SHA-256 is that of 32 bytes of zeros. -/
def pkg1 : List Byte := bytesLE 4 0x4B504D49 ++ [1, 0, 1, 0] ++ List.replicate 0x30 0 ++ bytesLE 8 0x120 ++
  bytesBE 32 0x66687aadf862bd776c8fc18b8e9f8e20089714856ee233b3902a591d0d5f2925 ++ List.replicate 0xC0 0
def packed : State :=
  let s := (((State.reset.setF F.hubTenStat_STATE 1 4).setF F.hubTenStat_OWNED 1 4).setF F.hubTenImg_ADDR 0x1000 4).setF F.hubTenFields0_MASK_LO 1 4
  { s with hbm := { bytes := Tab.writeBytes zeroByte [] 0x1000 pkg1 } }
theorem test_sha256 : sha256 (List.replicate 32 0) = bytesBE 32 0x66687aadf862bd776c8fc18b8e9f8e20089714856ee233b3902a591d0d5f2925 := by decide +kernel
theorem test_package : (packed.readPkg 4).1 = some pkg1 ∧ packed.maskFields 4 = [0] ∧ pkgGood pkg1 1 = true ∧ pkgGood (pkg1.set 6 0) 0 = true ∧ pkgGood (pkg1.set 6 0 |>.set 0x100 1) 0 = false := by
  decide +kernel

/-- Tenants 2 and 5 share field 0; 2 is resident from time 0, its slice of 200 µs is over, 5 has a held request. -/
def shared (x : Field) : State :=
  let s := [(2, 2), (5, 2)].foldl (fun s t => (s.setF F.hubTenStat_STATE t.2 t.1).setF F.hubTenFields0_MASK_LO 1 t.1) State.reset
  { s.setField 0 x with now := 200000, hub := { reqs := [{ rq with tenant := 5, slot := 0x5000 }] } }
def staging (page : Nat) : State :=
  (((owned.setF F.hubWinSel_TENANT 3 0 0 1).setF F.hubWinSel_WINDOW 31 0 0 1).setF F.hubWinBase_PAGE 0x10 0 0 1).setF F.hubWinLimit_PAGE page 0 0 1
def stopping (r : List Req) : State := { owned.setF F.hubTenStat_STATE 3 3 with hub := { reqs := r, windows := [(96, ⟨0, 0, 1⟩), (128, ⟨0, 0, 1⟩)] } }
theorem wit_TenantsAndWindows : State.reset.tenState 4 = 0 ∧ maySource owned (.host 1) (.tenant 3) ∧ maySource owned .sloe (.tenant 3) ∧ owned.tenState 3 = 2 ∧
    packed.tenState 4 = 1 ∧ packed.whyNot 4 false = 4 ∧ packed.whyNot 4 true = 0 ∧ (stopping []).tenState 3 = 3 ∧
    (stopping [{ rq with tenant := 3 }]).hub.reqs.any (fun r => r.out && r.tenant == 3) = true ∧ (shared { resident := some 2 }).tenantsOf 0 = [2, 5] ∧
    (shared {}).groupOf 0 = [0] ∧ rotation [2, 5] 2 = [5] ∧ (shared {}).heldFor 5 [0] = true ∧ ((shared { resident := some 2 }).field 0).sliceTo = none ∧
    ((shared { resident := some 2, switching := some (5, 2) }).field 0).switching = some (5, 2) ∧
    badWindow ⟨0x10000, 0x10000, 3⟩ = false ∧ badWindow ⟨0x10000, 0xF000, 3⟩ = true ∧ badWindow ⟨0x10000, 0xF000, 2⟩ = false ∧
    badWindow ⟨0x8DFFFF000, 0x8DFFFF000, 3⟩ = false ∧ badWindow ⟨0x8DFFFF000, 0x8E0000000, 3⟩ = true ∧ badWindow ⟨3 * 2 ^ 44, 3 * 2 ^ 44, 5⟩ = true ∧
    ((outer (pkt .read 0 []) none).mesh.outst.any fun a => a.winTenant == 0 && a.winEpoch == 0) = true := by unfold maySource; decide +kernel
theorem wit_SliceOver : let s := shared { resident := some 2, sliceTo := some 5 }
    (s.field 0).sliceTo = some 5 ∧ s.passing 0 2 5 = [0] ∧ (s.field 0).switching = none ∧ (s.field 0).quiesce = none ∧
    (∀ r ∈ s.hub.reqs, r.tenant ≠ 2) ∧ ((stopping []).field 0).resident = none := by decide +kernel
/-- The case of "Contested ownership": H0 claims tenant 4 first; H1's CLAIM is a conflict with H0. -/
theorem test_claims : let s := st (.claim (.host 0) 4 0) State.reset
    let t := st (.claim (.host 1) 4 0) s
    s.tenState 4 = 1 ∧ t.getF F.hubTenStat_OWNER 4 = 0 ∧ t.tenState 4 = 1 ∧ t.getF F.hubLastWriter_OFFSET 0 0 3 = 0x6100 ∧
    t.getF F.hubLastWriter_OUTCOME 0 0 3 = 3 ∧ t.getF F.hubLastWriter_WINNER 0 0 3 = 1 := by decide +kernel
theorem test_tenant_states : (st (.stop (.host 1) 3) owned).tenState 3 = 3 ∧ (st (.activate (.host 1) 3) owned).flag F.hubTenStat_REFUSED 3 = true ∧
    (st (.reassign .sloe 3 2) owned).getF F.hubTenStat_OWNER 3 = 2 ∧ (st (.tenantConfigWrite (.host 1) 3 .fields0 5) owned).flag F.hubTenStat_REFUSED 3 = true ∧
    (st (.tenantConfigWrite .sloe 4 .fields0 5) packed).reg .hubTenFields0 4 0 0 = 5 := by decide +kernel
theorem test_stop_complete : let t := st (.tenantStopComplete 3) (stopping [])
    t.tenState 3 = 0 ∧ t.hub.windows = [(128, ⟨0, 0, 1⟩)] ∧ (st (.tenantStopComplete 3) (stopping [{ rq with tenant := 3 }])).tenState 3 = 3 := by decide +kernel
/-- R220, R222: the slice expires, the switch is ordered, and residency stays until the field has loaded. -/
theorem test_switch : let s := st (.sliceExpiry 0) (shared { resident := some 2 })
    let t := st (.contextSwitch 0) s
    (s.field 0).sliceTo = some 5 ∧ (t.field 0).switching = some (5, 0) ∧ (t.seq 0).events = [{ kind := 8, tenant := 5 }] ∧
    st (.residencyChange 0) t = t := by decide +kernel
theorem test_windows : let s := st (.windowCommit .sloe 3) (staging 0x11)
    let t := st (.windowInstall 3 31) s
    t.window 3 31 = ⟨0x10000, 0x11000, 3⟩ ∧ t.getF F.hubWinEpoch_EPOCH 3 = 1 ∧ (st (.windowDrain 3) s).flag F.hubWinDrain_DRAIN 3 = false ∧
    (st (.windowDrain 3) t).flag F.hubWinDrain_DRAIN 3 = true ∧ (st (.windowCommit .sloe 3) (staging 0xF)).flag F.hubWinDrain_REFUSED 3 = true := by
  decide +kernel

/-! ### RAS -/

/-- Tenant 2 resident in field 0, with a firing of the detector injected; or the field frozen. -/
def stuck : State := shared { resident := some 2, dlForce := true }
def froze : State := ((shared { resident := some 2 }).setF F.fldDlStat_FROZEN 1 0).setTile 0 7 { frozen := true, faultInfo := 9 }
theorem wit_DeadlockDetector : (stuck.field 0).resident = some 2 ∧ stuck.flag F.fldDlStat_FROZEN 0 = false ∧ (stuck.field 0).dlForce = true ∧
    maySource froze .sloe (.holder 0) ∧ froze.flag F.fldDlStat_FROZEN 0 = true ∧ (stuck.setF F.fldDlWindow_CYCLES 5 0).dlWindow 0 = 65536 ∧
    (let s := ({ stuck with now := 1000000000 } : State)
     let w := (s.setField 0 { s.field 0 with dlForce := false, seq := { wait := .cell 0 } }).setF F.fldDlWindow_CYCLES 65536 0
     ({ w with hub := { reqs := [{ rq with tenant := 2, fields := [0] }] } } : State).condC 0 = true) := by unfold maySource; decide +kernel
theorem wit_DeadlockReset : (∃ g ∈ ((froze.setSeq 0 { gst := [⟨0, 0, 3, 5, [], none, 1⟩] }).seq 0).gst, g.tenant = 0) ∧ (froze.field 0).dlReset = false ∧
    froze.getF F.fldDlStat_TENANT 0 = 0 ∧ (froze.field 0).switching = none ∧ (froze.field 0).quiesce = none ∧ (froze.seq 0).gst = [] ∧
    ((froze.setField 0 { froze.field 0 with dlReset := true }).field 0).dlReset = true := by decide +kernel
theorem test_refused_thaw : (st (.thaw .sloe 0) stuck).flag F.fldDlStat_REFUSED 0 = true ∧
    ((st (.dlFire .sloe 0) (shared { resident := some 2 })).field 0).dlForce = true ∧ ((st (.cellUncorrInject .sloe 0) stuck).field 0).cellInj = 2 ∧
    ((st (.cellCorrInject .sloe 0) stuck).field 0).cellInj = 1 ∧ ((st (.treeParityInject .sloe 0) stuck).field 0).treeInj = true ∧
    (st (.waferTreeInject .sloe) stuck).hub.wbarInj = true ∧ (st (.syncErrClear .sloe 0) (stuck.setF F.fldSyncErr_TREE_PAR 3 0)).getF F.fldSyncErr_TREE_PAR 0 = 0 ∧
    (st (.wbarErrClear .sloe) (stuck.setF F.hubWbarErr_TREE_PAR 3)).getF F.hubWbarErr_TREE_PAR = 0 := by decide +kernel

def trace0 : Trace := { tenant := 2, seqNo := 77, f := 0, t := 7, pf := 0, pt := 7, slot := 1, entry := 0, regs := [], log := [], crc := 0, start := 0, done := true }
def record0 : WitRec := { trace := trace0, tries := 1, field := 1, since := 0 }
/-- Replays of no output, whose CRC-64 is 0, and of one word. -/
def rep0 : Replay := ⟨[], []⟩
def rep1 : Replay := ⟨[], [1]⟩
def referee0 : WitRec := { record0 with witness := some (1, 9), witPhys := (1, 9), witSig := replaySig rep1 }
/-- Fields 0, 1 and 2 are on physical fields of their own; a record of field 0. -/
def watched (r : WitRec) : State :=
  let s := unit0.setField 0 { recs := [r] }
  { s.setTile 0 7 { trace := some trace0 } with now := 1000000 }
theorem wit_WitnessExecution : (watched record0).doneTrace 0 = some (7, trace0) ∧ (watched record0).witRotate 0 [0] = some 1 ∧
    (watched record0).recordAt 1 false = some (0, record0) ∧ (watched referee0).recordAt 1 true = some (0, referee0) ∧ (watched record0).canReplay 1 0 record0 = true ∧
    (watched record0).witTile 1 record0 = some 0 ∧ (watched referee0).witTile 1 referee0 = some 0 ∧ replaySig rep0 = 0 ∧ replaySig rep1 ≠ 0 ∧
    (watched record0).flag F.hubCntCtrl_FREEZE = false ∧ (watched record0).injected 3 0 = none ∧ (watched record0).suspectAt 0 7 = none ∧
    (watched record0).flag F.rasFencePend_VALID 0 = false ∧ (watched record0).pendFences = [] ∧ ((watched record0).suspect 0 7 false).suspectAt 0 7 = some 0 ∧
    (unit0.tile 0 9).idle = true ∧ unit0.readySlot 0 9 = none ∧ ({ watched record0 with now := 600000000000 } : State).suspectTile 0 9 = false ∧
    (({ watched record0 with now := 86400000000000 } : State).setF F.rasSuspect_VALID 1 5).flag F.rasSuspect_VALID 5 = true := by decide +kernel
theorem test_record_send : let s := (watched record0).setField 0 {}
    ((st (.witnessRecordSend 0) s).field 0).recs = [{ record0 with since := 1000000 }] ∧ ((st (.witnessRecordSend 0) s).tile 0 7).trace = none := by decide +kernel
theorem test_replay : let t := st (.witnessReplay 1 0 rep0) (watched record0)
    (t.field 0).recs = [] ∧ t.getF F.rasWitSamples_COUNT = 1 ∧ t.getF F.rasWitErr_MISMATCH = 0 := by decide +kernel
theorem test_mismatch : let t := st (.witnessReplay 1 0 rep1) (watched record0)
    t.getF F.rasWitErr_MISMATCH = 1 ∧ (t.field 0).recs.map (·.field) = [2] ∧ t.suspectAt 0 7 = some 0 ∧ (t.seq 0).events.length = 1 := by decide +kernel
/-- The referee agrees with the witness: the source's tile is confirmed. -/
theorem test_referee : let t := st (.refereeReplay 1 0 rep1) ((watched referee0).suspect 0 7 false)
    t.getF F.rasWitErr_CONFIRMED = 1 ∧ t.flag F.rasSuspect_CONF 0 = true ∧ (t.field 0).recs = [] := by decide +kernel
theorem test_record_timeout : ((st (.witnessRecordTimeout 0) (watched record0)).field 0).recs.map (fun r => (r.field, r.tries)) = [(2, 2)] ∧
    (st (.witnessRecordTimeout 0) (watched { record0 with tries := 3 })).getF F.rasWitErr_DROPPED = 1 := by decide +kernel
theorem test_suspect_expiry : let s := (watched record0).suspect 0 7 false
    (st (.suspectExpiry 0) { s with now := 1000000 + 86400000000000 }).suspectAt 0 7 = none ∧
    (st (.suspectExpiry 0) { s with now := 999999 + 86400000000000 }).suspectAt 0 7 = some 0 := by decide +kernel
theorem test_self_test : let s (n : Nat) : State := { unit0 with now := n }
    (st (.tileSelfTest 0 9 false) (s 600000000000)).reg .rasLog 0 0 0 % 256 = 6 ∧ (st (.tileSelfTest 0 9 false) (s 600000000000)).pendFences ≠ [] ∧
    st (.tileSelfTest 0 9 true) (s 599999999999) = s 599999999999 ∧ (st (.tileSelfTest 0 9 true) (s 1200000000001)).getF F.rasStStat_ST_LATE = 1 := by decide +kernel

theorem wit_FenceBeatsUnfence : maySource unit0 .sloe (.port (unit0.getF F.rasCtrl_ADMIN)) ∧ unit0.offline 0 = false ∧ unit0.flag F.rasFencePend_VALID 0 = false ∧
    unit0.ptile 0 9 < 8192 := by unfold maySource; decide +kernel
def fenced : State := st (.fence .sloe 0 9 0) unit0
theorem wit_FencesAndRetirement : maySource unit0 .sloe (.port (unit0.getF F.rasCtrl_ADMIN)) ∧ fenced.flag F.rasFencePend_VALID 0 = true ∧ unit0.offline 0 = false ∧
    (4900 : Nat) < 2 ^ 13 ∧ fenced.released = true ∧ (fenced.field 0).quiesce = none ∧ unit0.ras.st = none ∧ (mapOf [9]).isSome = true ∧ mapOf [0, 1, 2] ≠ none ∧ mapOf [0, 1, 2, 72, 73, 74, 144, 145, 146] = none ∧
    (unit0.setF F.fldPmap_ROLE 1 95).spares = [95] ∧ (mapOf ((unit0.setF F.fldPmap_ROLE 1 95).badOf 95)).isSome = true := by unfold maySource; decide +kernel
theorem wit_QuiescesAndTests : (let s := fenced
     s.flag F.rasFencePend_CMD 0 = true ∧ Tab.get (fun _ => 0) s.ras.fenceAt 0 = s.now ∧ Tab.get (fun _ => 0) s.ras.fenceDue 0 ≤ s.now) ∧
    (unit0.ras.st = none ∧ (unit0.field 1).quiesce = none ∧ (unit0.field 1).switching = none) ∧ unit0.stackBad 5 = false ∧
    ((unit0.setField 0 { quiesce := some ⟨2, 0, 100000000, 0, false⟩ }).field 0).quiesce = some ⟨2, 0, 100000000, 0, false⟩ ∧ unit0.spares = [] ∧
    0 ∈ ({ unit0 with ras := { retire := [0] } } : State).ras.retire := by decide +kernel
theorem test_fence_list : fenced.pendFences.length = 1 ∧ (st (.fence .sloe 0 4900 0) unit0).flag F.rasCtrl_REFUSED = true ∧
    ({ st (.unfence .sloe 0 9) { fenced with now := 1 } with now := 0 } : State).pendFences = [] ∧ (st (.unfence .sloe 0 9) fenced).pendFences.length = 1 ∧
    (st (.retire .sloe 0) unit0).ras.retire = [0] ∧ (st (.commandedSelfTest .sloe 2 5) unit0).ras.st = some (2, 5, 0) ∧
    (st (.commandedSelfTest .sloe 2 16) unit0).flag F.rasCtrl_REFUSED = true := by decide +kernel
theorem test_resumes : let s (k n : Nat) : State := { (unit0.setF F.fldDlStat_FROZEN 1 0).setField 0 { quiesce := some { kind := k, start := 0, len := 30000000, fences := 2 } } with now := n }
    ((st (.fenceResume 0) (s 0 30000000)).field 0).quiesce = none ∧ (st (.fenceResume 0) (s 0 30000000)).reg .rasLog 0 2 0 = 2 ∧
    ((st (.fenceResume 0) (s 0 29999999)).field 0).quiesce ≠ none ∧ ((st (.retirementResume 0) (s 1 30000000)).field 0).quiesce = none := by decide +kernel
theorem test_st_done : let s : State := { unit0.setF F.rasStStat_BUSY 1 with now := 2500000000, ras := { st := some (2, 5, 0) } }
    (st (.stDone ⟨[], true⟩) s).flag F.hbmStat_OFFLINE 5 = true ∧ (st (.stDone ⟨[], false⟩) s).getF F.rasStStat_RESULT = 1 ∧
    (st (.stDone ⟨[], true⟩) { s with now := 2499999999 }).ras.st = some (2, 5, 0) := by decide +kernel

theorem wit_RasInjection : maySource unit0 .sloe (.port (unit0.getF F.rasCtrl_ADMIN)) ∧ regAt (Reg.hubTenFields0.offset 3 0) = some (.hubTenFields0, 3, 0) ∧
    Reg.hubTenFields0.hardened = true ∧ ({ unit0 with ras := { hard := [(0x60D0, [1, 0, 0])] } } : State).hardAt 0x60D0 = 1 ∧ unit0.sloe.stopped = false ∧
    (port1 {}).portIssues 1 = true ∧ (port1 {}).creditNow 1 ≠ 0 ∧ ({ port1 {} with ras := { notifyDue := [1] } } : State).ras.notifyDue = [1] := by
  unfold maySource; decide +kernel
theorem test_injections : (st (.rasInject .sloe 0x4801) unit0).tile 72 0 = { sramInj := 1 } ∧ (st (.rasInject .sloe 0x5C01) unit0).flag F.rasCtrl_REFUSED = true ∧
    (st (.rasInject .sloe 0x13) unit0).port 0 = { withheldUntil := 60000000 } ∧ (st (.rasInject .sloe 0x16) unit0).flag F.rasCtrl_REFUSED = true := by decide +kernel
theorem test_scrub_hardened : let s (k : Nat) : State := { unit0.setReg .hubTenFields0 3 0 0 7 with ras := { hard := [(Reg.hubTenFields0.offset 3 0, [1, k, 0])] } }
    let c : Instr := .hardenedScrub (BitVec.ofNat 26 (Reg.hubTenFields0.offset 3 0))
    (st c (s 0)).reg .hubTenFields0 3 0 0 = 7 ∧ (st c (s 0)).getF F.rasHard_CORR = 1 ∧ (st c (s 1)).reg .hubTenFields0 3 0 0 = 0 ∧
    (st c (s 1)).getF F.rasHard_UNCORR = 1 ∧ (st (.rasHardClear .sloe) (st c (s 1))).getF F.rasHard_UNCORR = 0 := by decide +kernel
theorem test_notify : (st (.rasNotify 1) { port1 {} with ras := { notifyDue := [1] } }).msix = [⟨1, 0, 60000000⟩] := by decide +kernel

/-! ### Power -/

/-- At time 10 ms only field 0 is online, and its tile 0 runs: the field is not quiet. -/
def busy : State :=
  let s := (upTo 91).foldl (fun s f => s.setF F.fldId_OFFLINE 1 (f + 1)) (unit0.setTile 0 0 { ts := 0x80000 })
  { s.setF F.pwrLendThreshold_US 200 with now := 10000000 }
/-- The field quiet, since time 0. -/
def cool : State := busy.setTile 0 0 {}
/-- Field 0, woken, lends 50 W, which are free. -/
def lent0 : State :=
  let s := (busy.setPfld 0 { lent := 200 }).setF F.pwrFldStat_LENDING 1 0
  { s.setField 0 { s.field 0 with woken := true } with pwr := { (busy.setPfld 0 { lent := 200 }).pwr with free := 200 } }
theorem wit_PowerManager : cool.released = true ∧ cool.offline 0 = false ∧ cool.quiet 0 = true ∧ cool.flag F.pwrFldReq_PIN 0 = false ∧
    cool.flag F.pwrFldStat_LENDING 0 = false ∧ (cool.pfld 0).recallAt = none ∧ opQ (cool.heldOp 0) < cool.baseQ ∧
    cool.baseQ ≤ opQ (((cool.setF F.pwrCfg_KEEP_OP 0).setF F.pwrFldReq_FLOOR_OP 0 0).heldOp 0) ∧
    lent0.flag F.pwrFldStat_LENDING 0 = true ∧ (lent0.field 0).woken = true ∧
    (lent0.pfld 0).lent ≤ lent0.pwr.free ∧ maySource cool .sloe (.port (cool.getF F.pwrCfg_ADMIN)) ∧ cool.getF F.hubCntCtrl_FREEZE = 0 ∧
    (3 < 8 ∧ cool.ceil 0 ≤ 3 ∧ cool.getF F.pwrFldReq_CAP_OP 0 ≤ 3 ∧ opQ 3 ≤ cool.credit 0) ∧
    ((cool.setF F.pwrFldStat_TEMP 100 0).getF F.pwrFldStat_TEMP 0 = 100 ∧ (cool.pfld 0).thermAt + 1000000 ≤ cool.now) ∧
    cool.envelope = 11500 ∧ cool.onlineFields ≠ [] ∧ (cool.setF F.pwrFldReq_PIN 1 0).flag F.pwrFldReq_PIN 0 = true := by unfold maySource; decide +kernel
theorem wit_PowerSettled : (∀ g ∈ cool.onlineFields, cool.flag F.pwrFldStat_LENDING g = false) ∧ cool.flag F.pwrCfg_BOOST = false ∧
    (let s := (lent0.setF F.pwrCfg_KEEP_OP 6)
     (∀ g ∈ s.onlineFields, s.flag F.pwrFldStat_LENDING g = true → (s.pfld g).lent = s.baseQ - opQ (s.heldOp g)) ∧
     (∀ g ∈ s.onlineFields, (s.pfld g).borrowed ≤ s.needQ g)) ∧
    (∀ g ∈ cool.onlineFields, (cool.pfld g).borrowed ≤ cool.needQ g) ∧
    (cool.getF F.pwrFldStat_OP 0 = 7 ∧ cool.targetOp 0 = 3 ∧ cool.getF F.pwrFldStat_RAIL 0 < opRail 3) ∧
    (let s := cool.setF F.pwrFldStat_RAIL (opRail 3) 0
     opRail 3 ≤ s.getF F.pwrFldStat_RAIL 0 ∧ (s.pfld 0).railAt ≤ s.now ∧ ((s.setPfld 0 { railAt := s.now + 1 }).pfld 0).railAt > s.now ∧
     (s.setF F.pwrFldStat_OP 3 0).targetOp 0 = 3 ∧ ((s.setF F.pwrFldStat_OP 1 0).getF F.pwrFldStat_OP 0 < (s.setF F.pwrFldStat_OP 1 0).targetOp 0)) := by decide +kernel
/-- The case of "Power and performance": a base credit of 105 W that keeps OP6 lends 50 W. -/
theorem test_lend : let t := st (.lend 0) (cool.setF F.pwrCfg_KEEP_OP 6)
    cool.baseQ = 420 ∧ (t.pfld 0).lent = 200 ∧ t.flag F.pwrFldStat_LENDING 0 = true := by decide +kernel
theorem test_recall : let t := st (.recall 0) lent0
    t.flag F.pwrFldStat_LENDING 0 = false ∧ (t.pfld 0).recallAt = some 10000000 ∧ (t.pfld 0).lent = 200 ∧ t.pwr.free = 0 ∧
    ((st (.recallComplete 0) t).pfld 0).lent = 0 ∧ (st (.recallComplete 0) t).getF F.pwrFldStat_CREDIT_Q 0 = 420 := by decide +kernel
/-- Step 3 of the night's case (spec/14): a field at OP1 on 26 W of borrowed credit drops to OP2 at 100 °C and returns 14 W. -/
theorem test_credit_returned :
    let s := { (((busy.setPfld 0 { borrowed := 104, therm := 1 }).setF F.pwrCfg_BOOST 1).setF F.pwrFldReq_CAP_OP 1 0) with now := 60000000 }
    let t := st (.junctionSense 0 100 0 0 0) s
    s.targetOp 0 = 1 ∧ t.targetOp 0 = 2 ∧ (t.pfld 0).borrowed = 48 ∧ t.pwr.free = 56 ∧ t.getF F.pwrClampStatus_NOW 0 = 1 := by decide +kernel
/-- R305: to a faster point the rail rises first, 152 steps of 5 mV in 7.6 µs, and the clock follows. -/
theorem test_op : let u := st (.opTransition 0) busy
    let t := st (.opTransition 0) { u with now := u.now + 7600 }
    st (.opTransition 0) u = u ∧ t.getF F.pwrFldStat_OP 0 = 3 ∧ t.getF F.pwrFldStat_RAIL 0 = 152 ∧
    (st .opReevaluation (st (.fieldReqWrite .sloe 0 (5 + 7 * 2 ^ 4)) busy)).targetOp 0 = 5 := by decide +kernel
theorem test_thermal : let t := st (.junctionSense 0 99 100 20 30) busy
    (t.pfld 0).therm = 1 ∧ ((st (.thermalCeilingStep 0) { t with now := 11000000 }).pfld 0).therm = 2 ∧ ((st (.junctionSense 0 110 0 0 0) busy).pfld 0).therm = 7 ∧
    (st (.hbmThermalCeiling 0 95) busy).ceil 0 = 5 ∧ (st (.hbmThermalCeiling 0 94) busy).ceil 0 = 0 ∧ ((st (.currentCeiling 0 191) busy).pfld 0).cur = 1 := by
  decide +kernel
theorem test_envelope : let t := st (.envelopeCeiling 11501) busy
    (t.pfld 0).env = 1 ∧ t.getF F.pwrStat_INPUT_W = 11501 ∧ t.getF F.pwrEnergy_COUNT = 1150 ∧ ((st (.envelopeCeiling 11500) busy).pfld 0).env = 0 ∧
    (st (.lendThresholdWrite .sloe 0) lent0).flag F.pwrFldStat_LENDING 0 = false := by decide +kernel

/-- Link domain 112 and its link 0 ramp; domain 5 is on. -/
def domains : State := { (((unit0.setF F.pwrDom_STATE 1 112).setF F.pwrDom_STATE 2 5).setF F.fldPmap_ROLE 0 5).setF F.fldPmap_LFIELD 7 5 with now := 500000 }
theorem wit_PowerDomains : domains.getF F.pwrDom_STATE 112 = 1 ∧ Tab.get (fun _ => 0) domains.pwr.rampAt 112 + 500000 ≤ domains.now ∧
    domains.getF F.pwrDom_STATE 5 = 2 ∧ domains.getF F.pwrDom_STATE 147 ≠ 2 ∧ maySource domains .sloe (.port (domains.getF F.pwrCfg_ADMIN)) ∧
    domains.getF F.fldPmap_ROLE 5 = 0 ∧ (domains.setF F.pwrDom_STATE 3 112).getF F.pwrDom_STATE 112 = 3 := by unfold maySource; decide +kernel
theorem test_domains : (st (.domainOffReq .sloe 5 true) domains).flag F.pwrDom_REFUSED 5 = true ∧
    (st (.domainOffReq .sloe 112 true) domains).getF F.pwrDom_STATE 112 = 0 ∧ (st (.domainRampDone 112) domains).getF F.pwrDom_STATE 112 = 2 ∧
    (st (.domainRampDone 112) { domains with now := 499999 }).getF F.pwrDom_STATE 112 = 1 := by decide +kernel
theorem test_domain_fault : let t := st (.domainFault 5) domains
    t.getF F.pwrDom_STATE 5 = 3 ∧ t.ras.retire = [7] ∧ t.getF F.pwrDom_FAULTS 5 = 1 ∧
    (st (.domainFault 100) (domains.setF F.pwrDom_STATE 2 100)).flag F.hbmStat_OFFLINE 4 = true := by decide +kernel
theorem test_counters : let s := domains.setReg .hbmCntRd 2 0 0 5
    (st (.freezeCounters .sloe true) s).flag F.hubCntCtrl_FREEZE = true ∧ (st (.zeroCounters .sloe) s).reg .hbmCntRd 2 0 0 = 0 := by decide +kernel

/-! ### Links -/

/-- A group of two all-to-all units, this one number 0; link 0 in state `v`. -/
def two (v : Nat) : State :=
  ((((unit0.setF F.tchUnit_TOPO 2).setF F.tchUnit_GSIZE 2).setF F.tchUnit_GROUP_ID 0x77).setF F.tchLinkStat_STATE v 0).setF F.tchLinkCtrl_EN 1 0
def ctrl1 : CtrlFlit := ⟨0x77, 1, 2, 0, 0, 2, 15, 3, List.replicate 8 64⟩
def sent (n : Nat) : SentFlit := ⟨n, 0, 0, 31, 0, 0, 0, []⟩
def live (l : Link) : State := { (two 5).setLink 0 l with now := 10000 }
def zeros : List Byte := List.replicate 248 0
def flit (n a : Nat) : DataFlit := ⟨1, 0, BitVec.ofNat 11 n, BitVec.ofNat 11 a, false, 31, 0, 0, 3, [], zeros, 1⟩
/-- A flit arrives with the CRC it was encoded with, and these bytes of its codeword changed. -/
def hits (l : List (Fin 272)) (hdr : Nat) : LineErrors := ⟨l, BitVec.ofNat 24 (flitCrc hdr zeros)⟩
def clean0 (f : DataFlit) : LineErrors := hits [] (flitHeader f)
def fourHits (f : DataFlit) : LineErrors := hits [0, 2, 4, 6] (flitHeader f)
theorem wit_LinkTraining : maySource (two 0) .sloe (.port ((two 0).getF F.tchUnit_ADMIN)) ∧ (two 0).unusedLink 0 = false ∧ (two 0).getF F.tchLinkStat_STATE 0 = 0 ∧
    (two 5).linkActive 0 = true ∧ ((two 4).setLink 0 { cfg := some (ctrl1, 2), width := 3 }).ctrlCheck 0 ctrl1 = 0 ∧ (two 4).partner 0 = (1, 15) ∧
    (two 4).ctrlCheck 0 { ctrl1 with groupId := 0 } = 1 ∧ (two 4).ctrlCheck 0 { ctrl1 with unit := 0 } = 2 ∧ (two 4).ctrlCheck 0 { ctrl1 with link := 14 } = 3 ∧
    (two 4).ctrlCheck 0 ctrl1 = 4 ∧ chooseWidth 0xFFFF false = 3 ∧ chooseWidth 0x01FF true = 1 ∧ chooseWidth 0xFF7F true = 2 ∧ chooseWidth 0xFEFE true = 0 ∧
    chooseWidth 0xFF7F false = 4 ∧ gibGood 0 35 = true ∧ gibGood 0 36 = false ∧ gibGood 540 35 = true ∧ gibGood 540 37 = false := by unfold maySource; decide +kernel
theorem test_enable : (st (.linkEnable .sloe 1 false) ((two 0).setF F.pwrDom_STATE 2 113)).getF F.tchLinkStat_STATE 1 = 1 ∧
    (st (.linkEnable .sloe 1 false) (two 0)).getF F.pwrDom_STATE 113 = 1 ∧ (st (.linkEnable .sloe 1 false) unit0).getF F.tchLinkStat_REASON 1 = 3 ∧
    (st (.linkDisable .sloe 0) (live { out := [{ pkt := pkt .read 0 [] }] })).link 0 = { out := [], lost := [{ pkt := pkt .read 0 [] }], ack := 2047, since := 10000 } := by
  decide +kernel
theorem test_training : (st (.detect 0 1) (two 1)).getF F.tchLinkStat_STATE 0 = 2 ∧ (st (.equaliseDone 0) (two 2)).getF F.tchLinkStat_STATE 0 = 3 ∧
    (st (.alignDone 0 0xFFFF) (two 3)).getF F.tchLinkStat_WIDTH 0 = 3 ∧
    (let s := (two 4).setLink 0 { width := 3 }
     let t := st (.ctrlFlit 0 ctrl1) (st (.ctrlFlit 0 ctrl1) (st (.ctrlFlit 0 ctrl1) s))
     t.getF F.tchLinkStat_STATE 0 = 5 ∧ t.getF F.tchLinkStat_PEER_UNIT 0 = 1 ∧ Tab.get (fun _ => 0) (t.link 0).credits 7 = 64) := by decide +kernel
theorem test_training_fails : (st (.trainingTimeout 0) { two 2 with now := 40000000 }).getF F.tchLinkStat_REASON 0 = 5 ∧
    (st (.trainingTimeout 0) { two 2 with now := 39999999 }).getF F.tchLinkStat_STATE 0 = 2 ∧ (st (.retrain .sloe 0) (live {})).getF F.tchLinkStat_STATE 0 = 6 ∧
    (st (.retrain .sloe 0) (live { retrains := [5, 6] })).getF F.tchLinkStat_REASON 0 = 6 := by decide +kernel
theorem test_link_registers : (st (.tchUnitWrite .sloe (2 * 2 ^ 8 + 5 * 2 ^ 18 + 4)) unit0).getF F.tchUnit_GSIZE = 5 ∧
    (st (.tchUnitWrite .sloe (2 * 2 ^ 8 + 4 * 2 ^ 18)) unit0).flag F.tchStat_REFUSED = true ∧
    (st (.apertureWrite .sloe 3 (1 + 2 ^ 8 + 2 ^ 26)) (two 0)).flag F.tchRap_EN 3 = true ∧ (st (.apertureWrite .sloe 3 (1 + 2 ^ 26)) (two 0)).flag F.tchStat_REFUSED = true ∧
    (st (.exportWindowWrite .sloe 3 (1 + 36 * 2 ^ 26)) (two 0)).flag F.tchStat_REFUSED = true ∧ ((st (.injLane .sloe 0) (two 0)).link 0).quiet = true ∧
    ((st (.injSym .sloe 0) (two 0)).link 0).sym = true ∧ ((st (.injUncorr .sloe 0) (two 0)).link 0).uncorr = true ∧ ((st (.injCrc .sloe 0) (two 0)).link 0).crc = true ∧
    (st (.linkErrClear .sloe 0) ((two 0).setReg .tchLinkErr 0 0 0 7)).reg .tchLinkErr 0 0 0 = 0 ∧
    (st (.tchStatClear .sloe) ((two 0).setF F.tchStat_NOROUTE 4)).getF F.tchStat_NOROUTE = 0 := by decide +kernel

/-- A read of unit 1 of 8 bytes at 1 GiB; an export window grants unit 1 that GiB. -/
def remote1 : LinkPkt := { dstUnit := 0, srcUnit := 1, op := .read, src := 0, tag := 5, addr := 0x40000000, len := 8 }
/-- Link 0 counts in its bundle, with `n` credits for each VC and DL. -/
def ready (n : Nat) : State := live { use := true, credits := (upTo 8).map fun i => (i, n) }
def exporting : State := (live {}).setReg .tchExp 3 0 0 (1 + 2 + 2 ^ 8 + 2 ^ 16 + 2 ^ 26)
theorem wit_LinkTraffic : (live {}).linkActive 0 = true ∧ (live {}).mesh.pkts = [] ∧ ((live {}).link 0).owed = [] ∧ ((live {}).link 0).wait = [] ∧ ((live {}).link 9).held = [] ∧
    fecPass ⟨[], 0⟩ = some false ∧ fecPass ⟨[0, 2, 4, 6], 0⟩ = some true ∧ fecPass ⟨[0, 2, 4, 6, 8], 0⟩ = none ∧ (ready 1).settled 0 = true ∧
    1 + (ready 1).promised 0 4 ≤ Tab.get (fun _ => 0) ((ready 1).link 0).credits 4 ∧ ¬1 + (ready 0).promised 0 4 ≤ Tab.get (fun _ => 0) ((ready 0).link 0).credits 4 ∧ (flit 0 0).seq.toNat = (2047 + 1) % 2048 ∧
    ((live { replay := [sent 4] }).link 0).replay ≠ [] ∧ (∀ f ∈ [sent 4], f.seq ≠ 9) ∧ (exporting.exported 1 0x40000000 8 F.tchExp_R = true ∧
    exporting.exported 1 0x7FFFFFF9 8 F.tchExp_R = false ∧ exporting.exported 2 0x40000000 8 F.tchExp_R = false) ∧ (live {}).bundleOf 0 ≠ [] := by decide +kernel
/-- Table 12.4: SEQ 0x2A5, ACK 0x113, VC 1, three credits of VC 0 and DL 0. -/
theorem test_flit_header : flitHeader { flit 0x2A5 0x113 with fpo := 0 } = 0x30_0113_54A5 := by decide +kernel
theorem test_data_flit : let t := st (.dataFlit 0 (flit 0 5) (fourHits (flit 0 5))) (live { replay := [sent 4, sent 5, sent 6], replays := 3 })
    (t.link 0).replay = [sent 6] ∧ (t.link 0).ack = 0 ∧ t.getF F.tchLinkErr_CORR 0 = 1 ∧ Tab.get (fun _ => 0) (t.link 0).credits 0 = 3 ∧
    (st (.dataFlit 0 (flit 1 5) (clean0 (flit 1 5))) (live {})).getF F.tchLinkErr_UNCORR 0 = 1 ∧ ((st (.idleFlit 0 4 false 0 (hits [] (idleHeader 0 4 false))) (live { replay := [sent 4] })).link 0).replay = [] := by
  decide +kernel
theorem test_retry : let s := live { replay := [sent 4] }
    ((st (.nak 0 3) s).link 0).replays = 1 ∧ ((st (.nak 0 3) (st (.nak 0 3) s)).link 0).replays = 1 ∧ (st (.replayTimeout 0) s).getF F.tchLinkErr_REPLAY 0 = 1 ∧
    (st (.replayTimeout 0) (live { replay := [sent 4], progAt := 6001 })).getF F.tchLinkErr_REPLAY 0 = 0 ∧
    (st (.replayTimeout 0) (live { replay := [sent 4], replays := 7 })).getF F.tchLinkStat_STATE 0 = 6 := by decide +kernel
theorem test_peer : let t := st (.peerRegisterRead 0 0x55) (ready 1)
    t.reg .tchLinkPeer 0 0 0 = 0x55 ∧ (t.link 0).seq = 1 ∧ ((st (.timePacket 0 7) (ready 1)).link 0).replay.length = 1 ∧
    ((st (.timePacket 0 7) (ready 0)).link 0).wait.map (·.1) = [4] := by decide +kernel
theorem test_remote_request : (st (.remoteRequest 0 remote1) exporting).mesh.pkts.map (fun p => (p.op, p.ga, p.dst)) = [(.read, 0x40000000, .hbm 0)] ∧
    (st (.remoteRequest 0 { remote1 with op := .posted, data := [1] }) exporting).getF F.tchStat_EXP_DENY = 1 := by decide +kernel
theorem test_lost : (st (.linkLostPoison 0) (live { lost := [{ pkt := pkt .read 0 [] }] })).mesh.pkts.map (·.err) = [.poison] ∧
    ((st (.bundleReassign 0) (live {})).link 0).use = true := by decide +kernel

/-! ### Boot, images, lifecycle -/

/-- A boot whose last completed step is `n`. -/
def boots (n : Nat) : State := { (State.reset.setF F.secBootStat_STEP n).setF F.secBootStat_RESETS 4 with sec := { booting := true }, now := 600000000 }
/-- An OTP that is OPEN, with key digest `k` and `d` that of its region, the first and the fourth region final, and an empty factory record. -/
def otpOpen (k d : Nat) : Tab Byte :=
  let put (t : Tab Byte) (a v : Nat) : Tab Byte := Tab.writeBytes zeroByte t a (bytesBE 32 v)
  put (put (put (put [(0, 1), (1, 1), (2, 1)] 0x360 k) 0x3A0 d) 0xE0 0xb393978842a0fa3d3e1470196f098f473f9678e72463cb65ec4ab5581856c2e4) 0x100
    0xe3b0c44298fc1c149afbf4c8996fb92427ae41e4649b934ca495991b7852b855
/-- Without a key: the digest of 64 bytes of zeros. -/
def otp0 : Tab Byte := otpOpen 0 0xf5a5fd42d16a20302798ef6ed309979b43003d2320d9f0e8ea9831a92759fb4b
def otped (n : Nat) (t : Tab Byte) : State := { boots n with sec := { booting := true, otp := t } }
/-- In RUN with main power, booted. -/
def running : State := { unit0.setF F.sloMode_MODE 0 with sloe := { stage := true } }
theorem wit_ResetsAndBoot : State.reset.mode ≠ 0 ∧ State.reset.sloe.stage = false ∧ running.mode = 0 ∧ running.sloe.stage = true ∧
    maySource running .sloe (.port (running.getF F.secCtrl_ADMIN)) ∧ running.released = true ∧ (running.setF F.sloPin_UNLOCKED 1).flag F.sloPin_UNLOCKED = true ∧
    ((upTo 11).all fun n => (boots n).stepIs (n + 1)) = true ∧ (boots 11).stepIs 11 = false ∧ ((boots 0).setF F.secBootStat_RESET_CAUSE 1).stepIs 2 = true ∧
    (otped 3 otp0).lcByte.bind lcCode = some 1 ∧ (otped 3 []).lcByte.bind lcCode = some 0 ∧ (otped 3 [(0, 2), (1, 2)]).lcByte.bind lcCode = none ∧
    (otpRegions.map (otped 3 otp0).otpFinal) = [true, false, false, true, false] ∧ (otped 3 otp0).otpGood (0x40, 0xA0) = true ∧
    (otped 3 (Tab.set zeroByte otp0 0x41 1)).otpGood (0x40, 0xA0) = false ∧ sha256 [] = (otped 5 otp0).otpBytes 0x100 32 ∧
    (otped 7 (Tab.writeBytes zeroByte [] 0x40 (List.replicate 36 255))).usable 0 = true ∧ (otped 7 []).usable 0 = false ∧
    ((boots 4).sec.stepStart + 500000000 < (boots 4).now) = true := by unfold maySource; decide +kernel
theorem test_resets : let t := st .powerOnReset (State.reset.setF F.sloMode_MODE 1)
    t.sec.booting = true ∧ t.getF F.secBootStat_RESET_CAUSE = 0 ∧ t.sloe.stage = true ∧ (st (.unitReset (.register .sloe 0xB007 true)) running).getF F.secBootStat_RESETS = 1 ∧
    (st (.unitReset (.register .sloe 0xB008 true)) running).flag F.secCtrl_REFUSED = true ∧ (st (.unitReset .smbus) running).sec.booting = true ∧
    (st (.unitReset .menu) running).sec.booting = false ∧ (st .watchdogReset running).getF F.secBootStat_RESET_CAUSE = 2 := by decide +kernel
theorem test_first_steps : (st .sloeAlive (boots 0)).flag F.secBootStat_SLOE_ROM = true ∧ (st (.hubRom true) (boots 2)).getF F.secBootStat_STEP = 3 ∧
    (st (.hubRom false) (boots 2)).getF F.secBootStat_SAFE_CODE = 1 ∧ (st .bootStepTimeout (boots 4)).getF F.secBootStat_SAFE_CODE = 0x35 ∧
    st .bootStepTimeout (boots 7) = boots 7 := by decide +kernel
theorem test_power_up : let t := st .powerUp (otped 1 (Tab.writeBytes zeroByte [(0, 3), (1, 3), (2, 3)] 0x40 (List.replicate 36 1)))
    t.getF F.pwrDom_STATE 0 = 2 ∧ t.getF F.pwrDom_STATE 1 = 0 ∧ t.getF F.pwrDom_STATE 96 = 2 ∧ t.getF F.pwrDom_STATE 112 = 0 ∧ t.getF F.secBootStat_LC = 2 ∧
    t.flag F.secBootStat_DEBUG_DIS = true := by decide +kernel
theorem test_otp_check : (st .otpCheck (otped 3 otp0)).getF F.secBootStat_STEP = 4 ∧ (st .otpCheck (otped 3 otp0)).getF F.otpStat_FINAL = 9 ∧
    (st .otpCheck (otped 3 [])).getF F.secBootStat_SAFE_CODE = 9 ∧
    (st .otpCheck (otped 3 [(0, 1), (1, 1)])).getF F.secBootStat_SAFE_CODE = 3 := by decide +kernel
/-- No slot holds an image: SAFE 0x10. An empty factory record of the right digest passes. -/
theorem test_verifications : (st .imageVerification (boots 4)).getF F.secBootStat_SAFE_CODE = 0x10 ∧
    (st .defectRecordVerify (otped 5 otp0)).getF F.secBootStat_STEP = 6 ∧ (st .defectRecordVerify (boots 5)).getF F.secBootStat_SAFE_CODE = 8 := by decide +kernel
theorem test_last_steps : (st (.hbmTraining [3]) (boots 8)).flag F.hbmStat_OFFLINE 3 = true ∧ (st (.hbmTraining [3]) (boots 8)).flag F.hbmStat_TRAINED 4 = true ∧
    (let t := st (.hostLinkUp [⟨2, true, false, 5, 16⟩]) ((boots 10).setF F.secBootStat_LC 1)
     t.linkUp 2 = true ∧ t.getF F.secBootStat_BOOT_MS = 600 ∧ t.sec.booting = false) ∧
    (st (.quickSelfTest 0 ⟨[], false⟩ true) (boots 7)).getF F.secBootStat_STEP = 8 := by decide +kernel

/-- RFC 6979 A.2.5, P-256 with SHA-256, message "sample". -/
theorem test_ecdsa : ecdsa 0x60fed4ba255a9d31c961eb74c6356d68c049b8923b61fa6ce669622e60f29fb6
    0x7903fe1008b8bc99a41ae9e95628bc64f2f1b20c2d7e9f5177a3c294d4462299 0xefd48b2aacb6a8fd1140dd9cd45e81d69d2c877b56aaf991c34d0ea84eaf3716
    0xf7cb1c942d657c41d436c7a1b6e29f65f3e900dbb9aff4064dc4ab2f843acda8 (sha256 [0x73, 0x61, 0x6d, 0x70, 0x6c, 0x65]) = 1 := by decide +kernel

/-- A microcode image of no bytes (kind 2) or a RETURN authorisation (kind 4) under the key of `test_ecdsa`, version 9. -/
def header (kind s : Nat) : List Byte :=
  bytesLE 4 0x4D49584B ++ [BitVec.ofNat 8 kind, 0, 0, 0, 9, 0, 0, 0] ++ List.replicate 0x74 0 ++
  bytesLE 32 0x60fed4ba255a9d31c961eb74c6356d68c049b8923b61fa6ce669622e60f29fb6 ++ bytesLE 32 0x7903fe1008b8bc99a41ae9e95628bc64f2f1b20c2d7e9f5177a3c294d4462299 ++
  bytesLE 32 0x70da02cf2389338f3c6e3281547b7997f64b78955cd0cce70904f02659335dad ++ bytesLE 32 s
def image2 : List Byte := header 2 0x93505860f4103420209e0341b5170d0e6a7a1b949a47ca65da8871b3bb9649db
def return4 : List Byte := header 4 0x243eea293d4dd55c503b0ad11a969cd7397ee00124e0034a891c22afa8588b6f
def keyed (v : Option Verify) : State :=
  let s := (((unit0.setReg .secNonce 0 0 0 0).setF F.prtLink_UP 1 0).setF F.secUpdAddr_ADDR 0x51).setPort 0 { bme := true }
  { s with sec := { released := true, otp := otpOpen 0x0e3d380d15ee1ab50e5f2cd09ee85675480e9af811c038d65fdae401fcdf7d07 0xa074ba9573a92f3f4a1ba930d688ffadba5e3264af06d0523cfabec378ea6d22, verify := v }, now := 1900000 }
def verifying (op kind : Nat) (h : List Byte) : Verify := { op := op, kind := kind, header := h, body := [], start := 0 }
theorem wit_ImagesAndLifecycle : maySource (keyed none) .sloe (.port ((keyed none).getF F.secCtrl_ADMIN)) ∧ (keyed none).publicChecks image2 2 = 0 ∧
    (keyed none).publicChecks image2 1 = 9 ∧ unit0.publicChecks image2 2 = 8 ∧ (keyed none).publicChecks return4 4 = 0 ∧ hdr return4 0x10 4 = natLE ((keyed none).otpBytes 0x3C0 4) ∧
    hdr return4 0x18 8 = (keyed none).reg .secNonce 0 0 0 ∧ (keyed none).flag F.secUpdStat_BUSY = false ∧ hdr image2 0xC 4 = 0 ∧ image2.length = 256 ∧
    ((keyed none).setF F.secImg_BOOTED 1 2).bootedSlot 2 = 0 ∧ (keyed none).bootedSlot 2 = 2 ∧ (keyed none).sec.burn = none ∧ (keyed none).sec.arm = none ∧
    (keyed none).portIssues 0 = true ∧ unit0.portIssues 0 = false := by
  unfold maySource; decide +kernel
theorem test_signature : signature image2 [] false = 1 := by decide +kernel
theorem test_stage : let t := st (.stage .sloe 2 (.data image2)) (keyed none)
    t.flag F.secUpdStat_BUSY = true ∧ t.hostGet = [⟨0, 0x5100, 256⟩] ∧ (t.sec.verify.map (·.start)) = some 1900000 ∧ (st (.stage .sloe 2 .failed) (keyed none)).getF F.secUpdStat_CODE = 12 ∧
    (st (.stage .sloe 1 (.data image2)) (keyed none)).getF F.secUpdStat_CODE = 9 ∧ (st (.stage .sloe 4 (.data image2)) (keyed none)).flag F.secUpdStat_REFUSED = true := by decide +kernel
theorem test_stage_complete : let t := st (.stageComplete true) ((keyed (some { verifying 1 2 image2 with valid := true })).setF F.secImg_BOOTED 1 2)
    t.slotHeader 2 1 = image2 ∧ t.getF F.secUpdStat_CODE = 1 ∧ t.flag F.secUpdStat_BUSY = false := by decide +kernel
/-- An unsigned header ends with its code; a RETURN renews the nonce. -/
theorem test_verify_ends : (st .signatureVerify (keyed (some (verifying 1 2 (List.replicate 256 0))))).getF F.secUpdStat_CODE = 6 ∧
    (let t := st .signatureVerify (keyed (some (verifying 3 4 (List.replicate 256 0))))
     t.getF F.secUpdStat_CODE = 6 ∧ t.sec.burn = none ∧ t.freeCtr = 1) ∧ (st (.returnAuth .sloe .failed) (keyed none)).getF F.secUpdStat_CODE = 12 := by
  decide +kernel
theorem test_svn : let s := ((keyed none).setF F.secImg_BOOTED 1 2).setF F.secImg_SVN 11 2
    let t := st (.svnCommit .sloe 2) s
    t.otpByte 16 = 255 ∧ t.otpByte 17 = 7 ∧ t.getF F.otpStat_SVN_MC = 11 ∧ (st (.svnCommit .sloe 2) (keyed none)).flag F.secUpdStat_REFUSED = true := by decide +kernel
theorem test_lifecycle : let s : State := { keyed none with sec := { (keyed none).sec with arm := some (0, 900000) } }
    let t := st (.lcGo .sloe 2) s
    t.sec.burn = some { value := 3, start := 1900000 } ∧ (st (.lcGo (.host 0) 2) s).sec.burn = none ∧ (st (.lcGo .sloe 2) (keyed none)).flag F.secCtrl_REFUSED = true ∧
    (st .lifecycleBurn { t with now := 2900000 }).otpByte 0 = 3 ∧ (st .lifecycleBurn { t with now := 2899999 }).otpByte 0 = 1 ∧
    (st .armExpiry { s with now := 1000900001 }).sec.arm = none ∧ (st .armExpiry { s with now := 1000900000 }).sec.arm ≠ none := by decide +kernel

/-! ### Operand addresses -/

/-- b0 = 0x1_0118, b1 = 3, CIRC0 = [0x100, 0x120). -/
def addr0 (b : Word) : Tile := { b := [(0, b), (1, 3), (7, 0xFFFF)], circ0 := 0x0120_0100 }
/-- The address, the value of b0 after, and a queue window's queue and whether it is popped; nothing for a fault. -/
def addrOf (c : Tile) (w : AccW) (s8 xf : Nat) : List Nat :=
  match resolve T0 c w s8 xf true false with
  | .ok (a, none, t) => [a, t.breg 0]
  | .ok (a, some (q, pop), t) => [a, t.breg 0, q, pop.toNat]
  | .error _ => []
theorem wit_OperandAddresses : let c := addr0 0x10118
    bitsOf c.circ0.toNat 0 16 ≤ 0x100 ∧ 0x11F < bitsOf c.circ0.toNat 16 16 ∧ ¬ 0x120 < bitsOf c.circ0.toNat 16 16 ∧ ¬ bitsOf c.circ0.toNat 0 16 ≤ 0xFF ∧
    preCirc T0 .w64 true false 0x120 = none ∧ preCirc T0 .w64 true false 0xF8 = none ∧ T0 ≠ .sloe ∧ ((5 : Nat) < 6 ∧ (6 : Nat) ≤ 6 ∧ (1 : Nat) < 2 ∧ (2 : Nat) ≤ 2) := by
  decide +kernel
/-- R53, Table 3.3, at the first and the last code of each form; the low 16 bits of b0 are 0x118. -/
theorem test_operand_addresses : let c := addr0 0x10118
    addrOf c .w64 0 0 = [0x118, 0x10118] ∧ addrOf c .w8 0x3F 15 = [0x7E, 0x10118] ∧ addrOf c .w64 0x41 0 = [0x130, 0x10118] ∧
    addrOf c .w64 0x41 1 = [] ∧ addrOf c .w16 0x83 0 = [0x118, 0x10128] ∧ addrOf c .w16 0x9F 0 = [0xFFFF, 0x10118] ∧
    addrOf c .w64 0xC0 0 = [0xC000, 0x10118, 0, 0] ∧ addrOf c .w64 0xD5 0 = [0xC068, 0x10118, 5, 1] ∧ addrOf c .w64 0xD6 0 = [] ∧
    addrOf c .w64 0xD8 0 = [] ∧ addrOf c .w64 0xDF 0 = [] ∧ addrOf c .w8 0xE0 0 = [0, 0x10118] ∧ addrOf c .w8 0xFF 15 = [0xFF8, 0x10118] := by
  decide +kernel
theorem test_circular_operand : addrOf (addr0 0x10118) .w64 0xA0 0 = [0x118, 0x10100] ∧ addrOf (addr0 0x10100) .w64 0xA1 0 = [0x100, 0x10118] ∧
    addrOf (addr0 0x10108) .w64 0xA1 0 = [0x108, 0x10100] ∧ addrOf (addr0 0x10120) .w64 0xA0 0 = [] ∧ addrOf (addr0 0x100F8) .w64 0xA0 0 = [] ∧
    addrOf (addr0 0x10118) .w64 0xA0 1 = [] := by decide +kernel

/-! ### The Sloe: power, alarms -/

def noSloe : State := { State.reset with sloe := { stopped := true } }
/-- In STANDBY with its rail good, the stage off. -/
def standby : State := (State.reset.setF F.sloMode_MODE 1).setF F.sloMode_STBY_OK 1
def opened0 (s : State) : State := s.setF F.sloPin_UNLOCKED 1
def since (s : State) (a : Nat) : State := { s with sloe := { s.sloe with stbyAt := some 0 }, now := a }
/-- One wet sample has been taken; the rope is wet since 0. -/
def wet1 : State := { running with sloe := { running.sloe with wet := 1 } }
def leaking (n : Nat) : State := { (running.setF F.sloAlarm_NOW 1).setF F.sloAlarmCfg_LEAK_SHUT 5 with now := n }
def forced (p : Byte) (s : State) : State := { s with ras := { s.ras with inj := [{ point := p.toNat, where_ := 0, ltile := 0, arg := 0 }] } }
theorem wit_SloePower : noSloe.sloe.stopped = true ∧ running.sloe.stopped = false ∧ running.sloe.stage = true ∧ standby.sloe.stage = false ∧ running.mode = 0 ∧ standby.mode = 1 ∧
    State.reset.mode = 2 ∧ State.reset.sloe.fop = none ∧ State.reset.sloe.held = none ∧
    ((since (standby.setF F.sloPwrCfg_AUTO_ON 1) 1000000000).mode = 1 ∧ (since (standby.setF F.sloPwrCfg_AUTO_ON 1) 1000000000).flag F.sloPwrCfg_AUTO_ON = true ∧
      standby.getF F.sloAlarm_NOW = 0 ∧ (standby.getF F.sloAlarm_PENDING).testBit 4 = false) ∧
    (standby.alarmNow 1 = false ∧ standby.alarmNow 2 = false ∧ standby.alarmNow 5 = false) ∧ (opened0 standby).flag F.sloPin_UNLOCKED = true ∧
    standby.flag F.sloPin_UNLOCKED = false ∧ ({ standby with sloe := { core := { ts := 0x40 } } } : State).sloe.core.fault = true ∧ standby.sloe.core.fault = false ∧
    1 ≤ wet1.sloe.wet ∧ wet1.alarmNow 1 = false ∧ (∃ i ∈ (forced 0x31 standby).ras.inj, i.point = 0x31) ∧ standby.ras.inj = [] ∧
    ((leaking 5000000000).alarmNow 1 = true ∧ (leaking 5000000000).getF F.sloAlarmCfg_LEAK_SHUT = 5 ∧ (leaking 0).sloe.leakAt + 5 * 1000000000 ≤ 5000000000) ∧
    (running.setF F.sloAlarm_NOW 2).alarmNow 2 = true ∧ (running.setF F.sloAlarm_NOW 4).alarmNow 3 = true ∧ running.alarmNow 3 = false := by decide +kernel
theorem test_main_power : (st .mainPowerGoodRise { standby with sloe := { stage := true } }).mode = 0 ∧ st .mainPowerGoodRise standby = standby ∧
    (let t := st .mainPowerGoodDrop (running.setF F.sloMode_STBY_OK 1); t.mode = 1 ∧ t.sec.released = false ∧ t.sloe.stage = false) ∧
    (st .mainPowerGoodDrop running).mode = 2 := by decide +kernel
theorem test_standby_rail : (st .standbyRailFall standby).mode = 2 ∧ (st .standbyRailFall running).mode = 0 ∧ (st .standbyRailStable State.reset).mode = 1 ∧
    (st .standbyRailStable State.reset).sloe.stbyAt = some 0 := by decide +kernel
theorem test_stop_and_start : (st .cellStop (State.reset.ringPut 0 1 0)).sloe.stopped = true ∧ (st .cellStop (State.reset.ringPut 0 1 0)).sloe.ring = [] ∧
    st .cellStop standby = standby ∧ (let t := st .sloeStart noSloe
      t.sloe.stopped = false ∧ t.flag F.sloFbank_ROM = true ∧ t.reg .fshWp 1 0 0 = 0 ∧ t.flag F.fshStat_CAL_BAD = true) := by decide +kernel
theorem test_auto_on : let s := standby.setF F.sloPwrCfg_AUTO_ON 1
    (st .autoOn (since s 1000000000)).sec.booting = true ∧ st .autoOn (since s 999999999) = since s 999999999 ∧
    (st .autoOn (since (s.setF F.sloAlarm_PENDING 16) 1000000000)).sec.booting = false := by decide +kernel
theorem test_power_on_off : (st (.powerOn .register) standby).sloe.stage = true ∧ (st (.powerOn .smbus) (standby.setF F.sloAlarm_NOW 2)).sloe.stage = false ∧
    (st (.powerOn .menu) standby).sloe.stage = false ∧ (st (.powerOn .menu) (opened0 standby)).sloe.stage = true ∧
    (st (.powerOff .smbus) (running.setF F.sloMode_STBY_OK 1)).mode = 1 ∧ (st (.powerOff .menu) running).mode = 0 := by decide +kernel
theorem test_sloe_watchdog : (st .sloeWatchdogRestart { standby with sloe := { core := { ts := 0x40, pc := 7 } } }).sloe.core.pc = 0x4000 ∧
    st .sloeWatchdogRestart standby = standby := by decide +kernel
theorem test_leak : (st (.leakSample true) running).alarmNow 1 = false ∧ (st (.leakSample true) wet1).alarmNow 1 = true ∧
    (st (.leakSample false) (forced 0x31 wet1)).alarmNow 1 = true ∧ (st (.leakSample false) wet1).sloe.wet = 0 ∧
    (st .leakShut (leaking 5000000000)).mode = 2 ∧ (st .leakShut (leaking 4999999999)).mode = 0 := by decide +kernel
/-- OT_LIMIT resets to 70 °C: 71 is over it, 65 clears it, 66 does not. -/
theorem test_outlet : (st (.outletTempSample 71) standby).alarmNow 2 = true ∧ (st (.outletTempSample 70) standby).alarmNow 2 = false ∧
    (st (.outletTempSample 71) running).sec.released = false ∧ (st (.outletTempSample 65) (standby.setF F.sloAlarm_NOW 2)).alarmNow 2 = false ∧
    (st (.outletTempSample 66) (standby.setF F.sloAlarm_NOW 2)).alarmNow 2 = true := by decide +kernel
theorem test_lid_and_cell : (st .lidOpen standby).getF F.sloAlarm_PENDING = 4 ∧ (st (.cellMeasure 2600) standby).alarmNow 4 = false ∧
    (st (.cellMeasure 2599) standby).alarmNow 4 = true ∧ (st (.cellMeasure 2599) standby).flag F.sloMode_CELL_LOW = true := by decide +kernel
theorem test_ack : let s := (standby.setF F.sloAlarm_NOW 5).setF F.sloAlarm_PENDING 5
    (st (.alarmAck (.register 4)) s).getF F.sloAlarm_PENDING = 1 ∧ (st (.alarmAck (.register 4)) s).getF F.sloAlarm_NOW = 1 ∧
    (st (.alarmAck (.page 0)) s).getF F.sloAlarm_NOW = 5 ∧ (st (.alarmAck (.smbus 0xFF)) s).getF F.sloAlarm_PENDING = 0 ∧
    (st .acknowledgeAllAlarms s).getF F.sloAlarm_PENDING = 5 ∧ (st .acknowledgeAllAlarms (opened0 s)).getF F.sloAlarm_PENDING = 0 := by decide +kernel

/-! ### The Sloe: panel -/

def unlockedPad (s : State) : State := s.setF F.sloChord_LOCKED 0
def sampled (l : Tab (Bool × Nat)) (s : State) : State := { s with sloe := { s.sloe with keys := l } }
/-- Two samples of ENTER's neighbour 7 closed; the third recognises it. -/
def pressing : State := sampled [(7, (true, 2))] (unlockedPad standby)
def fnHeld (n : Nat) : State :=
  let s := (sampled [(0, (true, 3)), (5, (true, 2))] ((standby.setF F.sloChord_LOCKED 1).setF F.sloKeyState_DOWN 1))
  { s with sloe := { s.sloe with fnAt := some 0 }, now := n }
def paged (p : Nat × Nat) (s : State) : State := { s with sloe := { s.sloe with page := p } }
def lone : State := opened0 ((paged (6, 1) (unlockedPad running)).setF F.secBootStat_STEP 2)
/-- One entry in the ring, the flash log at slot 1 of its first sector, protection off. -/
def logging : State :=
  let s := (standby.setReg .fshWp 1 0 0 0).ringPut 0 1 0
  { s with sloe := { s.sloe with logNext := 1 } }
theorem wit_SloePanel : (fnHeld 2000000000).flag F.sloChord_LOCKED = true ∧ pressing.flag F.sloChord_LOCKED = false ∧ pressing.sloe.fifo.length ≤ 16 ∧
    ((fnHeld 2000000000).sloe.fnAt = some 0 ∧ (fnHeld 2000000000).keyDown 0 = true ∧ (fnHeld 2000000000).keyDown 5 = false) ∧
    pressing.keyDown 7 = false ∧
    standby.flag F.sloKey_EMPTY = true ∧ (st (.keyScan 0x80) pressing).flag F.sloKey_EMPTY = false ∧
    ({ unlockedPad standby with now := 10 ^ 12 } : State).getF F.sloChord_IDLE_S ≠ 0 ∧
    standby.flag F.sloDispCrc_PENDING = false ∧ (standby.setF F.sloDispCrc_PENDING 1).flag F.sloDispCrc_PENDING = true ∧
    (standby.setF F.sloDispBlink_EN 1).flag F.sloDispBlink_EN = true ∧ crc16 (List.replicate 32 0) ≠ 0 ∧
    (logging.getF F.sloRing_PEND = 1 ∧ logging.sectorOpen 114 = true ∧ (logging.fpage 1824).st ≠ 2 ∧ (logging.fpage 1824).progs < 16 ∧ logging.sloe.flash = []) ∧
    (opened0 standby).flag F.sloPin_UNLOCKED = true ∧ standby.lockLeft = 0 ∧ standby.pinNow = [0, 0, 0, 0, 0, 0] ∧
    ({ standby with now := 300000000000 } : State).sloe.lastPress + 300000000000 ≤ 300000000000 ∧ ({ standby with sloe := { lockAt := some 0 } } : State).lockLeft = 900 ∧
    ({ standby with sloe := { lockAt := some 0 }, now := 900000000000 } : State).lockLeft = 0 ∧
    (opened0 logging).pinLast = none ∧ (opened0 logging).sectorOpen 122 = true ∧ (opened0 logging).freePage 122 = some 1952 ∧ standby.sectorOpen 113 = true ∧
    lone.relayUp = true ∧ lone.sloe.page.1 = 6 ∧ lone.sloe.page.2 = 1 ∧ (paged (6, 1) standby).sloe.page.2 ≠ 0 := by decide +kernel
theorem test_key_scan : (st (.keyScan 0x80) pressing).sloe.fifo = [(7, false)] ∧ (st (.keyScan 0x80) (sampled [(7, (true, 1))] (unlockedPad standby))).sloe.fifo = [] ∧
    (st (.keyScan 0x80) (sampled [(7, (true, 1))] (unlockedPad State.reset))).sloe.fifo = [(7, false)] ∧
    (st (.keyScan 0x21) (fnHeld 2000000000)).flag F.sloChord_LOCKED = false ∧ (st (.keyScan 0x21) (fnHeld 2000000001)).flag F.sloChord_LOCKED = true := by decide +kernel
theorem test_keypad : (st .keyPop (st (.keyScan 0x80) pressing)).flag F.sloKey_EMPTY = true ∧ (st .chordTimeout (fnHeld 2000000000)).sloe.fnAt = none ∧
    (st .chordTimeout (fnHeld 1999999999)).sloe.fnAt = some 0 ∧
    (st .keypadLock { (unlockedPad standby).setF F.sloChord_IDLE_S 60 with now := 60000000000 }).flag F.sloChord_LOCKED = true ∧
    (st .keypadLock { (unlockedPad standby).setF F.sloChord_IDLE_S 60 with now := 59999999999 }).flag F.sloChord_LOCKED = false := by decide +kernel
/-- A wrong CRC shows the ROM pattern, counted once. -/
theorem test_display : let s := (st (.displayCommit 1) standby).setF F.sloDispBlink_EN 1
    let t := st .frameStart s
    s.flag F.sloDispCrc_PENDING = true ∧ t.flag F.sloDispCrc_ROM_SHOWN = true ∧ t.getF F.sloDispCrc_MISMATCHES = 1 ∧ (st .frameStart t).getF F.sloDispCrc_MISMATCHES = 1 ∧
    (t.lcd.getD 15 0) = 0x5E ∧ (st .frameStart (st (.displayCommit (BitVec.ofNat 16 (crc16 (List.replicate 32 0)))) t)).flag F.sloDispCrc_ROM_SHOWN = false := by decide +kernel
theorem test_vlcd : (st (.vlcdUpdate 25 3000) standby).getF F.sloLcd_VLCD_MV = 3000 ∧ (st (.vlcdUpdate 0xEC 3000) standby).getF F.sloLcd_VLCD_MV = 3400 ∧
    (st (.vlcdUpdate 25 2900) (st .frameStart State.reset)).getF F.sloLcd_VLCD_MV = 2850 ∧
    (st (.vlcdUpdate 25 2900) (st .frameStart State.reset)).flag F.sloLcd_SHORT = true ∧
    (st .frameStart (State.reset.setF F.sloMode_CELL_MV 2900)).getF F.sloLcd_VLCD_MV = 2850 := by decide +kernel
theorem test_ring : (st .ringCopy logging).getF F.sloRing_PEND = 0 ∧ (Tab.get erasedByte (st .ringCopy logging).sloe.flash 0x72015) = 1 ∧ (st .ringCopy logging).sloe.logNext = 2 ∧
    (st .ringCopyNow logging).getF F.sloRing_PEND = 1 ∧ (st .ringCopyNow (opened0 logging)).sloe.logNext = 3 ∧
    (st .ringClear (opened0 logging)).sloe.ringHave = 1 ∧ st .ringClear logging = logging := by decide +kernel
theorem test_pin : (st (.pinEntry [0, 0, 0, 0, 0, 0]) standby).flag F.sloPin_UNLOCKED = true ∧ (st (.pinEntry [0, 0, 0, 0, 0, 1]) standby).getF F.sloPin_FAILS = 1 ∧
    (st (.pinEntry [0, 0, 0, 0, 0, 1]) { standby.setF F.sloPin_FAILS 4 with now := 7 }).sloe.lockAt = some 7 ∧
    (let s : State := { standby.setF F.sloPin_FAILS 5 with sloe := { lockAt := some 0 }, now := 1 }; st (.pinEntry [0, 0, 0, 0, 0, 0]) s = s) ∧
    (st .pinSessionTimeout { opened0 standby with now := 300000000000 }).flag F.sloPin_UNLOCKED = false ∧
    (st .pinLockoutEnd { standby with sloe := { lockAt := some 0 }, now := 900000000000 }).sloe.lockAt = none ∧
    (st .pinLockoutEnd { standby with sloe := { lockAt := some 0 }, now := 899999999999 }).sloe.lockAt = some 0 := by decide +kernel
theorem test_pin_change : (st (.pinChange [1, 2, 3, 4, 5, 6]) (opened0 logging)).pinNow = [1, 2, 3, 4, 5, 6] ∧
    st (.pinChange [1, 2, 3, 4, 5]) (opened0 logging) = opened0 logging ∧ st (.pinChange [1, 2, 3, 4, 5, 6]) logging = logging := by decide +kernel
theorem test_menu : let s := unlockedPad standby
    (st (.menu .menu) s).sloe.page = (1, 0) ∧ (st (.menu .down) (paged (6, 0) s)).sloe.page = (6, 0) ∧ (st (.menu .ok) (paged (6, 0) s)).sloe.page = (6, 1) ∧
    (st (.menu .down) (paged (6, 1) s)).sloe.page = (6, 2) ∧ (st (.menu .ok) lone).sloe.ringNo = 1 ∧ (st (.menu .esc) lone).flag F.sloPin_UNLOCKED = false ∧
    (st (.menu .esc) lone).sloe.page = (6, 0) := by decide +kernel

/-! ### The Sloe: calculator -/

def calced (c : Calc) : State := { standby with sloe := { calculator := c } }
def calcOf (i : Instr) (s : State) : Calc := (st i s).sloe.calculator
/-- 34.90, 15, 2 and 3. -/
def v3490 : CVal := ⟨false, 349000000000000, 1⟩
def v15 : CVal := ⟨false, 150000000000000, 1⟩
def v2 : CVal := ⟨false, 200000000000000, 0⟩
def v3 : CVal := ⟨false, 300000000000000, 0⟩
def two3 (op : COp) : Calc := { x := v3, have_ := true, pend := some (v2, op) }
theorem wit_CalculatorArithmetic : (calced (two3 .div)).sloe.stopped = false ∧ (two3 .div).err = false ∧ (10 ^ 14 ≤ v3.m ∧ v3.m < 10 ^ 15 ∧ (-99 : Int) ≤ v3.e ∧ v3.e ≤ 99) ∧
    (two3 .add).pend = some (v2, .add) ∧ (two3 .sub).pend = some (v2, .sub) ∧ (two3 .mul).pend = some (v2, .mul) ∧ v3.m ≠ 0 ∧ ({} : Calc).x.m = 0 ∧
    ({ two3 .div with x := {} } : Calc).pend = some (v2, .div) ∧ ({} : Calc).pend = none ∧ v3.negate.neg = true ∧ ({} : Calc).mem = {} := by decide +kernel
/-- The rounding at 2 ÷ 3, at a tie, where it carries to the next power of ten, and where the exponent leaves −99 to 99. -/
theorem wit_CalculatorRounding : ((10 : ℝ) ^ (-1 : ℤ) ≤ |2 / 3| ∧ |(2 : ℝ) / 3| < (10 : ℝ) ^ (-1 + 1 : ℤ) ∧ 2 * |(|(2 : ℝ) / 3| * (10 : ℝ) ^ (14 - (-1) : ℤ)) - (666666666666667 : ℕ)| ≤ 1) ∧
    (2 * |(|(100000000000000.5 : ℝ)| * (10 : ℝ) ^ (14 - 14 : ℤ)) - (100000000000000 : ℕ)| = 1 ∧ 100000000000000 % 2 = 0) ∧
    (|(9.9999999999999996 : ℝ)| < (10 : ℝ) ^ (0 + 1 : ℤ) ∧ 2 * |(|(9.9999999999999996 : ℝ)| * (10 : ℝ) ^ (14 - 0 : ℤ)) - (1000000000000000 : ℕ)| ≤ 1) ∧
    ((-100 : ℤ) < -99 ∧ (99 : ℤ) < 100 ∧ (10 : ℝ) ^ (100 : ℤ) ≤ |10 ^ 100| ∧ 0 ≤ (0 : ℝ)) := by
  refine ⟨⟨?_, ?_, ?_⟩, ⟨?_, ?_⟩, ⟨?_, ?_⟩, ?_⟩ <;> norm_num [abs_of_pos, abs_of_neg]
def typed (l : List Nat) (p : Option Nat) : Calc := { entry := some (l, p, false), have_ := true }
theorem wit_CalculatorKeys : ({} : Calc).entry = none ∧ (typed [0] none).entry = some ([0], none, false) ∧ (typed (List.replicate 12 1) none).entry = some (List.replicate 12 1, none, false) ∧
    (typed [1, 2] (some 1)).entry = some ([1, 2], some 1, false) ∧ ({} : Calc).have_ = false ∧ (two3 .add).have_ = true ∧ (two3 .add).pend = some (v2, .add) ∧
    ({ last := some (.mul, v3) } : Calc).pend = none ∧ ({ last := some (.mul, v3) } : Calc).last = some (.mul, v3) ∧ ({} : Calc).last = none ∧
    ({ err := true } : Calc).err = true ∧ noSloe.sloe.stopped = true ∧ (calced {}).sloe.stopped = false ∧ (calcOp .div v2 {}) = none ∧ calcOp .add v2 v3 ≠ none := by decide +kernel
theorem test_calc_entry : let c := calcOf (.calcDigit 4) (st .calcPoint (st (.calcDigit 3) (calced {})))
    c.x = ⟨false, 340000000000000, 0⟩ ∧ c.entry = some ([3, 4], some 1, false) ∧ (calcOf .calcDelete (calced c)).entry = some ([3], some 0, false) ∧
    (calcOf .calcSign (calced c)).x.neg = true ∧ (calcOf (.calcDigit 9) (calced (typed [0] none))).entry = some ([9], none, false) ∧
    (calcOf (.calcDigit 9) (calced (typed (List.replicate 12 1) none))).entry = some (List.replicate 12 1, none, false) := by decide +kernel
/-- R361 and the cases of R363: 2 ÷ 3 = shows 0.666666666666667, times 3 is 2; 34.90 × 15 % is 5.235, 34.90 − 15 % is 29.665. -/
theorem test_calc_results : (calcOf .calcEquals (calced (two3 .div))).x = ⟨false, 666666666666667, -1⟩ ∧
    (calcOf .calcEquals (calced { x := v3, have_ := true, pend := some (⟨false, 666666666666667, -1⟩, .mul) })).x = v2 ∧
    (calcOf .calcPercent (calced { x := v15, have_ := true, pend := some (v3490, .mul) })).x = ⟨false, 523500000000000, 0⟩ ∧
    (calcOf .calcPercent (calced { x := v15, have_ := true, pend := some (v3490, .sub) })).x = ⟨false, 296650000000000, 1⟩ ∧
    (calcOf .calcEquals (calced { two3 .div with x := {} })).err = true ∧ (calcOf .calcEquals (calced { x := v2, last := some (.mul, v3) })).x = ⟨false, 600000000000000, 0⟩ := by
  decide +kernel
theorem test_calc_keys : (calcOf .calcAdd (calced (two3 .sub))).pend = some (⟨true, 100000000000000, 0⟩, .add) ∧ (calcOf .calcSubtract (calced { x := v2 })).pend = some (v2, .sub) ∧
    (calcOf .calcMultiply (calced (two3 .add))).x = ⟨false, 500000000000000, 0⟩ ∧ (calcOf .calcDivide (calced { two3 .add with have_ := false })).pend = some (v3, .div) ∧
    (calcOf .calcSqrt (calced { x := v2 })).x = ⟨false, 141421356237310, 0⟩ ∧ (calcOf .calcSquare (calced { x := v15 })).x = ⟨false, 225000000000000, 2⟩ ∧
    (calcOf .calcReciprocal (calced { x := v3 })).x = ⟨false, 333333333333333, -1⟩ ∧ (calcOf .calcSqrt (calced { x := v3.negate })).err = true := by decide +kernel
theorem test_calc_memory : (calcOf .calcMPlus (calced { x := v2, mem := v3 })).mem = ⟨false, 500000000000000, 0⟩ ∧
    (calcOf .calcMMinus (calced { x := v2, mem := v3 })).mem = ⟨false, 100000000000000, 0⟩ ∧ (calcOf .calcMr (calced { mem := v3 })).x = v3 ∧
    (calcOf .calcMc (calced { mem := v3 })).mem = {} ∧ (calcOf .calcAc (calced { two3 .add with err := true, mem := v2 })).mem = v2 ∧
    (calcOf .calcC (calced { two3 .add with err := true })).pend = some (v2, .add) ∧ (calcOf .calcSquare (calced { x := v3, err := true })).x = v3 := by decide +kernel

/-! ### The Sloe: SMBus, relay -/

def good : Pec := ⟨true, true⟩
def bad : Pec := ⟨true, false⟩
def bare0 : Pec := ⟨false, false⟩
def reached : State := running.setF F.secBootStat_STEP 2
def safe (i : Option ImgIn) : State :=
  let s := ((keyed none).setF F.sloMode_MODE 1).setF F.secBootStat_SAFE 1
  let s := s.setF F.secBootStat_SAFE_CODE 0x10
  { s with sloe := { img := i, imgCode := 8 } }
def saidOf (c : Instr) (s : State) : List Nat × Bool := ((st c s).sloe.smbOut.map (·.toNat), (st c s).sloe.smbNack)
theorem wit_SmbusAndRelay : standby.sloe.stopped = false ∧ standby.mode ≠ 2 ∧ State.reset.mode = 2 ∧ (standby.setF F.sloSmb_PEC_REQ 1).flag F.sloSmb_PEC_REQ = true ∧
    bare0.present = false ∧ bad.present = true ∧ bad.good = false ∧ good.good = true ∧ standby.flag F.sloSmb_PEC_REQ = false ∧ (reached.mode = 0 ∧ 2 ≤ reached.getF F.secBootStat_STEP) ∧
    reached.sloe.relay = none ∧ standby.mode ≠ 0 ∧ (0x3FFFFFF : Word).toNat < 2 ^ 26 ∧ 2 ^ 26 ≤ (0x4000000 : Word).toNat ∧ 64 ≤ (64 : Byte).toNat ∧ (63 : Byte).toNat < 64 ∧
    ((safe none).flag F.secBootStat_SAFE = true ∧ (safe none).getF F.secBootStat_SAFE_CODE = 0x10 ∧ (safe none).mode = 1) ∧
    ((safe (some ⟨256, image2, 0⟩)).sloe.img = some ⟨256, image2, 0⟩ ∧ hdr (image2.take 256) 0xC 4 = 0) ∧
    (st .lidOpen standby).flag F.sloSmb_ALERT = true ∧ standby.flag F.sloSmb_ALERT = false := by decide +kernel
theorem test_smb_reads : let s := (standby.setF F.sloAlarm_NOW 5).setF F.sloAlarm_PENDING 3
    saidOf (.smbStatus good) s = ([17, 5, 3, 0, 0, 3, 0, 0], false) ∧ saidOf (.smbStatus bare0) (s.setF F.sloSmb_PEC_REQ 1) = ([], true) ∧
    saidOf (.smbBootStat bare0) { standby with sloe := { bootStat := 0x0B } } = ([0x0B, 0, 0, 0, 0, 0, 0, 0], false) ∧
    saidOf (.smbRtcRead good) { standby with sloe := { rtcBase := 5 }, now := 2000000000 } = ([7, 0, 0, 0], false) ∧
    saidOf (.smbRingRead good) (standby.ringPut 3 0x61 9) = ([0, 0, 0, 0, 3, 0x61, 1, 0, 9, 0, 0, 0, 0, 0, 0, 0], false) ∧
    saidOf (.smbImgStat good) { standby with sloe := { img := some ⟨256, [], 2⟩, imgCode := 4 } } = ([0x48, 0, 0, 0], false) := by decide +kernel
theorem test_smb_writes : (st (.rtcWrite true good 9) standby).rtc = 9 ∧ (st (.rtcWrite true bad 9) standby).getF F.sloSmb_PEC_ERR = 1 ∧
    (st (.rtcWrite false bad 9) State.reset).rtc = 9 ∧ (st (.smbRegAddr good 0x3FFFFFF) standby).sloe.regAddr = 0x3FFFFFF ∧
    (st (.smbRegAddr good 0x4000000) standby).sloe.smbNack = true ∧ (st (.smbRingSel good 63) standby).sloe.ringSel = 63 ∧
    (st (.smbRingSel good 64) standby).sloe.smbNack = true := by decide +kernel
/-- HUB_EPOCH_COPY_RATE resets to 40. -/
theorem test_smb_registers : let a := Reg.hubEpochCopyRate.offset 0 0
    let s : State := { reached with sloe := { regAddr := a } }
    saidOf (.smbRegRead good) s = ([0, 40, 0, 0, 0, 0, 0, 0, 0], false) ∧ (saidOf (.smbRegRead good) standby).1.head? = some 1 ∧
    (st (.smbRegWrite good 30) s).getF F.hubEpochCopyRate_GBPS = 30 ∧ (st (.smbRegWrite good 30) standby).sloe.regRes = 1 ∧
    saidOf (.smbRegResult good) { standby with sloe := { regRes := 3 } } = ([3], false) := by decide +kernel
theorem test_alert : (st .alertResponse (st .lidOpen standby)).sloe.smbOut.length = 1 ∧ (st .alertResponse (st .lidOpen standby)).flag F.sloSmb_ALERT = true ∧
    (st .alertResponse standby).sloe.smbNack = true := by decide +kernel
theorem test_smb_image : (st (.smbImgData good 0 (image2.take 128)) (safe none)).sloe.img = some ⟨128, image2.take 128, 2⟩ ∧
    (st (.smbImgData good 128 (image2.take 128)) (safe none)).sloe.smbNack = true ∧ (st (.smbImgData good 0 (image2.take 128)) standby).sloe.smbNack = true ∧
    ((st (.smbImgData good 128 (image2.drop 128)) (safe (some ⟨128, image2.take 128, 2⟩))).sloe.img.map (·.slot)) = some 0 ∧
    (st (.smbImgEnd good) (safe none)).sloe.imgCode = 9 ∧ (st (.smbImgEnd good) (safe (some ⟨256, image2, 2⟩))).sloe.imgCode = 8 := by decide +kernel
theorem test_relay : let s := reached.setF F.sloHubAddr_OFFSET (Reg.hubEpochCopyRate.offset 0 0)
    let t := st .relayRead s
    t.flag F.sloHubStat_BUSY = true ∧ (st .relayComplete t).getF F.sloHubData_DATA = 40 ∧ (st .relayRead t).getF F.sloHubStat_RESULT = 3 ∧
    (st .relayRead standby).getF F.sloHubStat_RESULT = 1 ∧ (st .relayComplete (t.setF F.sloMode_MODE 1)).getF F.sloHubStat_RESULT = 2 ∧
    (st .relayComplete (st .relayWrite (s.setF F.sloHubData_DATA 30))).getF F.hubEpochCopyRate_GBPS = 30 := by decide +kernel

/-! ### The Sloe: flash -/

/-- Protection off; ADDR 0x1020, SRC 0, LEN 2; SRAM holds 0x0F, 0xF0. -/
def flashed (v : Sloe) : State :=
  let s := (((standby.setReg .fshWp 0 0 0 0).setReg .fshWp 1 0 0 0).setF F.fshAddr_ADDR 0x1020).setF F.fshSrc_LEN 2
  { s with sloe := { v with core := { sram := [(0, 0x0F), (1, 0xF0)] } } }
def fop0 (cmd pulses since : Nat) : FOp := { cmd := cmd, addr := if cmd = 3 then 0x20 else 0x1020, data := if cmd = 1 ∨ cmd = 3 then [0x0F, 0xF0] else [], since := since, pulses := pulses }
def busyF (o : FOp) : State := { flashed { fop := some o, flash := [(0x1020, 0x3F), (0x1030, 0)] } with now := 3000000 }
def key : Half := 0xF1A5
theorem wit_SloeFlash : noSloe.sloe.stopped = true ∧ (flashed {}).sloe.stopped = false ∧ (flashed {}).mode ≠ 2 ∧ (flashed {}).sloe.fop = none ∧ key.toNat = 0xF1A5 ∧
    ((flashed {}).flashCheck 1 key.toNat = 0 ∧ (flashed {}).flashCheck 2 key.toNat = 0 ∧ (flashed {}).flashCheck 3 key.toNat = 0 ∧ (flashed {}).flashCheck 4 key.toNat = 0) ∧
    ((flashed {}).flashCheck 1 0 ≠ 0 ∧ ((flashed {}).setF F.fshWp_WP 2 0).flashCheck 2 key.toNat ≠ 0 ∧ State.reset.flashCheck 3 key.toNat ≠ 0 ∧ (flashed { lc := 2 }).flashCheck 4 key.toNat ≠ 0) ∧
    ((flashed {}).getF F.fshStat_PW_FAILS < 8 ∧ (flashed {}).getF F.fshPassword_VALUE = (flashed {}).sloe.password.toNat ∧ (flashed { password := 1 }).getF F.fshPassword_VALUE ≠ 1) ∧
    (flashed {}).fsector 128 = 0 ∧ (busyF (fop0 2 0 0)).sloe.fop = some (fop0 2 0 0) ∧ (fop0 2 0 0).suspended = false ∧ (busyF (fop0 2 0 0)).sloe.held = none ∧
    (flashed { fop := some (fop0 1 0 0), held := some { fop0 2 0 0 with suspended := true } }).sloe.held ≠ none ∧
    ((fop0 1 2 2600000).since + 400000 ≤ (busyF (fop0 1 2 2600000)).now ∧ ¬(fop0 1 2 2600001).since + 400000 ≤ (busyF (fop0 1 2 2600001)).now) ∧
    ((fop0 2 39 2000000).since + 1000000 ≤ (busyF (fop0 2 39 2000000)).now ∧ (fop0 2 39 2500000).since + 500000 ≤ (busyF (fop0 2 39 0)).now ∧ (fop0 2 39 0).pulses ≠ 0) ∧
    (((busyF (fop0 2 0 0)).setF F.fshCtrl_AUTO_SUSP 1).flag F.fshCtrl_AUTO_SUSP = true ∧ (standby.setF F.sloFbank_ROM 0).flag F.sloFbank_ROM = false) := by decide +kernel
theorem test_flash_program : let t := st (.flProgram key) (flashed {})
    t.flag F.fshStat_BUSY = true ∧ (t.fpage 0x10).progs = 1 ∧ (t.sloe.fop.map (·.data)) = some [0x0F, 0xF0] ∧ (st (.flProgram 0) (flashed {})).getF F.fshStat_ERR_CODE = 3 ∧
    (st (.flProgram key) t).getF F.fshStat_ERR_CODE = 2 ∧ (st (.flProgram key) State.reset).getF F.fshStat_ERR_CODE = 1 ∧
    (st (.flProgram key) ((flashed {}).setF F.fshAddr_ADDR 0x10FF)).getF F.fshStat_ERR_CODE = 4 ∧
    (st (.flProgram key) ((flashed {}).setFpage 0x10 { progs := 16, st := 1 })).getF F.fshStat_ERR_CODE = 6 := by decide +kernel
theorem test_flash_erase : (st (.flErase key) (flashed {})).fsector 1 = 2 ∧ (st (.flErase key) ((flashed {}).setF F.fshWp_WP 2 0)).getF F.fshStat_ERR_CODE = 7 ∧
    (st (.flErase key) (flashed { lc := 2 })).getF F.fshStat_ERR_CODE = 8 ∧ (st (.flOptErase key) (flashed {})).fsector 128 = 2 ∧
    (st (.flOptErase key) (flashed { lc := 2 })).getF F.fshStat_ERR_CODE = 8 ∧ ((st (.flOptProgram key) (flashed {})).sloe.fop.map (·.addr)) = some 0x20 := by decide +kernel
theorem test_flash_lock : (st .flUnlock (flashed {})).flag F.fshStat_UNLOCKED = true ∧ (st .flUnlock (flashed { password := 1 })).getF F.fshStat_PW_FAILS = 1 ∧
    (st .flUnlock (flashed { password := 1 })).getF F.fshStat_ERR_CODE = 9 ∧ (st .flUnlock ((flashed {}).setF F.fshStat_PW_FAILS 8)).getF F.fshStat_ERR_CODE = 9 ∧
    (st .flLock (st .flUnlock (flashed {}))).flag F.fshStat_UNLOCKED = false ∧ (st .flOptLoad (flashed { opt := [(0, 0xFE)] })).getF F.fshNvlock_LOCK 0 = 2 ^ 64 - 2 := by decide +kernel
theorem test_flash_suspend : let t := st .flSuspend (busyF (fop0 2 3 0))
    t.flag F.fshStat_SUSPENDED = true ∧ t.getF F.fshStat_SUSP_COUNT = 1 ∧ ((st .flResume t).sloe.fop.map (·.since)) = some 3000000 ∧
    ((st (.flProgram key) (t.setF F.fshAddr_ADDR 0x2000)).sloe.held.map (·.cmd)) = some 2 ∧
    (st .flResume (flashed { held := some { fop0 2 0 0 with suspended := true } })).getF F.fshStat_ERR_CODE = 2 := by decide +kernel
theorem test_flash_pulses : ((st .flashPulseComplete (busyF (fop0 1 2 2600000))).sloe.fop.map (·.pulses)) = some 3 ∧
    ((st .flashPulseComplete (busyF (fop0 1 3 0))).sloe.fop.map (·.pulses)) = some 3 ∧ ((st .flashPulseComplete (busyF (fop0 2 39 2000001))).sloe.fop.map (·.pulses)) = some 39 ∧
    (st .flashOperationComplete (busyF (fop0 2 1 2500001))).sloe.fop ≠ none := by decide +kernel
/-- 0x3F and 0x0F is 0x0F; a byte that reads 0xFF takes the data; the erase leaves 0xFF. -/
theorem test_flash_done : let t := st .flashOperationComplete (busyF (fop0 1 1 3000000))
    Tab.get erasedByte t.sloe.flash 0x1020 = 0x0F ∧ Tab.get erasedByte t.sloe.flash 0x1021 = 0xF0 ∧ (t.fpage 0x10).st = 1 ∧ t.flag F.fshStat_DONE = true ∧
    (st .flashOperationComplete (busyF (fop0 2 1 2500000))).sloe.flash = [] ∧ Tab.get erasedByte (st .flashOperationComplete (busyF (fop0 3 1 0))).sloe.opt 0x21 = 0xF0 ∧
    (st .flashOperationComplete (busyF (fop0 4 1 0))).sloe.fop = none := by decide +kernel
theorem test_flash_window : let s := ((busyF (fop0 2 0 0)).setF F.fshCtrl_AUTO_SUSP 1).setF F.sloFbank_ROM 0
    (st (.flashWindowReadStall 0x4000) s).flag F.fshStat_SUSPENDED = true ∧ (st (.flashWindowReadStall 0xBFFF) s).flag F.fshStat_SUSPENDED = true ∧
    st (.flashWindowReadStall 0xC000) s = s ∧ st (.flashWindowReadStall 0x3FFF) s = s ∧ st (.flashWindowReadStall 0x5FFF) (s.setF F.sloFbank_ROM 1) = s.setF F.sloFbank_ROM 1 ∧
    (st (.flashWindowReadStall 0x6000) (s.setF F.sloFbank_ROM 1)).flag F.fshStat_SUSPENDED = true := by decide +kernel
theorem test_wp_clear : (st (.wpClear true 5 true) standby).reg .fshWp 1 0 0 = (standby.reg .fshWp 1 0 0 &&& (2 ^ 64 - 6)) ∧ st (.wpClear true 5 false) standby = standby ∧
    (st (.wpClear false 5 true) (standby.setReg .fshWp 0 0 0 7)).reg .fshWp 0 0 0 = 2 := by decide +kernel

/-- R411: the last device of the chain is E7, part 0x4B18; DEBUG_DIS is not set on an unwritten OTP. -/
theorem test_test_port : scanChain.getLast? = some (.edge 7) ∧ TapDevice.part (.edge 7) = 0x4B18 ∧ State.reset.tapOffers (.debug 0) = true := by
  decide +kernel

end Sys2Proof.Tests
end

section
/-! The address that each operand specifier gives (R53, R54, Table 3.3): one rule of `resolve` per mode of the table, each at the code that
the mode's fields form. -/

namespace Sys2Proof.Machine

open Sys2Proof

/-! ### The base register -/

theorem Tile.breg_lt (c : Tile) (k : Nat) : c.breg k < 2 ^ 32 := BitVec.isLt _

/-- A base register holds its value modulo 2^32 (R53). -/
theorem Tile.setB_eq_of_mod_eq (c : Tile) (k : Nat) {u v : Nat} (h : u % 2 ^ 32 = v % 2 ^ 32) : c.setB k u = c.setB k v := by
  have hw : BitVec.ofNat 32 u = BitVec.ofNat 32 v := BitVec.eq_of_toNat_eq (by simpa using h)
  simp only [Tile.setB, hw]

/-! ### The modes without side conditions -/

section
variable (x : Site) (c : Tile) (w : AccW) (rd wr : Bool)

/-- Only displacement and direct use the extension field X (Table 3.3). -/
theorem resolve_extension_illegal {s8 xf : Nat} (h1 : 0x40 ≤ s8) (h2 : s8 < 0xE0) (hx : xf ≠ 0) :
    resolve x c w s8 xf rd wr = .error (illegalAt c.pc.toNat) := by
  have h0 : ¬ s8 < 0x40 := by omega
  simp only [resolve, if_neg h0, if_pos h2, ne_eq, hx, not_false_eq_true, true_or, if_true, ite_self]

theorem resolve_displacement {k d : Nat} (xf : Nat) (hk : k < 8) (hd : d < 8) :
    resolve x c w (k * 8 + d) xf rd wr = .ok ((c.breg k + (8 * xf + d) * w.bytes) % 2 ^ 16, none, c) := by
  have h : k * 8 + d < 0x40 := by omega
  have fk : bitsOf (k * 8 + d) 3 3 = k := by simp only [bitsOf]; omega
  have fd : bitsOf (k * 8 + d) 0 3 = d := by simp only [bitsOf]; omega
  simp only [resolve, if_pos h, fk, fd, Nat.mul_comm xf 8]

theorem resolve_scaledIndex {k j : Nat} (hk : k < 8) (hj : j < 8) :
    resolve x c w (0x40 + k * 8 + j) 0 rd wr = .ok ((c.breg k + c.breg j * w.bytes) % 2 ^ 16, none, c) := by
  have h0 : ¬ 0x40 + k * 8 + j < 0x40 := by omega
  have h : 0x40 + k * 8 + j < 0x80 := by omega
  have fk : bitsOf (0x40 + k * 8 + j) 3 3 = k := by simp only [bitsOf]; omega
  have fj : bitsOf (0x40 + k * 8 + j) 0 3 = j := by simp only [bitsOf]; omega
  simp only [resolve, if_neg h0, if_pos h, ne_eq, not_true_eq_false, if_false, fk, fj]

theorem resolve_postIncrement {k m : Nat} (hk : k < 8) (hm : m < 4) :
    resolve x c w (0x80 + k * 4 + m) 0 rd wr = .ok (c.breg k % 2 ^ 16, none, c.setB k (c.breg k + w.bytes * 2 ^ m)) := by
  have h0 : ¬ 0x80 + k * 4 + m < 0x40 := by omega
  have h1 : ¬ 0x80 + k * 4 + m < 0x80 := by omega
  have h : 0x80 + k * 4 + m < 0xA0 := by omega
  have fk : bitsOf (0x80 + k * 4 + m) 2 3 = k := by simp only [bitsOf]; omega
  have fm : bitsOf (0x80 + k * 4 + m) 0 2 = m := by simp only [bitsOf]; omega
  simp only [resolve, if_neg h0, if_neg h1, if_pos h, ne_eq, not_true_eq_false, if_false, fk, fm]

theorem resolve_direct {d : Nat} (xf : Nat) (hd : d < 32) :
    resolve x c w (0xE0 + d) xf rd wr = .ok ((32 * xf + d) * 8, none, c) := by
  have h0 : ¬ 0xE0 + d < 0x40 := by omega
  have h1 : ¬ 0xE0 + d < 0x80 := by omega
  have h2 : ¬ 0xE0 + d < 0xA0 := by omega
  have h3 : ¬ 0xE0 + d < 0xC0 := by omega
  have h4 : ¬ 0xE0 + d < 0xE0 := by omega
  have fd : bitsOf (0xE0 + d) 0 5 = d := by simp only [bitsOf]; omega
  simp only [resolve, if_neg h0, if_neg h1, if_neg h2, if_neg h3, if_neg h4, fd, Nat.mul_comm xf 32]

/-! ### Queue windows -/

/-- A queue-window code, by its fields: legal for the six queues, read or peeked, of a tile. -/
theorem resolve_window_code {q p : Nat} (hq : q < 8) (hp : p < 4) :
    resolve x c w (0xC0 + 4 * q + p) 0 rd wr =
      if 6 ≤ q ∨ 2 ≤ p ∨ x = .sloe then .error (illegalAt c.pc.toNat)
      else .ok (0xC000 + 8 * q + 0x40 * (p % 2), some (q, p % 2 == 1), c) := by
  have h0 : ¬ 0xC0 + 4 * q + p < 0x40 := by omega
  have h1 : ¬ 0xC0 + 4 * q + p < 0x80 := by omega
  have h2 : ¬ 0xC0 + 4 * q + p < 0xA0 := by omega
  have h3 : ¬ 0xC0 + 4 * q + p < 0xC0 := by omega
  have h : 0xC0 + 4 * q + p < 0xE0 := by omega
  have fq : bitsOf (0xC0 + 4 * q + p) 2 3 = q := by simp only [bitsOf]; omega
  have fp : bitsOf (0xC0 + 4 * q + p) 0 2 = p := by simp only [bitsOf]; omega
  have fb : bitsOf (0xC0 + 4 * q + p) 0 1 = p % 2 := by simp only [bitsOf]; omega
  simp only [resolve, if_neg h0, if_neg h1, if_neg h2, if_neg h3, if_pos h, ne_eq, not_true_eq_false, false_or, fq, fp, fb]
  cases x with
  | sloe => simp
  | tile f t => simp [or_comm]

theorem resolve_window {q p : Nat} (hq : q < 6) (hp : p < 2) (hx : x ≠ .sloe) :
    resolve x c w (0xC0 + 4 * q + p) 0 rd wr = .ok (0xC000 + 8 * q + 0x40 * p, some (q, p == 1), c) := by
  have hn : ¬ (6 ≤ q ∨ 2 ≤ p ∨ x = .sloe) := by simp [hx, hq, hp]
  rw [resolve_window_code x c w rd wr (by omega) (by omega), if_neg hn, Nat.mod_eq_of_lt hp]

theorem resolve_window_illegal {q p : Nat} (hq : q < 8) (hp : p < 4) (h : 6 ≤ q ∨ 2 ≤ p ∨ x = .sloe) :
    resolve x c w (0xC0 + 4 * q + p) 0 rd wr = .error (illegalAt c.pc.toNat) := by
  rw [resolve_window_code x c w rd wr hq hp, if_pos h]

/-! ### Circular buffers -/

/-- The value that a step of the circular mode gives a base `b` of the buffer [`st`, `en`), before the reduction modulo 2^32: up
(`m` = 0) or down by `n`, and back by the buffer's length where that leaves the buffer (R54). -/
def circStep (st en n b m : Nat) : Int :=
  let v : Int := if m = 0 then b + n else b - n
  if m = 0 then (if en ≤ v % 2 ^ 16 then v - (en - st) else v) else (if v % 2 ^ 16 < st then v + (en - st) else v)

/-- The step as `resolve` takes it, in natural numbers: it adds 2^32 before it subtracts. -/
def circStepNat (st en n b m : Nat) : Nat :=
  if m = 0 then (if (b + n) % 2 ^ 16 ≥ en then b + n + 2 ^ 32 - (en - st) else b + n)
  else (if (b + 2 ^ 32 - n) % 2 ^ 16 < st then b + 2 ^ 32 - n + (en - st) else b + 2 ^ 32 - n)

theorem circStepNat_mod {st en n b : Nat} (m : Nat) (hs : st < en) (he : en < 2 ^ 16) (hn : n ≤ 2 ^ 32) :
    circStepNat st en n b m % 2 ^ 32 = (circStep st en n b m % 2 ^ 32).toNat % 2 ^ 32 := by
  by_cases h : m = 0
  · simp only [circStepNat, circStep, h, if_true]
    split <;> split <;> omega
  · simp only [circStepNat, circStep, h, if_false]
    split <;> split <;> omega

theorem accW_bytes_le (w : AccW) : w.bytes ≤ 8 := by cases w <;> decide

/-- The fault of a circular base outside its buffer: CIRC_RANGE, unless the address has an earlier one (R72, Table 3.6). -/
def circFault (a : Nat) : TFault :=
  match preCirc x w rd wr a with
  | some f => if f.cause = .illegal then illegalAt c.pc.toNat else f
  | none => { cause := .circRange, addr := a }

theorem circFault_cause {a : Nat} (h : preCirc x w rd wr a = none) : (circFault x c w rd wr a).cause = .circRange := by
  simp only [circFault, h]

section
variable {k i m : Nat} (hk : k < 8) (hi : i < 2) (hm : m < 2)
include hk hi hm

/-- A circular code, by its fields. -/
theorem resolve_circular_code :
    resolve x c w (0xA0 + k * 4 + i * 2 + m) 0 rd wr =
      if (c.circ i).1 ≤ c.breg k % 2 ^ 16 ∧ c.breg k % 2 ^ 16 < (c.circ i).2 then
        .ok (c.breg k % 2 ^ 16, none, c.setB k (circStepNat (c.circ i).1 (c.circ i).2 w.bytes (c.breg k) m))
      else .error (circFault x c w rd wr (c.breg k % 2 ^ 16)) := by
  have h0 : ¬ 0xA0 + k * 4 + i * 2 + m < 0x40 := by omega
  have h1 : ¬ 0xA0 + k * 4 + i * 2 + m < 0x80 := by omega
  have h2 : ¬ 0xA0 + k * 4 + i * 2 + m < 0xA0 := by omega
  have h : 0xA0 + k * 4 + i * 2 + m < 0xC0 := by omega
  have fk : bitsOf (0xA0 + k * 4 + i * 2 + m) 2 3 = k := by simp only [bitsOf]; omega
  have fi : bitsOf (0xA0 + k * 4 + i * 2 + m) 1 1 = i := by simp only [bitsOf]; omega
  have fm : bitsOf (0xA0 + k * 4 + i * 2 + m) 0 1 = m := by simp only [bitsOf]; omega
  simp only [resolve, if_neg h0, if_neg h1, if_neg h2, if_pos h, ne_eq, not_true_eq_false, if_false, fk, fi, fm, circFault, circStepNat,
    ← Bool.decide_and, Bool.not_eq_true', decide_eq_false_iff_not, ite_not]
  cases preCirc x w rd wr (c.breg k % 2 ^ 16) <;> rfl

theorem resolve_circular (hs : (c.circ i).1 ≤ c.breg k % 2 ^ 16) (he : c.breg k % 2 ^ 16 < (c.circ i).2) :
    resolve x c w (0xA0 + k * 4 + i * 2 + m) 0 rd wr = .ok (c.breg k % 2 ^ 16, none,
      c.setB k (circStep (c.circ i).1 (c.circ i).2 w.bytes (c.breg k) m % 2 ^ 32).toNat) := by
  have hlt : (c.circ i).1 < (c.circ i).2 := by omega
  have hen : (c.circ i).2 < 2 ^ 16 := bitsOf_lt _ 16 16
  have hn : w.bytes ≤ 2 ^ 32 := (accW_bytes_le w).trans (by omega)
  rw [resolve_circular_code x c w rd wr hk hi hm, if_pos ⟨hs, he⟩]
  rw [Tile.setB_eq_of_mod_eq c k (circStepNat_mod m hlt hen hn)]

theorem resolve_circular_outside (h : ¬ ((c.circ i).1 ≤ c.breg k % 2 ^ 16 ∧ c.breg k % 2 ^ 16 < (c.circ i).2)) :
    resolve x c w (0xA0 + k * 4 + i * 2 + m) 0 rd wr = .error (circFault x c w rd wr (c.breg k % 2 ^ 16)) := by
  rw [resolve_circular_code x c w rd wr hk hi hm, if_neg h]

end
end

/-- The bounds of a circular buffer are the two halves of its register. -/
theorem Tile.circ_eq (c : Tile) (i : Nat) :
    c.circ i = (bitsOf (if i = 0 then c.circ0 else c.circ1).toNat 0 16, bitsOf (if i = 0 then c.circ0 else c.circ1).toNat 16 16) := by
  simp only [Tile.circ, apply_ite BitVec.toNat]

/-- Settles O19: mode by mode of Table 3.3. -/
theorem operandAddresses : Obligations.OperandAddresses := by
  intro x c w k rd wr n b ill
  have extension {s8 : Nat} (h1 : 0x40 ≤ s8) (h2 : s8 < 0xE0) : ∀ xf, xf ≠ 0 → ill s8 xf :=
    fun xf hx => ⟨_, resolve_extension_illegal x c w rd wr h1 h2 hx, rfl⟩
  have hk : k.val < 8 := k.isLt
  refine ⟨?displacement, ?scaledIndex, ?postIncrement, ?circular, ?window, ?direct⟩
  case displacement => exact fun d xf hd _ => resolve_displacement x c w rd wr xf hk hd
  case scaledIndex => exact fun j => ⟨resolve_scaledIndex x c w rd wr hk j.isLt, extension (by omega) (by omega)⟩
  case postIncrement => exact fun m hm => ⟨resolve_postIncrement x c w rd wr hk hm, extension (by omega) (by omega)⟩
  case circular =>
    intro i m hi hm st en s8
    have hc : c.circ i = (st, en) := c.circ_eq i
    refine ⟨fun hs he => ?_, fun h => ?_, extension (by omega) (by omega)⟩
    · have hr := resolve_circular x c w rd wr hk hi hm (by rwa [hc]) (by rwa [hc])
      rwa [hc] at hr
    · exact ⟨_, resolve_circular_outside x c w rd wr hk hi hm (by rwa [hc]), circFault_cause x c w rd wr⟩
  case window =>
    exact fun q p hq hp => ⟨fun hq hp hx => resolve_window x c w rd wr hq hp hx,
      fun h => ⟨_, resolve_window_illegal x c w rd wr hq hp h, rfl⟩, extension (by omega) (by omega)⟩
  case direct => exact fun d xf hd _ => resolve_direct x c w rd wr xf hd

end Sys2Proof.Machine
end

section
/-! What the state's operations leave alone: parts of the block, registers, the rest of a field's record, TS field by field. -/

namespace Sys2Proof.Machine

open Sys2Proof

theorem keeps_trans {l : List Part} {s t u : State} (h : keeps l s t) (k : keeps l t u) : keeps l s u := by
  intro p hp
  have h1 := h p hp
  have h2 := k p hp
  cases p <;> exact h2.trans h1

theorem keeps_mono {l m : List Part} {s t : State} (h : keeps l s t) (hlm : l ⊆ m) : keeps m s t := fun p hp => h p fun hl => hp (hlm hl)

/-- The cores are the same where tiles and Sloe are. -/
theorem core_eq_of_keeps {l : List Part} {s t : State} (h : keeps l s t) (ht : .tiles ∉ l) (hs : .sloe ∉ l) (y : Site) : t.core y = s.core y := by
  have h1 : t.tiles = s.tiles := h .tiles ht
  have h2 : t.sloe = s.sloe := h .sloe hs
  cases y with
  | tile f u => simp only [State.core, State.tile, h1]
  | sloe => simp only [State.core, h2]

theorem State.wbarArrivals_eq_of_keeps {l : List Part} {s t : State} (h : keeps l s t) (hl : .hub ∉ l) (g : Nat) :
    t.wbarArrivals g = s.wbarArrivals g := by
  have hh : t.hub = s.hub := h .hub hl
  simp only [State.wbarArrivals, hh]

theorem reg_eq_of_regs_eq {s t : State} (h : t.regs = s.regs) (r : Reg) (i j k : Nat) : t.reg r i j k = s.reg r i j k := by
  simp only [State.reg, h]

theorem getF_eq_of_regs_eq {s t : State} (h : t.regs = s.regs) (fl : Fld) (i j k : Nat) : t.getF fl i j k = s.getF fl i j k := by
  simp only [State.getF, reg_eq_of_regs_eq h]

theorem flag_eq_of_regs_eq {s t : State} (h : t.regs = s.regs) (fl : Fld) (i j k : Nat) : t.flag fl i j k = s.flag fl i j k := by
  simp only [State.flag, getF_eq_of_regs_eq h]

theorem keeps_refl (l : List Part) (s : State) : keeps l s s := fun p _ => by cases p <;> rfl

theorem keeps_setReg (s : State) (r : Reg) (i j k v : Nat) : keeps [.regs] s (s.setReg r i j k v) := by
  intro p hp
  cases p <;> simp [Part.same] at hp ⊢

theorem keeps_setField (s : State) (f : Nat) (x : Field) : keeps [.fields] s (s.setField f x) := by
  intro p hp
  cases p <;> simp [Part.same] at hp ⊢

theorem keeps_setTile (s : State) (f u : Nat) (c : Tile) : keeps [.tiles] s (s.setTile f u c) := by
  intro p hp
  cases p <;> simp [Part.same] at hp ⊢

/-- What a replacement of a field's record leaves as it was in that record reads as before in every field. -/
theorem State.proj_setField {α : Type} (P : Field → α) (s : State) (f g : Nat) (x : Field) (h : P x = P (s.field f)) :
    P ((s.setField f x).field g) = P (s.field g) := by
  by_cases hg : g = f
  · rw [hg, State.field_setField_same, h]
  · rw [State.field_setField_ne s f g x hg]

@[simp] theorem State.seq_progress (s : State) (f g : Nat) : (s.progress f).seq g = s.seq g := State.proj_setField Field.seq s f g _ rfl
@[simp] theorem State.bars_progress (s : State) (f g : Nat) : ((s.progress f).field g).bars = (s.field g).bars :=
  State.proj_setField Field.bars s f g _ rfl
@[simp] theorem State.seq_wake (s : State) (f g : Nat) : (s.wake f).seq g = s.seq g := State.proj_setField Field.seq s f g _ rfl
@[simp] theorem State.bars_wake (s : State) (f g : Nat) : ((s.wake f).field g).bars = (s.field g).bars :=
  State.proj_setField Field.bars s f g _ rfl
@[simp] theorem State.seq_setSeq_same (s : State) (f : Nat) (q : Seq) : (s.setSeq f q).seq f = q := by
  simp only [State.seq, State.setSeq, State.field_setField_same]
@[simp] theorem State.bars_setSeq (s : State) (f g : Nat) (q : Seq) : ((s.setSeq f q).field g).bars = (s.field g).bars :=
  State.proj_setField Field.bars s f g _ rfl

theorem State.bar_eq_of_bars_eq {s t : State} {f : Nat} (h : (t.field f).bars = (s.field f).bars) (g : Nat) : t.bar f g = s.bar f g := by
  simp only [State.bar, h]

theorem keeps_setCore (s : State) (x : Site) (c : Tile) : keeps [.tiles, .sloe] s (s.setCore x c) := by
  intro p hp
  cases x <;> cases p <;> simp [Part.same, State.setCore] at hp ⊢

/-- A field of a register stored leaves every register outside the list alone. -/
theorem regsKept_setF {l : List Reg} (s : State) (fl : Fld) (v i j k : Nat) (h : fl.reg ∈ l) : regsKept l s (s.setF fl v i j k) :=
  fun r i' j' k' hr => State.reg_setF_other s fl v i j k r i' j' k' fun e => hr (e ▸ h)

theorem regsKept_trans {l : List Reg} {s t u : State} (h : regsKept l s t) (k : regsKept l t u) : regsKept l s u :=
  fun r i j x hr => (k r i j x hr).trans (h r i j x hr)

theorem keeps_setF (s : State) (fl : Fld) (v i j k : Nat) : keeps [.regs] s (s.setF fl v i j k) := keeps_setReg _ _ _ _ _ _

/-! ### TS -/

theorem Tile.tsGet_tsPut_same (c : Tile) (lo w v : Nat) (h : lo + w ≤ 32) : (c.tsPut lo w v).tsGet lo w = v % 2 ^ w := by
  have hlt : putBits c.ts.toNat lo w v < 2 ^ 32 := putBits_lt _ _ _ _ 32 c.ts.isLt h
  simp only [Tile.tsGet, Tile.tsPut, BitVec.toNat_ofNat, Nat.mod_eq_of_lt hlt, bitsOf_putBits_same]

theorem Tile.tsGet_tsPut_apart (c : Tile) (lo w v l k : Nat) (h : lo + w ≤ 32) (hd : lo + w ≤ l ∨ l + k ≤ lo) :
    (c.tsPut lo w v).tsGet l k = c.tsGet l k := by
  have hlt : putBits c.ts.toNat lo w v < 2 ^ 32 := putBits_lt _ _ _ _ 32 c.ts.isLt h
  simp only [Tile.tsGet, Tile.tsPut, BitVec.toNat_ofNat, Nat.mod_eq_of_lt hlt]
  rcases hd with hd | hd
  · exact bitsOf_putBits_above _ _ _ _ _ _ hd
  · exact bitsOf_putBits_below _ _ _ _ _ _ hd

theorem Tile.tsGet_of_ts_eq {c d : Tile} (h : d.ts = c.ts) (l k : Nat) : d.tsGet l k = c.tsGet l k := by
  simp only [Tile.tsGet, h]

/-- Of two cores, the second differs from the first in TS alone. -/
def Tile.tsOnly (c d : Tile) : Prop := d = { c with ts := d.ts }

theorem Tile.tsOnly_trans {c d e : Tile} (h : c.tsOnly d) (k : d.tsOnly e) : c.tsOnly e := by
  unfold Tile.tsOnly at h k ⊢
  rw [h] at k
  exact k

theorem Tile.tsOnly_tsPut (c : Tile) (lo w v : Nat) : c.tsOnly (c.tsPut lo w v) := by simp only [Tile.tsOnly, Tile.tsPut]

end Sys2Proof.Machine
end

section
/-! What is recorded of errors and of ended requests (R182, R295, R299, R359): the frame of `rasEvent`, of `ringPut` and of the end of a
request. -/

namespace Sys2Proof.Machine

open Sys2Proof

/-- The registers that take the records of errors, of late requests and of the Sloe's ring (R295, R299, R359, R366). -/
def recordRegs : List Reg := [.rasFldErr, .rasLog, .rasLogTail, .seqCnt, .sloRing, .sloSmb]

/-- From `s` to `t` records were made: only parts of `l` changed, of the registers those of the records, and neither the Sloe's core nor
the arrivals at the wafer groups. -/
structure RecordsOnly (l : List Part) (s t : State) : Prop where
  parts : keeps l s t
  regs : regsKept recordRegs s t
  core : t.sloe.core = s.sloe.core
  arrivals : t.hub.wbarArr = s.hub.wbarArr

namespace RecordsOnly

variable {l : List Part} {s t u : State}

theorem refl (l : List Part) (s : State) : RecordsOnly l s s := ⟨keeps_refl l s, fun _ _ _ _ _ => rfl, rfl, rfl⟩

theorem trans (h : RecordsOnly l s t) (k : RecordsOnly l t u) : RecordsOnly l s u :=
  ⟨keeps_trans h.parts k.parts, fun r i j k' hr => (k.regs r i j k' hr).trans (h.regs r i j k' hr), k.core.trans h.core,
    k.arrivals.trans h.arrivals⟩

theorem mono {m : List Part} (h : RecordsOnly l s t) (hlm : l ⊆ m) : RecordsOnly m s t := ⟨keeps_mono h.parts hlm, h.regs, h.core, h.arrivals⟩

/-- A fold of such steps. -/
theorem foldl {α : Type} {step : State → α → State} (h : ∀ s a, RecordsOnly l s (step s a)) (xs : List α) (s : State) :
    RecordsOnly l s (xs.foldl step s) := by
  induction xs generalizing s with
  | nil => exact refl l s
  | cons x xs ih => exact (h s x).trans (ih _)

theorem setReg (s : State) {r : Reg} (i j k v : Nat) (hl : .regs ∈ l) (hr : r ∈ recordRegs) : RecordsOnly l s (s.setReg r i j k v) where
  parts := keeps_mono (keeps_setReg s r i j k v) (by simpa using hl)
  regs q i' j' k' hq := State.reg_setReg_ne _ _ _ _ _ _ _ _ _ _ (rkey_ne (fun e : q = r => hq (e ▸ hr)) i' j' k' i j k)
  core := rfl
  arrivals := rfl

theorem setF (s : State) (fl : Fld) (v i j k : Nat) (hl : .regs ∈ l) (hr : fl.reg ∈ recordRegs) : RecordsOnly l s (s.setF fl v i j k) :=
  setReg s i j k _ hl hr

theorem countF (s : State) (fl : Fld) (n i j k : Nat) (hl : .regs ∈ l) (hr : fl.reg ∈ recordRegs) : RecordsOnly l s (s.countF fl n i j k) :=
  setF s fl _ i j k hl hr

/-- A change of one part other than the registers. -/
theorem of_part {p : Part} (h : keeps [p] s t) (hl : p ∈ l) (hp : p ≠ .regs) (hc : t.sloe.core = s.sloe.core)
    (ha : t.hub.wbarArr = s.hub.wbarArr) : RecordsOnly l s t where
  parts := keeps_mono h (by simpa using hl)
  regs := fun r i j k _ => reg_eq_of_regs_eq (h .regs (by simpa using hp.symm)) r i j k
  core := hc
  arrivals := ha

theorem sloe (s : State) (x : Sloe) (hl : .sloe ∈ l) (hx : x.core = s.sloe.core) : RecordsOnly l s { s with sloe := x } :=
  of_part (fun p hp => by cases p <;> simp [Part.same] at hp ⊢) hl (by decide) hx rfl

theorem ras (s : State) (x : Ras) (hl : .ras ∈ l) : RecordsOnly l s { s with ras := x } :=
  of_part (fun p hp => by cases p <;> simp [Part.same] at hp ⊢) hl (by decide) rfl rfl

theorem hub (s : State) (x : Hub) (hl : .hub ∈ l) (hx : x.wbarArr = s.hub.wbarArr) : RecordsOnly l s { s with hub := x } :=
  of_part (fun p hp => by cases p <;> simp [Part.same] at hp ⊢) hl (by decide) rfl hx

theorem freeCtr (s : State) (n : Nat) (hl : .freeCtr ∈ l) : RecordsOnly l s { s with freeCtr := n } :=
  of_part (fun p hp => by cases p <;> simp [Part.same] at hp ⊢) hl (by decide) rfl rfl

theorem setPort (s : State) (p : Nat) (x : PortSt) (hl : .ports ∈ l) : RecordsOnly l s (s.setPort p x) :=
  of_part (fun p hp => by cases p <;> simp [Part.same] at hp ⊢) hl (by decide) rfl rfl

theorem reg_eq (h : RecordsOnly l s t) {r : Reg} (hr : r ∉ recordRegs) (i j k : Nat) : t.reg r i j k = s.reg r i j k := h.regs r i j k hr

theorem getF_eq (h : RecordsOnly l s t) {fl : Fld} (hr : fl.reg ∉ recordRegs) (i j k : Nat) : t.getF fl i j k = s.getF fl i j k := by
  simp only [State.getF, h.reg_eq hr]

theorem flag_eq (h : RecordsOnly l s t) {fl : Fld} (hr : fl.reg ∉ recordRegs) (i j k : Nat) : t.flag fl i j k = s.flag fl i j k := by
  simp only [State.flag, h.getF_eq hr]

theorem field_eq (h : RecordsOnly l s t) (hl : .fields ∉ l) (f : Nat) : t.field f = s.field f := by
  have hf : t.fields = s.fields := h.parts .fields hl
  simp only [State.field, hf]

theorem core_eq (h : RecordsOnly l s t) (hl : .tiles ∉ l) (y : Site) : t.core y = s.core y := by
  have ht : t.tiles = s.tiles := h.parts .tiles hl
  cases y with
  | tile f u => simp only [State.core, State.tile, ht]
  | sloe => exact h.core

theorem wbarArrivals_eq (h : RecordsOnly l s t) (g : Nat) : t.wbarArrivals g = s.wbarArrivals g := by
  simp only [State.wbarArrivals, h.arrivals]

end RecordsOnly

/-- The parts that a RAS event reaches: its log, its notifications and the Sloe's ring (R295, R296, R359). -/
def logParts : List Part := [.regs, .ras, .sloe]

theorem recordsOnly_ringPut (s : State) (src code arg : Nat) : RecordsOnly logParts s (s.ringPut src code arg) := by
  unfold State.ringPut
  split
  · exact .refl _ _
  · have field (s : State) (fl : Fld) (v : Nat) (hr : fl.reg ∈ recordRegs) : RecordsOnly logParts s (s.setF fl v) :=
      .setF s fl v 0 0 0 (by decide) hr
    extract_lets e k p sloe s1 s2
    have h1 : RecordsOnly logParts s s1 := .sloe s _ (by decide) rfl
    have h2 : RecordsOnly logParts s1 s2 := field s1 _ _ (by decide)
    refine (h1.trans h2).trans (.trans ?_ (field _ F.sloSmb_ALERT _ (by decide)))
    split
    · exact .countF s2 _ _ 0 0 0 (by decide) (by decide)
    · exact field s2 _ _ (by decide)

theorem recordsOnly_rasEvent (s : State) (r : RasRec) : RecordsOnly logParts s (s.rasEvent r) := by
  have word (s : State) (i j v : Nat) : RecordsOnly logParts s (s.setReg .rasLog i j 0 v) := .setReg s i j 0 v (by decide) (by decide)
  unfold State.rasEvent
  extract_lets e i s1 s2 s3 s4 s5 ras s6
  have h4 : RecordsOnly logParts s s4 := (word s _ _ _).trans ((word s1 _ _ _).trans ((word s2 _ _ _).trans (word s3 _ _ _)))
  have h5 : RecordsOnly logParts s4 s5 := .setF s4 _ _ 0 0 0 (by decide) (by decide)
  have h6 : RecordsOnly logParts s5 s6 := .ras s5 _ (by decide)
  refine h4.trans (h5.trans (h6.trans ?_))
  split
  · exact recordsOnly_ringPut s6 _ _ _
  · exact .refl _ _

/-- The count of a memory's errors (Table 13.4): a corrected one in its field, an uncorrectable one in its field and the event log. -/
theorem recordsOnly_errCount (s : State) (f kind code : Nat) {corr uncorr : Fld} (hc : corr.reg ∈ recordRegs) (hu : uncorr.reg ∈ recordRegs) :
    RecordsOnly logParts s (if kind = 1 then s.countF corr 1 f
      else if kind = 2 then (s.countF uncorr 1 f).poisonEvent code f true else s) := by
  split
  · exact .countF s corr 1 f 0 0 (by decide) hc
  · split
    · exact .trans (.countF s uncorr 1 f 0 0 (by decide) hu) (recordsOnly_rasEvent _ _)
    · exact .refl _ s

theorem recordsOnly_storeErrCount (s : State) (f kind : Nat) : RecordsOnly logParts s (s.storeErrCount f kind) :=
  recordsOnly_errCount s f kind 0x11 (corr := F.rasFldErr_SEQ_CORR) (uncorr := F.rasFldErr_SEQ_UNCORR) (by decide) (by decide)

theorem recordsOnly_sramErrCount (s : State) (f kind : Nat) : RecordsOnly logParts s (s.sramErrCount f kind) :=
  recordsOnly_errCount s f kind 0x02 (corr := F.rasFldErr_SRAM_CORR) (uncorr := F.rasFldErr_SRAM_UNCORR) (by decide) (by decide)

/-! ### The end of requests -/

/-- The parts that the end of a request reaches: its page or REJECT word, and the log (R182, R246, R251). -/
def flightParts : List Part := [.freeCtr, .regs, .hub, .ports, .ras, .sloe]

theorem recordsOnly_count48_seqCnt (s : State) (n i j : Nat) : RecordsOnly logParts s (s.count48 .seqCnt n i j) := by
  have word (v : Nat) : RecordsOnly logParts s (s.setReg .seqCnt i j 0 v) := .setReg s i j 0 v (by decide) (by decide)
  unfold State.count48
  dsimp only
  split
  · exact .refl _ _
  · split
    · exact word _
    · split
      · exact .refl _ _
      · exact (word _).trans (recordsOnly_rasEvent _ _)

theorem recordsOnly_resultEntries (r : Req) (n : Nat) (s : State) : RecordsOnly flightParts s (State.resultEntries r n s).2 := by
  induction n generalizing s with
  | zero => exact .refl _ _
  | succ n ih => exact .trans (.freeCtr s _ (by decide)) (ih _)

theorem recordsOnly_rejectReq (s : State) (r : Req) (st : Nat) : RecordsOnly flightParts s (s.rejectReq r st) :=
  .trans (.setPort s _ _ (by decide)) (.hub _ _ (by decide) rfl)

theorem recordsOnly_leaveFlight (s : State) (r : Req) : RecordsOnly flightParts s (s.leaveFlight r) := by
  unfold State.leaveFlight
  extract_lets late st count d s1 p pg s2 hub s3
  split
  · exact recordsOnly_rejectReq s r st
  · have h1 : RecordsOnly flightParts s s1 := recordsOnly_resultEntries r count s
    have h2 : RecordsOnly flightParts s1 s2 := .setPort s1 _ _ (by decide)
    have h3 : RecordsOnly flightParts s2 s3 := .hub s2 _ (by decide) rfl
    refine h1.trans (h2.trans (h3.trans ?_))
    split
    · exact (recordsOnly_count48_seqCnt s3 1 _ 3).mono (by decide)
    · exact .refl _ _

theorem recordsOnly_endAll (s : State) (slot st : Nat) : RecordsOnly flightParts s (s.endAll slot st) := by
  unfold State.endAll
  split
  · exact .refl _ _
  · exact recordsOnly_leaveFlight s _

theorem recordsOnly_endSlot (s : State) (slot : Option Nat) (st : Nat) : RecordsOnly flightParts s (s.endSlot slot st) := by
  cases slot with
  | none => exact .refl _ _
  | some k => exact recordsOnly_endAll s k st

theorem recordsOnly_endTenantIn (s : State) (t f st : Nat) : RecordsOnly flightParts s (s.endTenantIn t f st) :=
  .foldl (step := fun s (r : Req) => s.endAll r.slot st) (fun s r => recordsOnly_endAll s r.slot st) (s.inField t f) s

theorem recordsOnly_endField (s : State) (f st : Nat) : RecordsOnly flightParts s (s.endField f st) :=
  .foldl (step := fun s t => s.endTenantIn t f st) (fun s t => recordsOnly_endTenantIn s t f st) (upTo 16) s

end Sys2Proof.Machine
end

section
/-! The precise fault of a tile (R71, R73, Table 3.7): what `tileFault` leaves, said once. -/

namespace Sys2Proof.Machine

open Sys2Proof

/-- A sample dropped changes the sampling of its own core, and its count. -/
theorem State.dropTrace_frame (s : State) (x : Site) :
    (∃ tr sn, (s.dropTrace x).core x = { s.core x with trace := tr, sampleNext := sn }) ∧
      (∀ y, y ≠ x → (s.dropTrace x).core y = s.core y) ∧ keeps [.tiles, .regs, .sloe] s (s.dropTrace x) := by
  have same : (∃ tr sn, s.core x = { s.core x with trace := tr, sampleNext := sn }) ∧ (∀ y, y ≠ x → s.core y = s.core y) ∧
      keeps [.tiles, .regs, .sloe] s s := ⟨⟨_, _, rfl⟩, fun _ _ => rfl, keeps_refl _ s⟩
  unfold State.dropTrace
  extract_lets c
  split
  · split
    · exact same
    · have hr (u : State) := keeps_setReg u F.rasWitErr_SKIPPED.reg 0 0 0
      have core (u : State) (y : Site) : (u.countF F.rasWitErr_SKIPPED 1).core y = u.core y :=
        core_eq_of_keeps (hr u _) (by decide) (by decide) y
      refine ⟨⟨none, true, ?_⟩, fun y hy => ?_, ?_⟩
      · rw [core, State.core_setCore_same]
      · rw [core, State.core_setCore_ne s x y _ hy]
      · exact keeps_trans (keeps_mono (keeps_setCore s x _) (by decide)) (keeps_mono (hr _ _) (by decide))
  · exact same

/-- TS of a core that takes a fault at gather element `elem`. -/
def Tile.faultTs (c : Tile) (elem : Nat) : Word := ((((c.tsPut 6 1 1).tsPut 8 4 elem).tsPut 20 1 0).tsPut 21 1 0).ts

/-- `TIL_FAULT_INFO` of a fault (Table 3.7). -/
def TFault.info (fl : TFault) : Nat := fl.cause.code + bit fl.glob * 2 ^ 8 + bit fl.write * 2 ^ 9 + (fl.addr % 2 ^ 48) * 2 ^ 16

/-- The core that has taken a fault, its TS now `ts`. -/
def Tile.faulted (c : Tile) (fl : TFault) (ts : Word) : Tile :=
  { c with ts := ts, faultInfo := if c.faultInfo = 0 then BitVec.ofNat 64 fl.info else c.faultInfo, wait := .none, got := [],
           posts := c.reportPost fl, ir := none }

/-- The core as `tileFault` writes it: its TS put field by field. -/
theorem Tile.faulted_eq (c : Tile) (fl : TFault) (elem : Nat) :
    c.faulted fl (c.faultTs elem) = { (((c.tsPut 6 1 1).tsPut 8 4 elem).tsPut 20 1 0).tsPut 21 1 0 with
      faultInfo := if c.faultInfo = 0 then BitVec.ofNat 64 fl.info else c.faultInfo, wait := .none, got := [], posts := c.reportPost fl,
      ir := none } := by
  have h := Tile.tsOnly_trans (Tile.tsOnly_trans (c.tsOnly_tsPut 6 1 1) (Tile.tsOnly_tsPut _ 8 4 elem))
    (Tile.tsOnly_trans (Tile.tsOnly_tsPut _ 20 1 0) (Tile.tsOnly_tsPut _ 21 1 0))
  simp only [Tile.faulted, Tile.faultTs]
  generalize (((c.tsPut 6 1 1).tsPut 8 4 elem).tsPut 20 1 0).tsPut 21 1 0 = d at h ⊢
  rw [Tile.tsOnly] at h
  generalize d.ts = v at h ⊢
  rw [h]

theorem Tile.faultTs_bits (c : Tile) {d : Tile} {elem : Nat} (h : d.ts = c.faultTs elem) (he : elem < 16) :
    d.fault = true ∧ d.tsGet 8 4 = elem ∧ d.waiting = false ∧ d.qstall = false := by
  rw [Tile.faultTs] at h
  simp (disch := omega) [Tile.fault, Tile.waiting, Tile.qstall, Tile.tsGet_of_ts_eq h, Tile.tsGet_tsPut_apart, Tile.tsGet_tsPut_same, he]

/-- What a fault does outside its core `c`: an uncorrectable error of a tile's SRAM is counted and the sequencer told. -/
def State.tellFault (s : State) (x : Site) (c : Tile) (fl : TFault) : State :=
  match x with
  | .sloe => s
  | .tile f u =>
    let s1 := if fl.cause = .poison ∧ !fl.glob ∧ !fl.sync ∧ c.errAt fl.addr = 2 then s.sramErrCount f.val 2 else s
    s1.seqEvent f.val { kind := 2, tenant := s.actTenant f.val, tile := u.val, arg := (s1.reqOf f.val (s.actTenant f.val)).getD 0 }

theorem State.tileFault_eq (s : State) (x : Site) (fl : TFault) (elem : Nat) : s.tileFault x fl elem =
    ((s.dropTrace x).setCore x (((s.dropTrace x).core x).faulted fl (((s.dropTrace x).core x).faultTs elem))).tellFault x
      ((s.dropTrace x).core x) fl := by
  rw [Tile.faulted_eq]
  cases x <;> rfl

/-- A field's event changes its sequencer's queue and its detector. -/
theorem State.seqEvent_frame (s : State) (f : Nat) (r : EvRec) :
    ((s.seqEvent f r).seq f).events = (s.seq f).events ++ [r] ∧ (∀ g, ((s.seqEvent f r).field g).bars = (s.field g).bars) ∧
      keeps [.fields] s (s.seqEvent f r) := by
  refine ⟨?_, fun g => ?_, ?_⟩
  · simp only [State.seqEvent, State.seq_wake, State.seq_progress, State.seq_setSeq_same]
  · simp only [State.seqEvent, State.bars_wake, State.bars_progress, State.bars_setSeq]
  · exact keeps_trans (keeps_setField _ _ _) (keeps_trans (keeps_setField _ _ _) (keeps_setField _ _ _))

theorem State.tellFault_frame (s : State) (x : Site) (c : Tile) (fl : TFault) : let t := s.tellFault x c fl
    (∀ y, t.core y = s.core y) ∧ keeps [.fields, .regs, .ras, .sloe] s t ∧ (∀ f, (t.field f).bars = (s.field f).bars) ∧
      ∀ f u, x = .tile f u → ∃ r : EvRec, (t.seq f.val).events = (s.seq f.val).events ++ [r] ∧ r.kind = 2 ∧ r.tile = u.val := by
  cases x with
  | sloe => exact ⟨fun _ => rfl, keeps_refl _ s, fun _ => rfl, fun _ _ h => nomatch h⟩
  | tile f u =>
    simp only [State.tellFault]
    generalize hs1 : (if fl.cause = .poison ∧ !fl.glob ∧ !fl.sync ∧ c.errAt fl.addr = 2 then s.sramErrCount f.val 2 else s) = s1
    generalize hr : ({ kind := 2, tenant := s.actTenant f.val, tile := u.val, arg := _ } : EvRec) = r
    have hrec : RecordsOnly logParts s s1 := by
      rw [← hs1]
      split
      · exact recordsOnly_sramErrCount s f.val 2
      · exact .refl _ s
    obtain ⟨hev, hbars, hk⟩ := s1.seqEvent_frame f.val r
    have hf (g : Nat) : s1.field g = s.field g := hrec.field_eq (by decide) g
    refine ⟨fun y => ?_, keeps_trans (keeps_mono hrec.parts (by decide)) (keeps_mono hk (by decide)), fun g => ?_, fun f' u' hx => ⟨r, ?_⟩⟩
    · exact (core_eq_of_keeps hk (by decide) (by decide) y).trans (hrec.core_eq (by decide) y)
    · rw [hbars, hf]
    · obtain ⟨rfl, rfl⟩ := Site.tile.inj hx
      exact ⟨by rw [hev, State.seq, hf, State.seq], by rw [← hr], by rw [← hr]⟩

/-- What a fault leaves (R71): the faulted core, the sequencer of a tile told, every barrier group as it was. -/
theorem State.tileFault_frame (s : State) (x : Site) (fl : TFault) (elem : Nat) : let t := s.tileFault x fl elem
    t.core x = ((s.dropTrace x).core x).faulted fl (((s.dropTrace x).core x).faultTs elem) ∧ (∀ y, y ≠ x → t.core y = s.core y) ∧
      keeps [.tiles, .fields, .regs, .ras, .sloe] s t ∧ (∀ f g, t.bar f g = s.bar f g) ∧
      ∀ f u, x = .tile f u → ∃ r : EvRec, (t.seq f.val).events = (s.seq f.val).events ++ [r] ∧ r.kind = 2 ∧ r.tile = u.val := by
  rw [State.tileFault_eq]
  obtain ⟨-, hd, hdk⟩ := s.dropTrace_frame x
  generalize s.dropTrace x = u at hd hdk ⊢
  generalize u.core x = c
  generalize c.faultTs elem = v
  have hy (y : Site) (hne : y ≠ x) := (State.core_setCore_ne u x y (c.faulted fl v) hne).trans (hd y hne)
  have hk : keeps [.tiles, .regs, .sloe] s _ := keeps_trans hdk (keeps_mono (keeps_setCore u x (c.faulted fl v)) (by decide))
  have hc := State.core_setCore_same u x (c.faulted fl v)
  generalize u.setCore x (c.faulted fl v) = w at hy hk hc ⊢
  obtain ⟨htc, htk, htb, htq⟩ := w.tellFault_frame x c fl
  have hf (g : Nat) : w.field g = s.field g := by
    have h : w.fields = s.fields := hk .fields (by decide)
    simp only [State.field, h]
  refine ⟨(htc x).trans hc, fun y hne => (htc y).trans (hy y hne), keeps_trans (keeps_mono hk (by decide)) (keeps_mono htk (by decide)),
    fun f g => State.bar_eq_of_bars_eq ((htb f).trans (congrArg Field.bars (hf f))) g, fun f t hx => ?_⟩
  obtain ⟨r, hr⟩ := htq f t hx
  exact ⟨r, by simpa only [State.seq, hf] using hr⟩

theorem Tile.ts_faulted (c : Tile) (fl : TFault) (ts : Word) : (c.faulted fl ts).ts = ts := rfl

/-- The faulted core beside the core before the sample was dropped. -/
theorem Tile.faulted_sampled {c d : Tile} (fl : TFault) (ts : Word) (h : ∃ tr sn, d = { c with trace := tr, sampleNext := sn }) :
    (d.faulted fl ts).faultInfo = (if c.faultInfo = 0 then BitVec.ofNat 64 fl.info else c.faultInfo) ∧
      d.faulted fl ts = { c with
        ts := (d.faulted fl ts).ts, faultInfo := (d.faulted fl ts).faultInfo, wait := .none, got := [],
        trace := (d.faulted fl ts).trace, sampleNext := (d.faulted fl ts).sampleNext, posts := c.reportPost fl, ir := none } := by
  obtain ⟨tr, sn, rfl⟩ := h
  exact ⟨rfl, rfl⟩

/-- A precise fault of a core is what the statements say of one (R71, R73, Table 3.7). -/
theorem State.tileFault_faultsAt (s : State) (x : Site) (fl : TFault) {elem : Nat} (he : elem < 16) :
    faultsAt x s fl elem (s.tileFault x fl elem) := by
  obtain ⟨hc, hy, hk, -, hev⟩ := s.tileFault_frame x fl elem
  obtain ⟨hi, heq⟩ := Tile.faulted_sampled fl (((s.dropTrace x).core x).faultTs elem) (s.dropTrace_frame x).1
  have hts := (congrArg Tile.ts hc).trans (Tile.ts_faulted _ _ _)
  rw [← hc] at hi heq
  obtain ⟨h1, h2, h3, h4⟩ := Tile.faultTs_bits _ hts he
  refine ⟨h1, h2, h3, h4, hi.trans ?_, heq, hy, hk, hev⟩
  simp only [TFault.info, bit, ite_mul, one_mul, zero_mul]

end Sys2Proof.Machine
end

section
/-! The precise fault of a sequencer (R117, Table 5.10): what `seqFault` leaves, said once. -/

namespace Sys2Proof.Machine

open Sys2Proof

theorem State.spc_lt (s : State) (f : Nat) : s.spc f < 2 ^ 24 := bitsOf_lt _ _ _

/-- The registers of a sequencer that leaves T mode for the microcode's event entry (R114). -/
def State.entryRegs (s : State) (f : Nat) : State :=
  (((s.setF F.seqTpc_PC (s.spc f) f).setF F.seqStat_MODE 0 f).setF F.seqStat_REPEAT 0 f).setF F.seqPc_PC (Config.eventEntry.toNat % 2 ^ 24) f

theorem State.entryRegs_frame (s : State) (f : Nat) : let t := s.entryRegs f
    t.tmode f = false ∧ t.getF F.seqTpc_PC f = s.spc f ∧ t.spc f = Config.eventEntry.toNat ∧ regsKept [.seqTpc, .seqStat, .seqPc] s t ∧
      keeps [.regs] s t := by
  have he : Config.eventEntry.toNat % 2 ^ 24 = Config.eventEntry.toNat := Nat.mod_eq_of_lt Config.eventEntry.isLt
  have hp : s.spc f % 2 ^ 24 = s.spc f := Nat.mod_eq_of_lt (s.spc_lt f)
  refine ⟨?mode, ?tpc, ?pc, ?regs, ?parts⟩
  case mode => simp (disch := simp) [State.entryRegs, State.tmode, State.flag_setF_apart, State.flag_setF_same]
  case tpc => simp (disch := simp) only [State.entryRegs, State.getF_setF_apart, State.getF_setF_same, hp]
  case pc => simp (disch := simp) only [State.entryRegs, State.spc, State.getF_setF_same, he]
  case regs =>
    exact regsKept_trans (regsKept_setF s F.seqTpc_PC _ f 0 0 (by decide)) (regsKept_trans (regsKept_setF _ F.seqStat_MODE 0 f 0 0 (by decide))
      (regsKept_trans (regsKept_setF _ F.seqStat_REPEAT 0 f 0 0 (by decide)) (regsKept_setF _ F.seqPc_PC _ f 0 0 (by decide))))
  case parts =>
    exact keeps_trans (keeps_setF s F.seqTpc_PC _ f 0 0) (keeps_trans (keeps_setF _ F.seqStat_MODE 0 f 0 0)
      (keeps_trans (keeps_setF _ F.seqStat_REPEAT 0 f 0 0) (keeps_setF _ F.seqPc_PC _ f 0 0)))

theorem State.toEventEntry_eq (s : State) (f : Nat) : ∃ tw, s.toEventEntry f =
    (s.entryRegs f).setSeq f { s.seq f with wait := .none, got := [], twait := tw } := ⟨_, rfl⟩

/-- T mode ends at the event entry, pc in `SEQ_TPC` (R114). -/
theorem State.toEventEntry_frame (s : State) (f : Nat) : let t := s.toEventEntry f
    t.tmode f = false ∧ t.getF F.seqTpc_PC f = s.spc f ∧ t.spc f = Config.eventEntry.toNat ∧ (t.seq f).wait = .none ∧
      (t.seq f).p = (s.seq f).p ∧ regsKept [.seqTpc, .seqStat, .seqPc] s t ∧ keeps [.regs, .fields] s t ∧
      ∀ g, (t.field g).bars = (s.field g).bars := by
  obtain ⟨tw, ht⟩ := s.toEventEntry_eq f
  obtain ⟨hm, htp, hpc, hr, hk⟩ := s.entryRegs_frame f
  have hf (g : Nat) : (s.entryRegs f).field g = s.field g := by
    have h : (s.entryRegs f).fields = s.fields := hk .fields (by decide)
    simp only [State.field, h]
  simp only [ht, State.seq_setSeq_same, State.bars_setSeq, hf]
  refine ⟨hm, htp, hpc, trivial, trivial, hr, ?_, fun _ => trivial⟩
  exact keeps_trans (keeps_mono hk (by decide)) (keeps_mono (keeps_setField _ f _) (by decide))

/-- `SEQ_FAULT_INFO` of a fault taken in mode `t` (Table 5.10). -/
def TFault.seqInfo (fl : TFault) (t : Bool) : Nat :=
  fl.cause.code + bit t * 2 ^ 8 + bit fl.glob * 2 ^ 9 + bit fl.write * 2 ^ 10 + (fl.addr % 2 ^ 48) * 2 ^ 16

theorem TFault.seqInfo_lt (fl : TFault) (t : Bool) : fl.seqInfo t < 2 ^ 64 := by
  have hb (b : Bool) : bit b ≤ 1 := by cases b <;> decide
  have hc : fl.cause.code ≤ 12 := by cases fl.cause <;> decide
  have h1 := hb t
  have h2 := hb fl.glob
  have h3 := hb fl.write
  unfold TFault.seqInfo
  omega

/-- The state in which a sequencer's fault is recorded and its instruction ended, before the requests end (R117). -/
def State.seqStopped (s : State) (f : Nat) (fl : TFault) : State :=
  let s1 := s.setReg .seqFaultInfo f 0 0 (fl.seqInfo (s.tmode f))
  let s2 := if fl.cause = .poison ∧ !fl.glob ∧ !fl.sync then s1.storeErrCount f 2 else s1
  (s2.setSeq f { s2.seq f with wait := .none, got := [] }).setF F.seqStat_REPEAT 0 f

theorem State.seqFault_eq (s : State) (f : Nat) (fl : TFault) : s.seqFault f fl =
    if s.tmode f then
      ((s.seqStopped f fl).endSlot ((s.seqStopped f fl).runningReq f) fl.cause.seqStatus).toEventEntry f
    else ((s.seqStopped f fl).setF F.seqStat_HALTED 1 f).endField f 0x3F := rfl

theorem State.seqStopped_frame (s : State) (f : Nat) (fl : TFault) : let t := s.seqStopped f fl
    t.reg .seqFaultInfo f 0 0 = fl.seqInfo (s.tmode f) ∧ t.spc f = s.spc f ∧ (t.seq f).wait = .none ∧ (t.seq f).p = (s.seq f).p ∧
      (∀ g, (t.field g).bars = (s.field g).bars) ∧ t.hub = s.hub := by
  unfold State.seqStopped
  extract_lets s1 s2
  have hrec : RecordsOnly logParts s1 s2 := by
    simp only [s2]
    split
    · exact recordsOnly_storeErrCount s1 f 2
    · exact .refl _ s1
  have hf (g : Nat) : s2.field g = s.field g := hrec.field_eq (by decide) g
  have hs : ((s2.setSeq f { s2.seq f with wait := .none, got := [] }).setF F.seqStat_REPEAT 0 f).seq f = _ := State.seq_setSeq_same s2 f _
  have hq : s2.seq f = s.seq f := congrArg Field.seq (hf f)
  refine ⟨?info, ?pc, by rw [hs], by rw [hs, hq], fun g => ?bars, ?hub⟩
  case info =>
    rw [State.reg_setF_other _ _ _ _ _ _ _ _ _ _ (by decide)]
    change s2.reg .seqFaultInfo f 0 0 = _
    rw [hrec.reg_eq (by decide), State.reg_setReg_same, Nat.mod_eq_of_lt (fl.seqInfo_lt _)]
  case pc =>
    rw [State.spc, State.getF_setF_apart _ _ _ _ _ _ _ _ _ _ (by decide) (by simp)]
    change s2.getF F.seqPc_PC f = _
    rw [hrec.getF_eq (by decide), State.getF, State.reg_setReg_ne _ _ _ _ _ _ _ _ _ _ (rkey_ne (by decide) _ _ _ _ _ _)]
    rfl
  case bars =>
    change ((s2.setSeq f _).field g).bars = _
    rw [State.bars_setSeq, hf]
  case hub => exact (hrec.parts .hub (by decide))

/-- The sequencer took fault `fl` and no barrier group, of a field or of the wafer, counted or changed (R197). -/
def seqFaultsUncounted (f : Nat) (s : State) (fl : TFault) (t : State) : Prop :=
  seqFaultsAt f s fl t ∧ (∀ h g, t.bar h g = s.bar h g) ∧ ∀ g, t.wbarArrivals g = s.wbarArrivals g

/-- A precise fault of a sequencer is what the statements say of one (R117), and every barrier group stays as it was. -/
theorem State.seqFault_seqFaultsAt (s : State) (f : Nat) (fl : TFault) : seqFaultsUncounted f s fl (s.seqFault f fl) := by
  rw [State.seqFault_eq]
  obtain ⟨hi, hpc, hw, hp, hb, hh⟩ := s.seqStopped_frame f fl
  have hinfo : fl.seqInfo (s.tmode f) = fl.cause.code + (if s.tmode f then 2 ^ 8 else 0) + (if fl.glob then 2 ^ 9 else 0)
      + (if fl.write then 2 ^ 10 else 0) + fl.addr % 2 ^ 48 * 2 ^ 16 := by
    simp only [TFault.seqInfo, bit, ite_mul, one_mul, zero_mul]
  have ha (g : Nat) : (s.seqStopped f fl).wbarArrivals g = s.wbarArrivals g := by simp only [State.wbarArrivals, hh]
  generalize s.seqStopped f fl = u at hi hpc hw hp hb ha ⊢
  cases hm : s.tmode f with
  | true =>
    rw [if_pos rfl]
    have hr := recordsOnly_endSlot u (u.runningReq f) fl.cause.seqStatus
    generalize u.endSlot (u.runningReq f) fl.cause.seqStatus = v at hr ⊢
    obtain ⟨htm, htpc, hent, htw, htp, htr, htk, htb⟩ := v.toEventEntry_frame f
    have hv (g : Nat) : v.field g = u.field g := hr.field_eq (by decide) g
    refine ⟨⟨?_, fun h => absurd (hm.symm.trans h) (by decide), fun _ => ⟨htm, ?_, hent⟩, htw, ?_⟩, fun h g => ?_, fun g => ?_⟩
    · rw [htr _ _ _ _ (by decide), hr.reg_eq (by decide), hi, hinfo, hm]
    · rw [htpc, State.spc, hr.getF_eq (by decide)]
      exact hpc
    · rw [htp, State.seq, hv]
      exact hp
    · exact State.bar_eq_of_bars_eq ((htb h).trans ((congrArg Field.bars (hv h)).trans (hb h))) g
    · exact (State.wbarArrivals_eq_of_keeps htk (by decide) g).trans ((hr.wbarArrivals_eq g).trans (ha g))
  | false =>
    rw [if_neg (by decide)]
    have hr := recordsOnly_endField (u.setF F.seqStat_HALTED 1 f) f 0x3F
    have hv (g : Nat) : State.field _ g = u.field g := hr.field_eq (by decide) g
    refine ⟨⟨?_, fun _ => ⟨?_, ?_⟩, fun h => absurd (hm.symm.trans h) (by decide), ?_, ?_⟩, fun h g => ?_, fun g => ?_⟩
    · rw [hr.reg_eq (by decide), State.reg_setF_other _ _ _ _ _ _ _ _ _ _ (by decide), hi, hinfo, hm]
    · rw [hr.flag_eq (by decide), State.flag_setF_same _ _ _ _ _ _ (by decide)]
      rfl
    · rw [State.spc, hr.getF_eq (by decide), State.getF_setF_apart _ _ _ _ _ _ _ _ _ _ (by decide) (by simp)]
      exact hpc
    · rw [State.seq, hv]
      exact hw
    · rw [State.seq, hv]
      exact hp
    · exact State.bar_eq_of_bars_eq ((congrArg Field.bars (hv h)).trans (hb h)) g
    · exact (hr.wbarArrivals_eq g).trans (ha g)

end Sys2Proof.Machine
end

section
/-! Arrivals at barrier groups (R196, R197): counted, or refused and not counted. -/

namespace Sys2Proof.Machine

open Sys2Proof

/-- A group with EXPECT = 0 refuses an arrival (R197). -/
theorem State.arriveF_refused {s : State} {f g : Nat} (h : (s.bar f g).expect = 0) : s.arriveF f g = .error (syncFault g) := by
  simp only [State.arriveF, h, if_true]

/-- An arrival at a field group that takes part counts there and changes nothing else but the field's detector and injection (R196). -/
theorem State.arriveF_counted {s : State} {f g : Nat} (h : (s.bar f g).expect ≠ 0) :
    ∃ s1, s.arriveF f g = .ok s1 ∧ fieldOnly f s s1 ∧ s1.seq f = s.seq f ∧
      s1.bar f g = { s.bar f g with arrivals := (s.bar f g).arrivals + 1, parity := (s.bar f g).parity || (s.field f).treeInj } ∧
      ∀ k, k ≠ g → s1.bar f k = s.bar f k := by
  refine ⟨_, if_neg h, ⟨fun k hk => ?_, ?_⟩, ?_, ?_, fun k hk => ?_⟩
  · simp only [State.progress, State.setBar, State.field_setField_ne _ _ _ _ hk]
  · exact keeps_trans (keeps_setField _ _ _) (keeps_trans (keeps_setField _ _ _) (keeps_setField _ _ _))
  · rw [State.seq_progress, State.seq, State.field_setField_same, State.setBar, State.field_setField_same]
    rfl
  · simp only [State.bar, State.bars_progress, State.setBar, State.field_setField_same, Tab.get_set_same]
  · simp only [State.bar, State.bars_progress, State.setBar, State.field_setField_same, Tab.get_set_ne _ _ _ hk]

/-- Progress of a tenant's fields restarts their detectors and nothing else (R204). -/
theorem State.progressTenant_frame (s : State) (t : Nat) :
    keeps [.fields] s (s.progressTenant t) ∧ ∀ f, (s.progressTenant t).seq f = s.seq f := by
  have fold : ∀ (l : List Nat) (s : State),
      let s1 := l.foldl (fun s f => if s.residentIs f t then s.progress f else s) s
      keeps [.fields] s s1 ∧ ∀ f, s1.seq f = s.seq f := by
    intro l
    induction l with
    | nil => exact fun s => ⟨keeps_refl _ s, fun _ => rfl⟩
    | cons f l ih =>
      intro s
      obtain ⟨hk, hq⟩ := ih (if s.residentIs f t then s.progress f else s)
      refine ⟨keeps_trans ?_ hk, fun k => (hq k).trans ?_⟩
      · split
        · exact keeps_setField _ _ _
        · exact keeps_refl _ s
      · split
        · exact State.seq_progress s f k
        · rfl
  exact fold _ s

/-- A wafer group that is not VALID, or not the tenant's, refuses an arrival (R197). -/
theorem State.arriveW_refused {s : State} {t g : Nat} (h : s.flag F.hubWbar_VALID g = false ∨ s.getF F.hubWbar_OWNER g ≠ t) :
    s.arriveW t g = .error (syncFault g) := by
  have hb : (!s.flag F.hubWbar_VALID g || s.getF F.hubWbar_OWNER g != t) = true := by simpa using h
  simp only [State.arriveW, hb, if_true]

/-- One more arrival on its way to the root of wafer group `g`. -/
def State.countW (s : State) (g : Nat) : State :=
  { s with hub := { s.hub with wbarArr := Tab.set (fun _ => 0) s.hub.wbarArr g (s.wbarArrivals g + 1) } }

theorem State.wbarArrivals_countW (s : State) (g k : Nat) :
    (s.countW g).wbarArrivals k = if k = g then s.wbarArrivals g + 1 else s.wbarArrivals k :=
  Tab.get_set (fun _ => 0) s.hub.wbarArr g k (s.wbarArrivals g + 1)

theorem keeps_countW (s : State) (g : Nat) : keeps [.hub] s (s.countW g) := by
  intro p hp
  cases p <;> simp [Part.same, State.countW] at hp ⊢

/-- An arrival at a VALID wafer group of the tenant counts there and at no other; no register and no sequencer changes (R196). -/
theorem State.arriveW_counted {s : State} {t g : Nat} (hv : s.flag F.hubWbar_VALID g = true) (ho : s.getF F.hubWbar_OWNER g = t) :
    ∃ s1, s.arriveW t g = .ok s1 ∧ keeps [.fields, .hub] s s1 ∧ (∀ f, s1.seq f = s.seq f) ∧
      s1.wbarArrivals g = s.wbarArrivals g + 1 ∧ ∀ k, k ≠ g → s1.wbarArrivals k = s.wbarArrivals k := by
  have hb : ¬ (!s.flag F.hubWbar_VALID g || s.getF F.hubWbar_OWNER g != t) = true := by simp [hv, ho]
  obtain ⟨hk, hq⟩ := (s.countW g).progressTenant_frame t
  have hw (k : Nat) := (State.wbarArrivals_eq_of_keeps hk (by simp) k).trans (s.wbarArrivals_countW g k)
  refine ⟨(s.countW g).progressTenant t, if_neg hb, ?_, hq, (hw g).trans (if_pos rfl), fun k hne => (hw k).trans (if_neg hne)⟩
  exact keeps_trans (keeps_mono (keeps_countW s g) (by simp)) (keeps_mono hk (by simp))

end Sys2Proof.Machine
end

section
/-! The barrier instructions of a tile and of a sequencer (R105, R137, R196, R197). -/

namespace Sys2Proof.Machine

open Sys2Proof

/-! ### A tile at a barrier -/

/-- TS of a core that waits: QSTALL 0, WAIT as `gate` says. -/
def Tile.waitTs (c : Tile) (gate : Bool) : Word := ((c.tsPut 21 1 0).tsPut 20 1 (bit gate)).ts

theorem waitOn_eq (s : State) (f : FieldNo) (u : TileNo) (w : TWait) (gate : Bool) :
    waitOn s f u w gate = s.setTile f.val u.val { s.tile f.val u.val with ts := (s.tile f.val u.val).waitTs gate, wait := w } := by
  have h := Tile.tsOnly_trans ((s.tile f.val u.val).tsOnly_tsPut 21 1 0) (Tile.tsOnly_tsPut _ 20 1 (bit gate))
  simp only [waitOn, Tile.waitTs]
  generalize ((s.tile f.val u.val).tsPut 21 1 0).tsPut 20 1 (bit gate) = d at h ⊢
  rw [Tile.tsOnly] at h
  generalize d.ts = v at h ⊢
  rw [h]

theorem Tile.waiting_of_waitTs {c d : Tile} {gate : Bool} (h : d.ts = c.waitTs gate) : d.waiting = gate := by
  rw [Tile.waitTs] at h
  rw [Tile.waiting, Tile.tsGet_of_ts_eq h, Tile.tsGet_tsPut_same _ _ _ _ (by omega)]
  cases gate <;> rfl

/-- A core with no posted store need not wait for one (R137). -/
theorem syncPosts_nil {x : Site} {e : Ev} (h : (e.s.core x).posts = []) (posts : Bool) :
    (if posts then syncPosts x e else .ok e) = .ok e := by
  simp [syncPosts, h, Tile.postsOut]

section
variable {f : FieldNo} {u : TileNo} {s : State} {posts : Bool} {body : FieldNo → TileNo → State → Except TFault State}
  (hi : s.canIssue (.tile f u) = true) (hp : (s.tile f.val u.val).posts = [])
include hi hp

theorem waitInstr_ok {s1 : State} (hb : body f u s = .ok s1) : waitInstr (.tile f u) s posts false body = s1 := by
  have hsync := syncPosts_nil (x := .tile f u) (e := { s := s }) hp posts
  simp only [waitInstr, hi, hsync, hb, Bool.not_true, Bool.false_eq_true, if_false]

theorem waitInstr_fault {fl : TFault} (hb : body f u s = .error fl) :
    waitInstr (.tile f u) s posts false body = s.tileFault (.tile f u) fl := by
  have hsync := syncPosts_nil (x := .tile f u) (e := { s := s }) hp posts
  simp only [waitInstr, hi, hsync, hb, Bool.not_true, Bool.false_eq_true, if_false]
end

/-- A tile that is told to wait for `w` has TS.WAIT set and its PC where it was; no other core changes. -/
theorem waitOn_frame {l : List Part} {s s1 : State} (hk : keeps l s s1) (ht : .tiles ∉ l) (hs : .sloe ∉ l) (f : FieldNo) (u : TileNo)
    (w : TWait) : let t := waitOn s1 f u w true
    (t.tile f.val u.val).waiting = true ∧ t.tile f.val u.val = { s.tile f.val u.val with ts := (t.tile f.val u.val).ts, wait := w } ∧
      (∀ y, y ≠ Site.tile f u → t.core y = s.core y) ∧ keeps [.tiles] s1 t := by
  have hc : s1.tile f.val u.val = s.tile f.val u.val := core_eq_of_keeps hk ht hs (.tile f u)
  rw [waitOn_eq, hc]
  generalize hv : (s.tile f.val u.val).waitTs true = v
  simp only [State.tile_setTile_same]
  refine ⟨Tile.waiting_of_waitTs hv.symm, trivial, fun y hy => ?_, keeps_setTile _ _ _ _⟩
  exact (State.core_setCore_ne s1 (.tile f u) y _ hy).trans (core_eq_of_keeps hk ht hs y)

/-- BARW of one of the 64 wafer groups is legal. -/
theorem group_legal {imm : Byte} (hg : imm.toNat < 64) : decide (imm.toNat > 63) = false := by simpa using Nat.le_of_lt_succ hg

section
variable {s : State} {f : FieldNo} {u : TileNo} {imm : Byte} (hi : s.canIssue (.tile f u) = true) (hp : (s.tile f.val u.val).posts = [])
include hi hp

theorem execTBarf_of_counted {s1 : State} (h : s.arriveF f.val imm.toNat = .ok s1) : execTBarf (.tile f u) imm s =
    .next (waitOn s1 f u (.barF imm.toNat (s.bar f.val imm.toNat).sense) true) :=
  congrArg _ (waitInstr_ok hi hp (by simp only [h]))

theorem execTBarf_of_refused {fl : TFault} (h : s.arriveF f.val imm.toNat = .error fl) :
    execTBarf (.tile f u) imm s = .next (s.tileFault (.tile f u) fl) :=
  congrArg _ (waitInstr_fault hi hp (by simp only [h]))

variable (hg : imm.toNat < 64)
include hg

theorem execTBarw_of_counted {s1 : State} (h : s.arriveW (s.actTenant f.val) imm.toNat = .ok s1) : execTBarw (.tile f u) imm s =
    .next (waitOn s1 f u (.barW imm.toNat (s.flag F.hubWbar_SENSE imm.toNat)) true) := by
  rw [execTBarw, group_legal hg]
  exact congrArg _ (waitInstr_ok hi hp (by simp only [h]))

theorem execTBarw_of_refused {fl : TFault} (h : s.arriveW (s.actTenant f.val) imm.toNat = .error fl) :
    execTBarw (.tile f u) imm s = .next (s.tileFault (.tile f u) fl) := by
  rw [execTBarw, group_legal hg]
  exact congrArg _ (waitInstr_fault hi hp (by simp only [h]))
end

/-! ### A sequencer at a barrier -/

/-- The sequencer waits for `w` inside its instruction of `len` bytes (R105). -/
def State.awaits (s : State) (f len : Nat) (incs : List (Nat × Nat)) (w : SWait) : State :=
  s.setSeq f { s.seq f with wait := w, resume := (s.spc f + len) % 2 ^ 24, incs := incs, got := [] }

theorem seqAwait_eq (f : Nat) (i : SeqInstr) (e : SEv) (w : SWait) : seqAwait f i e w id = .stay (e.s.awaits f i.len e.incs w) := rfl

theorem State.bar_awaits (s : State) (f len : Nat) (incs : List (Nat × Nat)) (w : SWait) (h g : Nat) :
    (s.awaits f len incs w).bar h g = s.bar h g := State.bar_eq_of_bars_eq (State.bars_setSeq s f h _) g

theorem State.awaits_waitsAt {e : SEv} {s : State} {f : Nat} (hr : s.regs = e.s.regs) (hq : s.seq f = e.s.seq f) (len : Nat) (w : SWait) :
    seqWaitsAt f e len w (s.awaits f len e.incs w) := by
  have hpc : s.spc f = e.s.spc f := getF_eq_of_regs_eq hr _ _ _ _
  refine ⟨hpc, ?_⟩
  rw [State.awaits, State.seq_setSeq_same, hq, hpc]

/-- An armed microcode fault used up changes two marks of its sequencer (R297). -/
theorem State.useMfault_frame (s : State) (f : Nat) : keeps [.fields] s (s.useMfault f) ∧ ((s.useMfault f).seq f).p = (s.seq f).p ∧
    ∀ g, ((s.useMfault f).field g).bars = (s.field g).bars := by
  unfold State.useMfault
  extract_lets q
  split
  · exact ⟨keeps_setField s f _, by rw [State.seq_setSeq_same], fun g => State.bars_setSeq s f g _⟩
  · exact ⟨keeps_refl _ s, rfl, fun _ => rfl⟩

section
variable {s : State} {f : FieldNo} {i : SeqInstr} {l : Legal} {bad : Bool} {body : SEv → SRes Unit} (hm : seqMay s f.val i l bad)
include hm

/-- An instruction that ends in a new state without completing. -/
theorem seqRun_stay {s1 : State} (hb : body (seqStart s f.val) = .stay s1) : seqRun f i l bad s body = s1 := by
  have hb' : body { s := s.useMfault f.val, got := (s.seq f.val).got } = .stay s1 := hb
  simp only [seqRun, hm.1, hm.2, hb', State.seqSettle, Bool.not_true, Bool.false_eq_true, if_false]

/-- An instruction whose evaluation faults takes the precise fault; every barrier group stays as it was. -/
theorem seqRun_fault {fl : TFault} (hb : body (seqStart s f.val) = .fault fl) :
    seqFaultsUncounted f.val s fl (seqRun f i l bad s body) := by
  have hb' : body { s := s.useMfault f.val, got := (s.seq f.val).got } = .fault fl := hb
  have ht : seqRun f i l bad s body = (s.useMfault f.val).seqFault f.val fl := by
    simp only [seqRun, hm.1, hm.2, hb', State.seqSettle, Bool.not_true, Bool.false_eq_true, if_false]
  obtain ⟨hk, hp, hb⟩ := s.useMfault_frame f.val
  have hregs : (s.useMfault f.val).regs = s.regs := hk .regs (by decide)
  have hmode : (s.useMfault f.val).tmode f.val = s.tmode f.val := flag_eq_of_regs_eq hregs _ _ _ _
  have hpc : (s.useMfault f.val).spc f.val = s.spc f.val := getF_eq_of_regs_eq hregs _ _ _ _
  obtain ⟨hf, hbar, harr⟩ := (s.useMfault f.val).seqFault_seqFaultsAt f.val fl
  simp only [seqFaultsAt, hmode, hpc, hp] at hf
  rw [ht]
  exact ⟨hf, fun h g => (hbar h g).trans (State.bar_eq_of_bars_eq (hb h) g),
    fun g => (harr g).trans (State.wbarArrivals_eq_of_keeps hk (by decide) g)⟩
end

section
variable {s : State} {f : FieldNo} {i : SeqInstr} {a : Nat} {e1 : SEv} (hm : seqMay s f.val i {} false)
  (hsrc : srcS (seqStart s f.val) f.val i i.a = .ok a e1) (htw : (e1.s.seq f.val).twait = .none)
include hm hsrc htw

theorem execSeqBarf_of_counted {s2 : State} (h : e1.s.arriveF f.val (a % 256) = .ok s2) : execSeqBarf f i s =
    .next (s2.awaits f.val i.len e1.incs (.barF (a % 256) (s2.bar f.val (a % 256)).sense)) := by
  refine congrArg _ (seqRun_stay hm ?_)
  simp only [hsrc, SRes.bind, htw, h, seqAwait_eq]
  cases e1.s.tmode f.val <;> rfl

theorem execSeqBarf_of_refused {fl : TFault} (h : e1.s.arriveF f.val (a % 256) = .error fl) :
    ∃ t, execSeqBarf f i s = .next t ∧ seqFaultsUncounted f.val s fl t := by
  refine ⟨_, rfl, seqRun_fault hm ?_⟩
  simp only [hsrc, SRes.bind, htw, h]
  cases e1.s.tmode f.val <;> rfl

theorem execSeqBarw_of_counted {s2 : State} (h : e1.s.arriveW (e1.s.seqNames f.val i) (a % 64) = .ok s2) : execSeqBarw f i s =
    .next (s2.awaits f.val i.len e1.incs (.barW (a % 64) (s2.flag F.hubWbar_SENSE (a % 64)))) := by
  refine congrArg _ (seqRun_stay hm ?_)
  simp only [hsrc, SRes.bind, htw, h, seqAwait_eq]
  cases e1.s.tmode f.val <;> rfl

theorem execSeqBarw_of_refused {fl : TFault} (h : e1.s.arriveW (e1.s.seqNames f.val i) (a % 64) = .error fl) :
    ∃ t, execSeqBarw f i s = .next t ∧ seqFaultsUncounted f.val s fl t := by
  refine ⟨_, rfl, seqRun_fault hm ?_⟩
  simp only [hsrc, SRes.bind, htw, h]
  cases e1.s.tmode f.val <;> rfl
end

/-! ### The statement -/

/-- Settles O23: an arrival is counted or refused by the group; the tile or sequencer that arrives waits, the one refused takes a fault. -/
theorem barrierArrivals : Obligations.BarrierArrivals := by
  refine ⟨fun f u s imm => ?tile, fun f s i a e1 hm hsrc htw => ⟨fun g hg => ?barf, fun g tn hg htn => ?barw⟩⟩
  case tile =>
    intro x c g hi hp
    refine ⟨fun he => ?_, fun he => ?_, fun hg hv ho => ?_, fun hg h => ?_⟩
    · obtain ⟨s1, h1, ⟨-, hk⟩, -, hb, hne⟩ := State.arriveF_counted he
      obtain ⟨hw, ht, hy, hwk⟩ := waitOn_frame hk (by decide) (by decide) f u (.barF g (s.bar f.val g).sense)
      exact ⟨_, execTBarf_of_counted hi hp h1, hw, ht, hb, hne, hy, keeps_trans (keeps_mono hk (by decide)) (keeps_mono hwk (by decide))⟩
    · obtain ⟨-, -, -, hb, -⟩ := s.tileFault_frame x (syncFault g) 0
      exact ⟨_, execTBarf_of_refused hi hp (State.arriveF_refused he), s.tileFault_faultsAt x _ (by decide), hb f.val g⟩
    · obtain ⟨s1, h1, hk, -, hb, hne⟩ := State.arriveW_counted hv ho
      obtain ⟨hw, ht, hy, hwk⟩ := waitOn_frame hk (by decide) (by decide) f u (.barW g (s.flag F.hubWbar_SENSE g))
      exact ⟨_, execTBarw_of_counted hi hp hg h1, hw, ht, hb, hne, hy, keeps_trans (keeps_mono hk (by decide)) (keeps_mono hwk (by decide))⟩
    · obtain ⟨-, -, hk, -⟩ := s.tileFault_frame x (syncFault g) 0
      exact ⟨_, execTBarw_of_refused hi hp hg (State.arriveW_refused h), s.tileFault_faultsAt x _ (by decide),
        State.wbarArrivals_eq_of_keeps hk (by decide) g⟩
  case barf =>
    subst hg
    refine ⟨fun he => ?_, fun he => ?_⟩
    · obtain ⟨s2, h2, ⟨hf, hk⟩, hq, hb, -⟩ := State.arriveF_counted he
      have hw := State.awaits_waitsAt (hk .regs (by decide)) hq i.len (.barF (a % 256) (e1.s.bar f.val (a % 256)).sense)
      refine ⟨_, execSeqBarf_of_counted hm hsrc htw h2, by rwa [hb], ?_, fun h hh => ?_, keeps_trans hk (keeps_setField _ _ _)⟩
      · rw [State.bar_awaits, hb]
      · exact (State.field_setField_ne _ _ _ _ hh).trans (hf h hh)
    · obtain ⟨t, ht, hf, hb, -⟩ := execSeqBarf_of_refused hm hsrc htw (State.arriveF_refused he)
      exact ⟨t, ht, hf, hb _ _⟩
  case barw =>
    subst hg htn
    refine ⟨fun hv ho => ?_, fun h => ?_⟩
    · obtain ⟨s2, h2, hk, hq, hb, -⟩ := State.arriveW_counted hv ho
      have hr : s2.regs = e1.s.regs := hk .regs (by decide)
      have hw := State.awaits_waitsAt hr (hq f.val) i.len (.barW (a % 64) (e1.s.flag F.hubWbar_SENSE (a % 64)))
      refine ⟨_, execSeqBarw_of_counted hm hsrc htw h2, by rwa [flag_eq_of_regs_eq hr], hb, ?_⟩
      exact keeps_trans hk (keeps_mono (keeps_setField _ _ _) (by decide))
    · obtain ⟨t, ht, hf, -, ha⟩ := execSeqBarw_of_refused hm hsrc htw (State.arriveW_refused h)
      exact ⟨t, ht, hf, ha _⟩

end Sys2Proof.Machine
end

section
/-! What a BAR0 write leaves behind whatever it does (R7, R230, R234), and the order of the writes of one Hub cycle (R230). -/

namespace Sys2Proof.Machine

open Sys2Proof

/-! ### The records of a write -/

theorem recorded_refl (s : State) : recorded s s := ⟨fun _ _ _ _ _ => rfl, rfl⟩

theorem recorded_trans {s t u : State} (h : recorded s t) (k : recorded t u) : recorded s u := by
  obtain ⟨hr, ht⟩ := h
  obtain ⟨kr, ku⟩ := k
  exact ⟨regsKept_trans hr kr, ku.trans (by rw [ht])⟩

theorem recorded_setReg (s : State) (r : Reg) (i j k v : Nat) (hr : r = .hubLastWriter ∨ r = .hubRsvdWrite) :
    recorded s (s.setReg r i j k v) := by
  refine ⟨fun q i' j' k' hq => State.reg_setReg_ne _ _ _ _ _ _ _ _ _ _ (rkey_ne ?_ _ _ _ _ _ _), rfl⟩
  rintro rfl
  exact hq (by simpa using hr)

/-- Records made, and one more. -/
theorem recorded_setF {s t : State} (h : recorded s t) (fl : Fld) (v i j k : Nat)
    (hr : fl.reg = .hubLastWriter ∨ fl.reg = .hubRsvdWrite) : recorded s (t.setF fl v i j k) :=
  recorded_trans h (recorded_setReg t fl.reg i j k _ hr)

theorem recorded_foldl {α : Type} {step : State → α → State} (h : ∀ s a, recorded s (step s a)) (l : List α) (s : State) :
    recorded s (l.foldl step s) :=
  List.foldlRecOn (motive := recorded s) l step (recorded_refl s) fun _ ht a _ => recorded_trans ht (h _ a)

theorem recorded_busTurn (s : State) (src : Source) (off : Nat) : recorded s (s.busTurn src off) := ⟨fun _ _ _ _ _ => rfl, rfl⟩

theorem recorded_rsvdLog (s : State) (src off : Nat) (locked : Bool) : recorded s (s.rsvdLog src off locked) := by
  have log {t : State} (h : recorded s t) (fl : Fld) (v : Nat) (hr : fl.reg = .hubRsvdWrite) : recorded s (t.setF fl v) :=
    recorded_setF h fl v 0 0 0 (.inr hr)
  exact log (log (log (log (recorded_refl s) _ _ rfl) _ _ rfl) _ _ rfl) _ _ rfl

theorem recorded_lastWriter (s : State) (src : Nat) : recorded s (s.lastWriter src) := by
  have copy {t : State} (h : recorded s t) (fl : Fld) (v : Nat) (hr : fl.reg = .hubLastWriter) :
      recorded s (t.setF fl v 0 0 (src + 1)) := recorded_setF h fl v 0 0 (src + 1) (.inl hr)
  unfold State.lastWriter
  dsimp only
  split
  · exact recorded_refl s
  · exact copy (copy (copy (copy (recorded_refl s) _ _ rfl) _ _ rfl) _ _ rfl) _ _ rfl

theorem recorded_noteAccess (s : State) (e : CycWrite) : recorded s (s.noteAccess e) := by
  unfold State.noteAccess
  dsimp only
  refine recorded_trans (t := { s with bus := { s.bus with cycle := s.bus.cycle ++ [e] } }) ⟨fun _ _ _ _ _ => rfl, rfl⟩
    (recorded_trans (t := if e.conflict = true then _ else _) ?conflict (recorded_foldl (fun s k => ?copy) _ _))
  case conflict =>
    split
    · exact recorded_setF (recorded_refl _) _ _ _ _ _ (.inl rfl)
    · exact recorded_refl _
  case copy =>
    split <;> split
    · exact recorded_lastWriter s k
    · exact recorded_refl s
    · exact recorded_lastWriter s k
    · exact recorded_refl s

/-- A 64-bit write of a register by a source that may write it leaves its records and does the register's own action. -/
theorem State.put_recorded (s : State) (src : Source) (r : Reg) (i j v : Nat) (hi : i < r.desc.n1) (hj : j < r.desc.n2)
    (hb : r.desc.base < 2 ^ 26) (hv : v < 2 ^ 64) (h1 : r ≠ .hubRsvdWrite) (h2 : r ≠ .hubLastWriter)
    (hp : (s.busTurn src (r.offset i j)).passes src ((s.busTurn src (r.offset i j)).guardOf src r i v) = true) :
    ∃ u, recorded s u ∧ s.put src r i j v = u.regWrite src r i j v true := by
  refine ⟨_, recorded_trans (recorded_trans (recorded_busTurn s src (r.offset i j)) ?_) (recorded_noteAccess _ _),
    s.put_accepted src r i j v hi hj hb hv h1 h2 hp⟩
  split
  · exact recorded_rsvdLog _ _ _ _
  · exact recorded_refl _

/-- Whether a source passes the guard of a port depends on the port alone. -/
theorem State.passes_port_eq (s t : State) (src : Source) (p : Nat) : s.passes src (.port p) = t.passes src (.port p) := by
  cases src <;> rfl

/-! ### The order of the writes of a Hub cycle -/

/-- The Hub takes every write of a cycle, each once. -/
theorem busOrder_perm (ws : List BusWrite) : (busOrder ws).Perm ws := by
  refine List.perm_iff_count.mpr fun w => ?_
  have hk (k : Nat) : (ws.filter fun x => x.src.code == k).count w = if w.src.code = k then ws.count w else 0 := by
    split
    · next h => exact List.count_filter (by simpa using h)
    · next h => exact List.count_eq_zero.mpr fun hw => h (by simpa using (List.mem_filter.mp hw).2)
  have hc : w.src.code < 6 := by
    cases w.src with
    | sloe => decide
    | host p => exact Nat.succ_lt_succ (Nat.lt_trans p.isLt (by decide))
    | hub => decide
  rw [busOrder, List.count_flatMap]
  simp only [Function.comp_def, hk, upTo]
  generalize w.src.code = c at hc
  interval_cases c <;> simp [List.range_succ]

/-- Two writes of one Hub cycle are made one after the other, in one order or the other. -/
theorem busOrder_pair (x y : BusWrite) : busOrder [x, y] = [x, y] ∨ busOrder [x, y] = [y, x] := by
  simpa [List.permutations] using List.mem_permutations.mpr (busOrder_perm [x, y])

end Sys2Proof.Machine
end

section
/-! The list of pending fences under the commands of `RAS_FENCE_CMD` (R232, R288): a FENCE enters its tile in a free entry, and an UNFENCE
leaves every fence that was commanded in the same cycle. -/

namespace Sys2Proof.Machine

open Sys2Proof

/-! ### The entries -/

/-- Entry `i` of the list holds a fence of physical tile (`pf`, `pt`) commanded at this time. -/
structure State.FreshFence (s : State) (pf pt i : Nat) : Prop where
  valid : s.flag F.rasFencePend_VALID i = true
  pfield : s.getF F.rasFencePend_PFIELD i = pf
  ptile : s.getF F.rasFencePend_PTILE i = pt
  cmd : s.flag F.rasFencePend_CMD i = true
  entered : Tab.get (fun _ => 0) s.ras.fenceAt i = s.now

theorem State.freshFence_congr {s t : State} {pf pt i : Nat} (h : s.FreshFence pf pt i)
    (hr : t.reg .rasFencePend i 0 0 = s.reg .rasFencePend i 0 0)
    (ha : Tab.get (fun _ => 0) t.ras.fenceAt i = Tab.get (fun _ => 0) s.ras.fenceAt i) (hn : t.now = s.now) : t.FreshFence pf pt i := by
  obtain ⟨hv, hf, ht, hc, he⟩ := h
  simp only [State.flag, State.getF] at hv hf ht hc
  constructor <;> simp only [State.flag, State.getF, hr, ha, hn] <;> assumption

theorem rkey_pend_ne {i j : Nat} (h : i ≠ j) : rkey .rasFencePend i 0 0 ≠ rkey .rasFencePend j 0 0 := by
  unfold rkey
  omega

theorem State.reg_dropFence_ne (s : State) {i j : Nat} (h : i ≠ j) :
    (s.dropFence j).reg .rasFencePend i 0 0 = s.reg .rasFencePend i 0 0 :=
  State.reg_setReg_ne s _ _ _ _ _ _ _ _ _ (rkey_pend_ne h)

theorem State.reg_dropFence_same (s : State) (i : Nat) : (s.dropFence i).reg .rasFencePend i 0 0 = 0 :=
  State.reg_setReg_same s _ _ _ _ _

/-- A free entry stays free when any entry is dropped. -/
theorem State.free_dropFence {s : State} {i : Nat} (j : Nat) (h : s.flag F.rasFencePend_VALID i = false) :
    (s.dropFence j).flag F.rasFencePend_VALID i = false := by
  by_cases hij : i = j
  · subst hij
    simp only [State.flag, State.getF, State.reg_dropFence_same]
    rfl
  · simpa only [State.flag, State.getF, s.reg_dropFence_ne hij] using h

/-- A fence is left alone when another entry is dropped. -/
theorem State.freshFence_dropFence {s : State} {pf pt i j : Nat} (h : s.FreshFence pf pt i) (hij : i ≠ j) :
    (s.dropFence j).FreshFence pf pt i :=
  State.freshFence_congr h (s.reg_dropFence_ne hij) (Tab.get_erase_ne _ _ hij) rfl

theorem packF_four (a b c d : Fld) (w x y z : Nat) : packF [(a, w), (b, x), (c, y), (d, z)] =
    putBits (putBits (putBits (putBits 0 a.lsb a.width w) b.lsb b.width x) c.lsb c.width y) d.lsb d.width z := rfl

/-- The word of a fence commanded of a tile. -/
def commandedWord (pf pt : Nat) : Nat :=
  packF [(F.rasFencePend_VALID, 1), (F.rasFencePend_PFIELD, pf), (F.rasFencePend_PTILE, pt), (F.rasFencePend_CMD, bit true)]

theorem commandedWord_eq (pf pt : Nat) :
    commandedWord pf pt = putBits (putBits (putBits (putBits 0 0 1 1) 1 7 pf) 8 13 pt) 21 1 1 :=
  packF_four _ _ _ _ _ _ _ _

theorem commandedWord_lt (pf pt : Nat) : commandedWord pf pt < 2 ^ 64 := by
  rw [commandedWord_eq]
  exact putBits_lt _ _ _ _ 64 (putBits_lt _ _ _ _ 64 (putBits_lt _ _ _ _ 64 (putBits_lt _ _ _ _ 64 (Nat.two_pow_pos 64) (by decide))
    (by decide)) (by decide)) (by decide)

/-- The fields of that word: VALID, PFIELD, PTILE and CMD. -/
theorem commandedWord_fields {pf pt : Nat} (hf : pf < 2 ^ 7) (ht : pt < 2 ^ 13) :
    bitsOf (commandedWord pf pt) 0 1 = 1 ∧ bitsOf (commandedWord pf pt) 1 7 = pf ∧
    bitsOf (commandedWord pf pt) 8 13 = pt ∧ bitsOf (commandedWord pf pt) 21 1 = 1 := by
  have above (v lo w x l k : Nat) (h : l + k ≤ lo) := bitsOf_putBits_below v lo w x l k h
  rw [commandedWord_eq]
  refine ⟨?_, ?_, ?_, bitsOf_putBits_same ..⟩
  · rw [above _ _ _ _ _ _ (by decide), above _ _ _ _ _ _ (by decide), above _ _ _ _ _ _ (by decide), bitsOf_putBits_same,
      Nat.mod_eq_of_lt (by decide)]
  · rw [above _ _ _ _ _ _ (by decide), above _ _ _ _ _ _ (by decide), bitsOf_putBits_same, Nat.mod_eq_of_lt hf]
  · rw [above _ _ _ _ _ _ (by decide), bitsOf_putBits_same, Nat.mod_eq_of_lt ht]

/-- With an entry free a commanded fence is entered, at this time. -/
theorem State.enterFence_fresh {s : State} {pf pt : Nat} (hold : Nat) (inj : Bool) (hf : pf < 2 ^ 7) (ht : pt < 2 ^ 13)
    (hfree : ∃ i, i < 16 ∧ s.flag F.rasFencePend_VALID i = false) :
    ∃ t i, s.enterFence pf pt true hold inj = some t ∧ i < 16 ∧ t.FreshFence pf pt i := by
  obtain ⟨j, hj, hv⟩ := hfree
  cases hfind : (upTo 16).find? fun i => !s.flag F.rasFencePend_VALID i with
  | none => simpa [hv] using List.find?_eq_none.mp hfind j (List.mem_range.mpr hj)
  | some i =>
    have hent : ∃ t, s.enterFence pf pt true hold inj = some t ∧ t.reg .rasFencePend i 0 0 = commandedWord pf pt ∧
        Tab.get (fun _ => 0) t.ras.fenceAt i = t.now := by
      refine ⟨_, by simp only [State.enterFence, hfind]; rfl, ?_, Tab.get_insert_same _ _ _ _⟩
      exact (State.reg_setReg_same s _ _ _ _ _).trans (Nat.mod_eq_of_lt (commandedWord_lt pf pt))
    obtain ⟨t, ht', hreg, hat⟩ := hent
    obtain ⟨w0, w1, w8, w21⟩ := commandedWord_fields hf ht
    refine ⟨t, i, ht', List.mem_range.mp (List.mem_of_find?_eq_some hfind), ?_, ?_, ?_, ?_, hat⟩ <;>
      simp only [State.flag, State.getF, hreg, w0, w1, w8, w21, bne_iff_ne, ne_eq, one_ne_zero, not_false_eq_true]

/-! ### The commands -/

/-- What a FENCE or an UNFENCE leaves alone: every register but the records of the write, the list and `RAS_CTRL`, and of the last its
ADMIN. -/
structure FenceFrame (s t : State) : Prop where
  regs : regsKept [.rasCtrl, .rasFencePend, .hubLastWriter, .hubRsvdWrite] s t
  admin : t.getF F.rasCtrl_ADMIN = s.getF F.rasCtrl_ADMIN

theorem fenceFrame_of_regsKept {l : List Reg} {s t : State} (h : regsKept l s t)
    (hl : l ⊆ [.rasFencePend, .hubLastWriter, .hubRsvdWrite]) : FenceFrame s t where
  regs r i j k hr := h r i j k fun hm => hr (List.mem_cons_of_mem _ (hl hm))
  admin := congrArg (bitsOf · 0 2) (h .rasCtrl 0 0 0 fun hm => absurd (hl hm) (by decide))

theorem fenceFrame_refl (s : State) : FenceFrame s s := ⟨fun _ _ _ _ _ => rfl, rfl⟩

theorem fenceFrame_trans {s t u : State} (h : FenceFrame s t) (k : FenceFrame t u) : FenceFrame s u :=
  ⟨regsKept_trans h.regs k.regs, k.admin.trans h.admin⟩

theorem fenceFrame_rasRefuse (s : State) : FenceFrame s s.rasRefuse where
  regs := regsKept_setF s F.rasCtrl_REFUSED 1 0 0 0 (by decide)
  admin := State.getF_setF_beside s F.rasCtrl_REFUSED F.rasCtrl_ADMIN 1 0 0 0 rfl (by decide) (.inr (by decide))

/-- A state with the registers of one whose list has a word stored. -/
theorem fenceFrame_of_setPend {s t : State} {i v : Nat} (h : t.regs = (s.setReg .rasFencePend i 0 0 v).regs) : FenceFrame s t :=
  fenceFrame_of_regsKept (l := [.rasFencePend])
    (fun _ _ _ _ hr => (reg_eq_of_regs_eq h _ _ _ _).trans
      (State.reg_setReg_ne s _ _ _ _ _ _ _ _ _ (rkey_ne (by simpa using hr) _ _ _ _ _ _))) (by decide)

theorem fenceFrame_dropFence (s : State) (i : Nat) : FenceFrame s (s.dropFence i) := fenceFrame_of_setPend rfl

theorem fenceFrame_enterFence {s t : State} {pf pt hold : Nat} {cmd inj : Bool} (h : s.enterFence pf pt cmd hold inj = some t) :
    FenceFrame s t := by
  unfold State.enterFence at h
  split at h
  · cases h
  · cases h
    exact fenceFrame_of_setPend rfl

theorem fenceFrame_of_recorded {s u : State} (h : recorded s u) : FenceFrame s u := fenceFrame_of_regsKept h.1 (by decide)

section
variable {s t : State} (h : FenceFrame s t) (f : Nat)
include h

theorem offline_eq_of_fenceFrame : t.offline f = s.offline f := by
  have hr := h.regs .fldId f 0 0 (by decide)
  simp only [State.offline, State.flag, State.getF, hr]

theorem pfield_eq_of_fenceFrame : t.pfield f = s.pfield f := by
  have hr := h.regs .fldId f 0 0 (by decide)
  simp only [State.pfield, State.getF, hr]

theorem ptile_eq_of_fenceFrame (k : Nat) : t.ptile f k = s.ptile f k := by
  have hg (fl : Fld) (j : Nat) (hfl : fl.reg ∉ [.rasCtrl, .rasFencePend, .hubLastWriter, .hubRsvdWrite]) : t.getF fl f j = s.getF fl f j :=
    congrArg (bitsOf · fl.lsb fl.width) (h.regs fl.reg f j 0 hfl)
  simp only [State.ptile, State.ptileXY]
  rw [hg F.fldMapRows_SKIP_ROW0 0 (by decide), hg F.fldMapRows_SKIP_ROW1 0 (by decide), hg F.fldColskip_SKIP_COL0 _ (by decide),
    hg F.fldColskip_SKIP_COL1 _ (by decide)]

end

/-- The records of a write leave a fresh fence alone. -/
theorem State.freshFence_recorded {s u : State} {pf pt i : Nat} (h : s.FreshFence pf pt i) (hu : recorded s u) : u.FreshFence pf pt i := by
  obtain ⟨hr, he⟩ := hu
  refine State.freshFence_congr h (hr _ _ _ _ (by decide)) ?_ ?_ <;> rw [he]

/-- The fields of a FENCE or UNFENCE word as the register takes them (Table 13.8). -/
theorem fenceWord_fields {op f t hold : Nat} (ho : op < 2 ^ 2) (hf : f < 2 ^ 7) (ht : t < 2 ^ 13) (hh : hold < 2 ^ 16) :
    fenceWord op f t hold < 2 ^ 64 ∧ bitsOf (fenceWord op f t hold) 0 2 = op ∧ bitsOf (fenceWord op f t hold) 2 7 = f ∧
    bitsOf (fenceWord op f t hold) 9 13 = t := by
  simp only [bitsOf, fenceWord]
  omega

/-- An UNFENCE is refused, or drops entries none of which is a fence commanded at this time (R232, R288). -/
theorem State.fenceCmd_unfence (s : State) {v : Nat} (hop : bitsOf v 0 2 = 2) :
    s.fenceCmd v = s.rasRefuse ∨ ∃ l : List (Nat × Nat × Nat),
      (∀ x ∈ l, ¬(s.flag F.rasFencePend_CMD x.1 = true ∧ Tab.get (fun _ => 0) s.ras.fenceAt x.1 = s.now)) ∧
      s.fenceCmd v = l.foldl (fun s x => s.dropFence x.1) s := by
  unfold State.fenceCmd
  dsimp only
  rw [hop, if_neg (by decide)]
  split
  · exact .inl rfl
  · rw [if_neg (by decide), if_pos rfl]
    split
    · exact .inl rfl
    · refine .inr ⟨_, fun x hx => ?_, rfl⟩
      simpa [imp_iff_not_or] using (List.mem_filter.mp hx).2

/-- What holds of the state and of its refusal, and is kept when an entry is dropped that holds no fence commanded at this time, holds after
an UNFENCE. -/
theorem State.fenceCmd_unfence_induct {P : State → Prop} {s : State} {v : Nat} (hop : bitsOf v 0 2 = 2) (hs : P s) (hr : P s.rasRefuse)
    (hd : ∀ t i, ¬(s.flag F.rasFencePend_CMD i = true ∧ Tab.get (fun _ => 0) s.ras.fenceAt i = s.now) → P t → P (t.dropFence i)) :
    P (s.fenceCmd v) := by
  obtain h | ⟨l, hl, h⟩ := s.fenceCmd_unfence hop
  · exact h ▸ hr
  · exact h ▸ List.foldlRecOn l _ hs fun t ht x hx => hd t x.1 (hl x hx) ht

theorem fenceFrame_unfence (s : State) {v : Nat} (hop : bitsOf v 0 2 = 2) : FenceFrame s (s.fenceCmd v) :=
  State.fenceCmd_unfence_induct (P := FenceFrame s) hop (fenceFrame_refl s) (fenceFrame_rasRefuse s)
    fun t i _ ht => fenceFrame_trans ht (fenceFrame_dropFence t i)

/-- An UNFENCE leaves a fence commanded at this time in the list. -/
theorem State.freshFence_unfence {s : State} {pf pt i v : Nat} (hop : bitsOf v 0 2 = 2) (hs : s.FreshFence pf pt i) :
    (s.fenceCmd v).FreshFence pf pt i := by
  refine State.fenceCmd_unfence_induct (P := fun t => t.FreshFence pf pt i) hop hs ?refused fun t j hj ht => ?dropped
  case refused => exact State.freshFence_congr hs (State.reg_setF_other s _ _ _ _ _ _ _ _ _ (by decide)) rfl rfl
  case dropped =>
    refine State.freshFence_dropFence ht ?_
    rintro rfl
    exact hj ⟨hs.cmd, hs.entered⟩

/-- An UNFENCE leaves a free entry free. -/
theorem State.free_unfence {s : State} {i v : Nat} (hop : bitsOf v 0 2 = 2) (hs : s.flag F.rasFencePend_VALID i = false) :
    (s.fenceCmd v).flag F.rasFencePend_VALID i = false := by
  refine State.fenceCmd_unfence_induct (P := fun t => t.flag F.rasFencePend_VALID i = false) hop hs ?refused fun t j _ ht => ?dropped
  case refused =>
    rw [State.rasRefuse, State.flag_setF_apart s F.rasCtrl_REFUSED F.rasFencePend_VALID _ _ _ _ _ _ _ (by decide) (.inl (by decide))]
    exact hs
  case dropped => exact State.free_dropFence j ht

/-- A FENCE of a tile of an online field, with an entry free, is entered in the list. -/
theorem State.freshFence_fence {s : State} {f k hold : Nat} (hf : f < 92) (hk : k < 4900) (hh : hold < 2 ^ 16)
    (ho : s.offline f = false) (ht : s.ptile f k < 2 ^ 13) (hfree : ∃ i, i < 16 ∧ s.flag F.rasFencePend_VALID i = false) :
    let t := s.fenceCmd (fenceWord 1 f k hold)
    FenceFrame s t ∧ ∃ i, i < 16 ∧ t.FreshFence (s.pfield f) (s.ptile f k) i := by
  obtain ⟨-, h0, h2, h9⟩ := fenceWord_fields (op := 1) (f := f) (t := k) (hold := hold) (by decide) (by omega) (by omega) hh
  have hpf : s.pfield f < 2 ^ 7 := bitsOf_lt _ _ _
  obtain ⟨t, i, hent, hi, hfresh⟩ := State.enterFence_fresh (bitsOf (fenceWord 1 f k hold) 32 16) false hpf ht hfree
  have hlegal : ¬(92 ≤ f ∨ s.offline f = true ∨ (1 ≠ 3 ∧ 4900 ≤ k)) := by
    simpa [ho] using ⟨hf, hk⟩
  have hcmd : s.fenceCmd (fenceWord 1 f k hold) = t := by
    unfold State.fenceCmd
    dsimp only
    rw [h0, h2, h9, if_neg (by decide), if_neg hlegal, if_pos rfl, hent]
    rfl
  rw [hcmd]
  exact ⟨fenceFrame_enterFence hent, i, hi, hfresh⟩

/-! ### The writes -/

/-- A write of `RAS_FENCE_CMD` by a source that administers RAS leaves its records and does the command. -/
theorem State.put_fenceCmd (s : State) (src : Source) {v : Nat} (hv : v < 2 ^ 64)
    (hp : s.passes src (.port (s.getF F.rasCtrl_ADMIN)) = true) :
    ∃ u, recorded s u ∧ s.put src .rasFenceCmd 0 0 v = u.fenceCmd v :=
  s.put_recorded src .rasFenceCmd 0 0 v (by decide) (by decide) (by decide) hv (by decide) (by decide)
    ((State.passes_port_eq _ s src _).trans hp)

/-- The administering source may write the register still. -/
theorem passes_admin_of_fenceFrame {s t : State} (h : FenceFrame s t) {src : Source}
    (hp : s.passes src (.port (s.getF F.rasCtrl_ADMIN)) = true) : t.passes src (.port (t.getF F.rasCtrl_ADMIN)) = true := by
  rwa [h.admin, State.passes_port_eq t s]

/-- A 64-bit bus write at the offset of `RAS_FENCE_CMD` is a write of that register. -/
theorem State.busWrite_fenceCmd (s : State) (src : Source) (v : Nat) :
    s.busWrite ⟨src, 0x300030, .w64, BitVec.ofNat 64 v⟩ = s.put src .rasFenceCmd 0 0 v := by
  have hoff : BitVec.ofNat 26 (Reg.rasFenceCmd.offset 0 0) = 0x300030 := by decide
  rw [State.put, hoff]

theorem fenceWord_unfence (f t : Nat) : fenceWord 2 f t 0 = 2 + f * 2 ^ 2 + t * 2 ^ 9 := by
  rw [fenceWord, Nat.zero_mul, Nat.add_zero]

section
variable {s : State} {src : Source} (hp : s.passes src (.port (s.getF F.rasCtrl_ADMIN)) = true)
include hp

/-- A write of a FENCE enters the fence. -/
theorem State.freshFence_put_fence {f k hold : Nat} (hf : f < 92) (hk : k < 4900) (hh : hold < 2 ^ 16) (ho : s.offline f = false)
    (ht : s.ptile f k < 2 ^ 13) (hfree : ∃ i, i < 16 ∧ s.flag F.rasFencePend_VALID i = false) :
    let t := s.put src .rasFenceCmd 0 0 (fenceWord 1 f k hold)
    FenceFrame s t ∧ ∃ i, i < 16 ∧ t.FreshFence (s.pfield f) (s.ptile f k) i := by
  obtain ⟨hv, -⟩ := fenceWord_fields (op := 1) (f := f) (t := k) (hold := hold) (by decide) (by omega) (by omega) hh
  obtain ⟨u, hu, heq⟩ := s.put_fenceCmd src hv hp
  have hfr := fenceFrame_of_recorded hu
  obtain ⟨i, hi, hfree⟩ := hfree
  have hfree' : u.flag F.rasFencePend_VALID i = false := by
    simpa only [State.flag, State.getF, hu.1 .rasFencePend i 0 0 (by decide)] using hfree
  obtain ⟨hcmd, hfresh⟩ := State.freshFence_fence hf hk hh ((offline_eq_of_fenceFrame hfr f).trans ho)
    (by rwa [ptile_eq_of_fenceFrame hfr]) ⟨i, hi, hfree'⟩
  rw [pfield_eq_of_fenceFrame hfr, ptile_eq_of_fenceFrame hfr] at hfresh
  simp only [heq]
  exact ⟨fenceFrame_trans hfr hcmd, hfresh⟩

/-- A write of an UNFENCE leaves a fence commanded at this time in the list, a free entry free, and the rest of `FenceFrame`. -/
theorem State.put_unfence {f k : Nat} (hf : f < 92) (hk : k < 4900) :
    let t := s.put src .rasFenceCmd 0 0 (fenceWord 2 f k 0)
    FenceFrame s t ∧ (∀ i, s.flag F.rasFencePend_VALID i = false → t.flag F.rasFencePend_VALID i = false) ∧
      ∀ pf pt i, s.FreshFence pf pt i → t.FreshFence pf pt i := by
  obtain ⟨hv, hop, -⟩ := fenceWord_fields (op := 2) (f := f) (t := k) (hold := 0) (by decide) (by omega) (by omega) (by decide)
  obtain ⟨u, hu, heq⟩ := s.put_fenceCmd src hv hp
  simp only [heq]
  refine ⟨fenceFrame_trans (fenceFrame_of_recorded hu) (fenceFrame_unfence u hop), fun i hi => State.free_unfence hop ?_,
    fun pf pt i hi => State.freshFence_unfence hop (State.freshFence_recorded hi hu)⟩
  simpa only [State.flag, State.getF, hu.1 .rasFencePend i 0 0 (by decide)] using hi

end

/-- Settles O46: made first, the fence stands in the list with the time of the unfence, which leaves it; made last, it is entered after it. -/
theorem fenceBeatsUnfence : Obligations.FenceBeatsUnfence := by
  rintro a b f k hold s ⟨ha, -⟩ ⟨hb, -⟩ ho ⟨j, hj, hfree⟩ ht fence unfence ws hws
  have hfence (u : State) : u.busWrite fence = u.put a .rasFenceCmd 0 0 (fenceWord 1 f.val k.val hold.toNat) :=
    u.busWrite_fenceCmd a _
  have hunfence (u : State) : u.busWrite unfence = u.put b .rasFenceCmd 0 0 (fenceWord 2 f.val k.val 0) := by
    rw [fenceWord_unfence]
    exact u.busWrite_fenceCmd b _
  have horder : busOrder ws = [fence, unfence] ∨ busOrder ws = [unfence, fence] := by
    obtain rfl | rfl := hws
    · exact busOrder_pair fence unfence
    · exact (busOrder_pair unfence fence).symm
  suffices h : ∃ i, i < 16 ∧ (s.busWrites ws).FreshFence (s.pfield f.val) (s.ptile f.val k.val) i by
    obtain ⟨i, hi, h⟩ := h
    exact ⟨s.busWrites ws, rfl, i, hi, h.valid, h.pfield, h.ptile, h.cmd⟩
  unfold State.busWrites
  obtain h | h := horder <;> rw [h, List.foldl_cons, List.foldl_cons, List.foldl_nil, hfence, hunfence]
  · obtain ⟨hfr, i, hi, hfresh⟩ := State.freshFence_put_fence ha f.isLt k.isLt hold.isLt ho ht ⟨j, hj, hfree⟩
    obtain ⟨-, -, hkept⟩ := State.put_unfence (passes_admin_of_fenceFrame hfr hb) f.isLt k.isLt
    exact ⟨i, hi, hkept _ _ i hfresh⟩
  · obtain ⟨hfr, hfree', -⟩ := State.put_unfence hb f.isLt k.isLt
    obtain ⟨-, h⟩ := State.freshFence_put_fence (passes_admin_of_fenceFrame hfr ha) f.isLt k.isLt hold.isLt
      ((offline_eq_of_fenceFrame hfr f).trans ho) (by rwa [ptile_eq_of_fenceFrame hfr]) ⟨j, hj, hfree' j hfree⟩
    rwa [pfield_eq_of_fenceFrame hfr, ptile_eq_of_fenceFrame hfr] at h

end Sys2Proof.Machine
end
